-- ==== Sys2Proof/Machine/Bits.lean ====
section
/-!
DEFINITION. Number formats of the device (R5, R6): two's complement fields, saturation, the roundings the
spec names, and the CRC-16 of R352, and the CRC-32 of the flash records.
-/

namespace Sys2Proof.Machine

/-- The bit field `[hi:lo]` of `v`. -/
def bits (v hi lo : Nat) : Nat := v / 2 ^ lo % 2 ^ (hi + 1 - lo)

/-- Bit `i` of `v`. -/
def bitAt (v i : Nat) : Nat := v / 2 ^ i % 2

/-- The low `n` bits of `v` read as a two's complement number (R6). -/
def toSigned (n v : Nat) : Int :=
  let u := v % 2 ^ n
  if 2 * u < 2 ^ n then (u : Int) else (u : Int) - 2 ^ n

/-- `i` stored in `n` bits of two's complement, modulo `2^n` (R6). -/
def ofSigned (n : Nat) (i : Int) : Nat := (i % (2 ^ n : Int)).toNat

/-- `i` moved to the nearest value between `lo` and `hi`. -/
def clampI (lo hi i : Int) : Int := if i < lo then lo else if hi < i then hi else i

/-- `min(max(i, lo), hi)`, also where `lo` exceeds `hi` (R232). -/
def minMax (lo hi i : Int) : Int := min (max i lo) hi

/-- `v` moved to the nearest value between `lo` and `hi`. -/
def clampN (lo hi v : Nat) : Nat := if v < lo then lo else if hi < v then hi else v

/-- Saturation to an `n`-bit signed number (R6). -/
def satS (n : Nat) (i : Int) : Int := clampI (-(2 ^ (n - 1) : Int)) (2 ^ (n - 1) - 1) i

/-- Saturation to an `n`-bit unsigned number (R6). -/
def satU (n v : Nat) : Nat := if 2 ^ n ≤ v then 2 ^ n - 1 else v

/-- One more, saturating at `2^n - 1`. -/
def incSat (n v : Nat) : Nat := satU n (v + 1)

/-- `i` fits an `n`-bit signed number (R6). -/
def inInt (n : Nat) (i : Int) : Bool := decide (-(2 ^ (n - 1) : Int) ≤ i) && decide (i < 2 ^ (n - 1))

/-- Quotient truncated towards zero. -/
def truncDiv (a : Int) (b : Nat) : Int := Int.tdiv a b

/-- Quotient rounded to nearest, ties to even. -/
def roundEven (a : Int) (b : Nat) : Int :=
  let q := a / (b : Int)
  let r := a % (b : Int)
  if 2 * r < b then q
  else if (b : Int) < 2 * r then q + 1
  else if q % 2 = 0 then q else q + 1

/-- Quotient rounded to nearest, ties upwards. -/
def roundUp (a : Int) (b : Nat) : Int := (2 * a + b) / (2 * (b : Int))

/-- Quotient rounded to nearest, ties away from zero. -/
def roundAway (a : Int) (b : Nat) : Int :=
  if 0 ≤ a then (2 * a + b) / (2 * (b : Int)) else -((2 * (-a) + b) / (2 * (b : Int)))

/-- A rational rounded to nearest, ties to even. -/
def ratRound (q : Rat) : Int := roundEven q.num q.den

/-- The signed 64-bit value of a position (R224). -/
def wrap64 (i : Int) : Int := toSigned 64 (ofSigned 64 i)

/-- `x` reduced to `[-1/2, 1/2)` turn. -/
def wrapHalf (x : Rat) : Rat :=
  let f := x - (x.floor : Rat)
  if f < 1 / 2 then f else f - 1

/-- `b` as a bit. -/
def bitOf (b : Bool) : Nat := if b then 1 else 0

/-- One bit of the CRC-16 of R352: polynomial 0x1021, no reflection. -/
def crcBit (crc : Nat) (b : Nat) : Nat :=
  let top := crc / 2 ^ 15 % 2
  let sh := crc * 2 % 2 ^ 16
  if (top + b) % 2 = 1 then sh ^^^ 0x1021 else sh

/-- CRC-16 of the `n` low bits of `v`, most significant first, from the initial value 0xFFFF (R352, R54). -/
def crc16 (n v : Nat) : Nat :=
  (List.range n).foldl (fun c i => crcBit c (v / 2 ^ (n - 1 - i) % 2)) 0xFFFF

/-- CRC-16 of a list of bytes, each most significant bit first (R352). -/
def crc16Bytes (bs : List Nat) : Nat :=
  bs.foldl (fun c b => (List.range 8).foldl (fun c i => crcBit c (b / 2 ^ (7 - i) % 2)) c) 0xFFFF

/-- One bit of the CRC-32 of IEEE 802.3, reflected. -/
def crc32Bit (c : Nat) : Nat := if c % 2 = 1 then (c / 2) ^^^ 0xEDB88320 else c / 2

/-- CRC-32 (IEEE 802.3) of a list of bytes (R164, R386, R388, R389, R414). -/
def crc32 (bs : List (BitVec 8)) : Nat :=
  (bs.foldl (fun c b => (List.range 8).foldl (fun c _ => crc32Bit c) (c ^^^ b.toNat)) 0xFFFFFFFF) ^^^ 0xFFFFFFFF

end Sys2Proof.Machine
end

