-- ==== Sys2Proof/Syntax.lean ====
section
/-!
DEFINITION. The commands the device takes (spec/opcode_table.json), one constructor per row, and the data they carry.
The instructions of the Lantern engines come first.
A row that is a write of a register carries the writing agent, the block's index and the word written; a row that is an
event carries what comes from outside the device.
-/

namespace Sys2Proof

/-- The agents that make accesses: the host, the eight engines and the Keeper (R20). -/
inductive Agent where
  | host | le (k : Fin 8) | keeper
  deriving DecidableEq, Repr, Inhabited

/-- Owner code of an agent (R20). -/
def Agent.code : Agent → Nat
  | .host => 0
  | .le k => k + 1
  | .keeper => 9

/-- The blocks with a header (R26, R375). -/
inductive Blk where
  | rc (n : Fin 16) | fe | lens (n : Fin 16) | ai (n : Fin 8)
  | lp (n : Fin 64) | lpe | ax (n : Fin 16) | rs (n : Fin 16) | cap | inj (n : Fin 4) | le (n : Fin 8) | qc | q (n : Fin 16)
  | pt (n : Fin 64) | em (n : Fin 16) | sec (n : Fin 64) | ao (n : Fin 8) | exg (n : Fin 16) | lc | lu (n : Fin 32)
  | chip | time | slot (n : Fin 64) | eth (n : Fin 2) | hp | pwr | mb | evc | ec | sns
  deriving DecidableEq, Repr, Inhabited

/-- The four regions (R14), in the order of R444. -/
inductive Region where
  | acquisition | control | port | system
  deriving DecidableEq, Repr, Inhabited

/-- Operation of the immediate shift SHI (R301). -/
inductive ShiftKind where
  | shl | shr | asr | ror
  deriving DecidableEq, Repr

/-- Operand types of a multiplication (R305). -/
inductive MulMode where
  | ss | su | uu
  deriving DecidableEq, Repr, Inhabited

/-- Memory spaces of a load or store (R277, R309). -/
inductive Space where
  | d | x | c
  deriving DecidableEq, Repr

/-- The six monitors of a resolver channel, in the order of INT_ACTIVE (R167, R180). -/
inductive Monitor where
  | los | dos | lot | stuck | phase | exc
  deriving DecidableEq, Repr

/-- The conditions of R384. -/
inductive SensorCond where
  | twarn | thigh | tcrit | vinlo | vinhi | rail
  deriving DecidableEq, Repr

/-- One bitstream since the last decimation tick: the modulator and its samples, oldest first (R96, R104). -/
structure ModStream where
  lane : Fin 40
  bits : List Bool
  deriving DecidableEq, Repr

/-- An access on the bus: its agent and its address, and whether it is a read. -/
structure BusAccess where
  ag : Agent
  addr : Word
  read : Bool
  deriving DecidableEq, Repr

/-- An error of a region's interconnect, with the access it affects, where it affects one (R427). -/
structure BusError where
  region : Region
  access : Option BusAccess := none
  deriving DecidableEq, Repr

/-- A request frame of the host port (R350, R351). -/
structure Frame where
  cmd  : BitVec 8
  addr : Word
  len  : BitVec 16
  data : List Word
  crc  : BitVec 16
  deriving DecidableEq, Repr

/-- What a frame carries, as the Keeper's network stack tells frames apart (R365): an ARP request or an ICMP echo request for an
IPv4 address, a fragment of a datagram, PTP or Enven, or another protocol. -/
inductive EthLoad where
  | arp (ip : Word) | echo (ip : Word) | fragment | service | other
  deriving DecidableEq, Repr, Inhabited

/-- What a MAC sees of a received frame (R365, R366): its length in bytes, destination, number of 802.1Q tags, whether it
is a MAC control frame, is damaged, or is a PTP event message, what it carries, and whether its stamp falls in the second half
of the tick. -/
structure EthFrame where
  bytes : Nat
  dst : BitVec 48
  tags : Nat := 0
  control : Bool := false
  damaged : Bool := false
  ptpEvent : Bool := false
  load : EthLoad := .service
  half : Bool := false
  deriving DecidableEq, Repr

/-- An Enven message (R370): header and payload. -/
structure EnvenMsg where
  magic : BitVec 16 := 0x454E
  hver : BitVec 8 := 1
  type : BitVec 8
  flevel : BitVec 8
  mlevel : BitVec 8
  flags : BitVec 16 := 0
  group : BitVec 16
  node : BitVec 16
  chip : BitVec 8
  role : BitVec 8 := 0
  seq : BitVec 32
  epoch : BitVec 16 := 0
  tsec : BitVec 32 := 0
  tsub : BitVec 32 := 0
  payload : List Byte := []
  /-- the length that the header gives -/
  plen : BitVec 16 := BitVec.ofNat 16 payload.length
  deriving DecidableEq, Repr

/-- The data sets of management messages (R50). -/
inductive PtpData where
  | default | current | parent | timeProperties | port | other
  deriving DecidableEq, Repr, Inhabited

/-- What the PTP stack takes from a message (R47–R50): a grandmaster's class and UTC offset with the port's state, a
measured offset from the master in ns, a management message, or a message that changes none of these. -/
inductive PtpMsg where
  | announce (port : Fin 2) (state : Fin 16) (clockClass : BitVec 8) (utcValid : Bool) (utc : BitVec 16)
  | offset (port : Fin 2) (ns : Int)
  | management (port : Fin 2) (set : Bool) (data : PtpData)
  | other (port : Fin 2)
  deriving DecidableEq, Repr

/-- One sample of every sensor (R384): the four junction temperatures in 1/16 °C and the rails in mV. -/
structure Readings where
  tj0 : Int
  tj1 : Int
  tj2 : Int
  tj3 : Int
  vin : Nat
  vexc : Nat
  vio : Nat
  vcore : Nat
  avdd : Nat
  vref : Nat
  vaon : Nat
  deriving DecidableEq, Repr

/-- The commands of the device, one constructor per row of the table. -/
inductive Instr where
  /-- A read of LE_CYC_LO captures the upper cycle count. (R293) -/
  | leCycRead (k : Fin 8)
  /-- No operation. (R319) -/
  | nop (k : Fin 8)
  /-- Gd := Ga + Gb with Z N C V. (R300) -/
  | add_ (k : Fin 8) (d : Fin 32) (a : Fin 32) (b : Fin 32)
  /-- Gd := Ga + Gb + C. (R300) -/
  | addc (k : Fin 8) (d : Fin 32) (a : Fin 32) (b : Fin 32)
  /-- Gd := Ga − Gb. (R300) -/
  | sub_ (k : Fin 8) (d : Fin 32) (a : Fin 32) (b : Fin 32)
  /-- Gd := Ga − Gb − (1 − C). (R300) -/
  | subc (k : Fin 8) (d : Fin 32) (a : Fin 32) (b : Fin 32)
  /-- Gd := Ga and Gb. (R300) -/
  | and_ (k : Fin 8) (d : Fin 32) (a : Fin 32) (b : Fin 32)
  /-- Gd := Ga or Gb. (R300) -/
  | or_ (k : Fin 8) (d : Fin 32) (a : Fin 32) (b : Fin 32)
  /-- Gd := Ga xor Gb. (R300) -/
  | xor_ (k : Fin 8) (d : Fin 32) (a : Fin 32) (b : Fin 32)
  /-- Gd := Ga and not Gb. (R300) -/
  | andn (k : Fin 8) (d : Fin 32) (a : Fin 32) (b : Fin 32)
  /-- Logical shift left by Gb[5:0]. (R300) -/
  | shl (k : Fin 8) (d : Fin 32) (a : Fin 32) (b : Fin 32)
  /-- Logical shift right by Gb[5:0]. (R300) -/
  | shr (k : Fin 8) (d : Fin 32) (a : Fin 32) (b : Fin 32)
  /-- Arithmetic shift right by Gb[5:0]. (R300) -/
  | asr (k : Fin 8) (d : Fin 32) (a : Fin 32) (b : Fin 32)
  /-- Rotate right by Gb[4:0]. (R300) -/
  | ror (k : Fin 8) (d : Fin 32) (a : Fin 32) (b : Fin 32)
  /-- Signed minimum. (R300) -/
  | min_ (k : Fin 8) (d : Fin 32) (a : Fin 32) (b : Fin 32)
  /-- Signed maximum. (R300) -/
  | max_ (k : Fin 8) (d : Fin 32) (a : Fin 32) (b : Fin 32)
  /-- Unsigned minimum. (R300) -/
  | minu (k : Fin 8) (d : Fin 32) (a : Fin 32) (b : Fin 32)
  /-- Unsigned maximum. (R300) -/
  | maxu (k : Fin 8) (d : Fin 32) (a : Fin 32) (b : Fin 32)
  /-- Saturating absolute value. (R300) -/
  | abs_ (k : Fin 8) (d : Fin 32) (a : Fin 32)
  /-- Saturating negation. (R300) -/
  | neg_ (k : Fin 8) (d : Fin 32) (a : Fin 32)
  /-- Count of leading zero bits. (R300) -/
  | clz (k : Fin 8) (d : Fin 32) (a : Fin 32)
  /-- Sets flags from Ga − Gb. (R300) -/
  | cmp (k : Fin 8) (a : Fin 32) (b : Fin 32)
  /-- Compares two TIME_NS values on the wrapping clock. (R300) -/
  | tcmp (k : Fin 8) (a : Fin 32) (b : Fin 32)
  /-- Saturating signed addition. (R300) -/
  | adds (k : Fin 8) (d : Fin 32) (a : Fin 32) (b : Fin 32)
  /-- Saturating signed subtraction. (R300) -/
  | subs (k : Fin 8) (d : Fin 32) (a : Fin 32) (b : Fin 32)
  /-- Gd := Ga + sign-extended imm16. (R301) -/
  | addi (k : Fin 8) (d : Fin 32) (a : Fin 32) (imm : BitVec 16)
  /-- Gd := Ga and zero-extended imm16. (R301) -/
  | andi (k : Fin 8) (d : Fin 32) (a : Fin 32) (imm : BitVec 16)
  /-- Gd := Ga or zero-extended imm16. (R301) -/
  | ori (k : Fin 8) (d : Fin 32) (a : Fin 32) (imm : BitVec 16)
  /-- Gd := Ga xor zero-extended imm16. (R301) -/
  | xori (k : Fin 8) (d : Fin 32) (a : Fin 32) (imm : BitVec 16)
  /-- Immediate shift or rotate. (R301) -/
  | shi (k : Fin 8) (d : Fin 32) (a : Fin 32) (kind : ShiftKind) (amt : Fin 32)
  /-- Sets flags from Ga − sign-extended imm16. (R301) -/
  | cmpi (k : Fin 8) (a : Fin 32) (imm : BitVec 16)
  /-- Gd := sign-extended imm16. (R301) -/
  | movi (k : Fin 8) (d : Fin 32) (imm : BitVec 16)
  /-- Gd[31:16] := imm16. (R301) -/
  | movhi (k : Fin 8) (d : Fin 32) (imm : BitVec 16)
  /-- Low word of the 64-bit product. (R302) -/
  | mul_ (k : Fin 8) (d : Fin 32) (a : Fin 32) (b : Fin 32)
  /-- High word of the signed product. (R302) -/
  | mulh (k : Fin 8) (d : Fin 32) (a : Fin 32) (b : Fin 32)
  /-- High word of the unsigned product. (R302) -/
  | mulhu (k : Fin 8) (d : Fin 32) (a : Fin 32) (b : Fin 32)
  /-- Rounded saturated Q1.31 product. (R302) -/
  | mulr (k : Fin 8) (d : Fin 32) (a : Fin 32) (b : Fin 32)
  /-- Pd := Ga. (R304) -/
  | mvp (k : Fin 8) (d : Fin 8) (a : Fin 32)
  /-- Ld := Ga[19:0]. (R304) -/
  | mvl (k : Fin 8) (d : Fin 8) (a : Fin 32)
  /-- Kd := Ga[19:0]. (R304) -/
  | mvk (k : Fin 8) (d : Fin 8) (a : Fin 32)
  /-- Gd := Pa. (R304) -/
  | mpv (k : Fin 8) (d : Fin 32) (a : Fin 8)
  /-- Gd := La. (R304) -/
  | mlv (k : Fin 8) (d : Fin 32) (a : Fin 8)
  /-- Gd := Ka, sign-extended. (R304) -/
  | mkv (k : Fin 8) (d : Fin 32) (a : Fin 8)
  /-- Gd := special register Sa. (R304) -/
  | mvs (k : Fin 8) (d : Fin 32) (sr : Fin 32)
  /-- Special register Sd := Ga, with write-1-clear and watchdog kick where the register has them. (R304) -/
  | msv (k : Fin 8) (sr : Fin 32) (a : Fin 32)
  /-- Aa := product, NW and LOST cleared. (R305) -/
  | mpy (k : Fin 8) (acc : Fin 4) (a : Fin 32) (b : Fin 32) (mode : MulMode)
  /-- Aa := Aa + product with wrap counting. (R305) -/
  | mac (k : Fin 8) (acc : Fin 4) (a : Fin 32) (b : Fin 32) (mode : MulMode)
  /-- Aa := Aa − product with wrap counting. (R305) -/
  | msu (k : Fin 8) (acc : Fin 4) (a : Fin 32) (b : Fin 32) (mode : MulMode)
  /-- Accumulates the product of two D-space words with post-modify. (R306) -/
  | macd (k : Fin 8) (acc : Fin 4) (pi : Fin 8) (pj : Fin 8) (modI : Bool) (modJ : Bool) (sub : Bool) (mode : MulMode)
  /-- Clears an accumulator. (R307) -/
  | aclr (k : Fin 8) (acc : Fin 4)
  /-- Loads an accumulator from Gra shifted left. (R307) -/
  | ald (k : Fin 8) (acc : Fin 4) (a : Fin 32) (sh : Fin 64)
  /-- Adds two accumulators with NW combining. (R307) -/
  | aadd (k : Fin 8) (acc : Fin 4) (b : Fin 4)
  /-- Subtracts two accumulators with NW combining. (R307) -/
  | asub (k : Fin 8) (acc : Fin 4) (b : Fin 4)
  /-- Rounds an accumulator to a multiple of 2^pos. (R307) -/
  | rnd (k : Fin 8) (acc : Fin 4) (pos : Fin 64)
  /-- Rounded saturating move from accumulator to G register. (R308) -/
  | mvr (k : Fin 8) (acc : Fin 4) (d : Fin 32) (sh : Fin 64)
  /-- Truncating saturating move from accumulator. (R308) -/
  | mvt (k : Fin 8) (acc : Fin 4) (d : Fin 32) (sh : Fin 64)
  /-- Raw move of an accumulator part. (R308) -/
  | mva (k : Fin 8) (acc : Fin 4) (d : Fin 32) (part : Fin 64)
  /-- 32-bit load from D, X or C space. (R309) -/
  | ld (k : Fin 8) (r : Fin 32) (p : Fin 8) (sp : Space) (post : Bool)
  /-- 32-bit store to D, X or C space. (R309) -/
  | st (k : Fin 8) (r : Fin 32) (p : Fin 8) (sp : Space) (post : Bool)
  /-- 64-bit load into a register pair. (R309) -/
  | ldp (k : Fin 8) (r : Fin 32) (p : Fin 8) (sp : Space) (post : Bool)
  /-- 64-bit store from a register pair. (R309) -/
  | stp (k : Fin 8) (r : Fin 32) (p : Fin 8) (sp : Space) (post : Bool)
  /-- 64-bit load into an accumulator. (R309) -/
  | lda (k : Fin 8) (r : Fin 32) (p : Fin 8) (sp : Space) (post : Bool)
  /-- 64-bit store of an accumulator. (R309) -/
  | sta (k : Fin 8) (r : Fin 32) (p : Fin 8) (sp : Space) (post : Bool)
  /-- Burst read of 1 to 4 C-space words. (R310) -/
  | crb (k : Fin 8) (r : Fin 32) (p : Fin 8) (n : Fin 4) (post : Bool)
  /-- Burst write of 1 to 4 C-space words. (R310) -/
  | cwb (k : Fin 8) (r : Fin 32) (p : Fin 8) (n : Fin 4) (post : Bool)
  /-- Conditional branch with two delay slots. (R311) -/
  | b_ (k : Fin 8) (cond : Fin 16) (target : Fin 16384)
  /-- Conditional branch to a register target. (R311) -/
  | br (k : Fin 8) (cond : Fin 16) (a : Fin 32)
  /-- Conditional call linking in G31. (R311) -/
  | call (k : Fin 8) (cond : Fin 16) (target : Fin 16384)
  /-- Conditional call to a register target. (R311) -/
  | callr (k : Fin 8) (cond : Fin 16) (a : Fin 32)
  /-- Conditional return to G31. (R311) -/
  | ret (k : Fin 8) (cond : Fin 16)
  /-- Starts a hardware loop with an immediate count. (R312) -/
  | loop_ (k : Fin 8) (fin : Fin 16384) (count : Fin 4096)
  /-- Starts a hardware loop with a register count. (R312) -/
  | loopReg (k : Fin 8) (fin : Fin 16384) (c : Fin 32)
  /-- Gd := TIME_NS over the private path. (R313) -/
  | tnow (k : Fin 8) (d : Fin 32)
  /-- Gd := epoch, DISC and HOLDOVER. (R313) -/
  | tnowe (k : Fin 8) (d : Fin 32)
  /-- Posts a target and an ARM to a timed-action slot. (R314) -/
  | tarm (k : Fin 8) (slot : Fin 64) (t : Fin 32)
  /-- Posts a DISARM to a timed-action slot. (R314) -/
  | tdis (k : Fin 8) (slot : Fin 64)
  /-- Writes one queue entry from four G registers. (R316) -/
  | qw (k : Fin 8) (q : Fin 16) (quad : Fin 8)
  /-- Reads and removes the oldest queue entry. (R316) -/
  | qr (k : Fin 8) (q : Fin 16) (quad : Fin 8)
  /-- Reads the number of entries in a queue. (R316) -/
  | ql (k : Fin 8) (q : Fin 16) (d : Fin 32)
  /-- Requests a fence from the queue controller. (R317) -/
  | fence (k : Fin 8) (a : Fin 32) (b : Fin 32)
  /-- Suspends the engine until a named condition holds. (R318) -/
  | wait_ (k : Fin 8) (mask : BitVec 4) (t : Fin 32) (d : Fin 32) (q : Fin 16) (level : Fin 16)
  /-- Returns from level 1, restoring registers, ST and PC. (R286) -/
  | rtf (k : Fin 8)
  /-- Enters HALTED. (R319) -/
  | halt (k : Fin 8)
  /-- Clears the named ST flags. (R319) -/
  | clrf (k : Fin 8) (mask : BitVec 6)
  /-- An engine executes an instruction word with an unassigned opcode, function, mode or space, or with a 1 in a bit marked 0, and faults with ILLOP. (R295) -/
  | illop (k : Fin 8) (word : Word)
  /-- A write to a register that has no row of its own is judged for isolation, ownership and RWO, then stored field by field. (R8) -/
  | registerWrite (ag : Agent) (addr : Word) (w : Word)
  /-- A host write to OWN_CMD changes or refuses the owner of the named block and writes OWN_RES. (R24) -/
  | ownCmd (ag : Agent) (w : Word)
  /-- The owner writes BLK_CTRL.ISOLATE = 1 to start isolating a block. (R27) -/
  | isolateRequest (ag : Agent) (b : Blk) (w : Word)
  /-- Isolation completes within 16 fabric cycles: outputs go safe, processing stops and ISOLATED is set. (R27) -/
  | isolationComplete (b : Blk)
  /-- The owner writes ISOLATE = 0 and the block returns to service, re-acquiring or re-arming where its rules say so. (R27) -/
  | isolationRelease (ag : Agent) (b : Blk) (w : Word)
  /-- A read of TIME_NS captures TIME_SUB, TIME_SEC and TIME_EPOCH of the same tick. (R34) -/
  | timeNsRead
  /-- A write of INCR stores the value, clamped to 5 ns ± 1,000 ppm with ICLAMP set, and changes the rate of a slew in progress. (R36) -/
  | incrWrite (ag : Agent) (w : Word)
  /-- A write of TIME_ADJ adds the offset to SLEW_REM and decides between no-op, slew and step. (R37) -/
  | timeAdj (ag : Agent) (w : Word)
  /-- An adjustment of total offset 0 completes at the next tick as a slew of no length. (R37) -/
  | zeroAdjustComplete
  /-- The tick at which the remainder is at most d removes it exactly and clears SLEWING. (R38) -/
  | slewComplete
  /-- At the first tick after a step decision the offset is applied, the epoch moves, STEP is set and slots are re-evaluated. (R44) -/
  | stepApply
  /-- A generator's phase realignment completes; EXALIGN clears once all are aligned. (R46) -/
  | excitationAligned (n : Fin 16)
  /-- A carry out of bit 31 of TIME_NS in normal counting sets TIME.WRAP. (R42) -/
  | timeWrap
  /-- TIME_SUB passes a whole second and the hardware advances TIME_SEC. (R34) -/
  | timeSecondCarry
  /-- The Keeper's PTP stack loses its master and the time unit holds over with HOLDOVER set. (R47) -/
  | ptpMasterLost
  /-- A master is regained or changed and the Keeper writes the measured offset to TIME_ADJ. (R48) -/
  | ptpMasterAcquired (offset : Int)
  /-- A PTP message arrives on a MAC and the Keeper's PTP stack processes it. (R50) -/
  | ptpMessageReceived (msg : PtpMsg)
  /-- A leader drives the SYNC pulse at each whole millisecond, with the time word at whole seconds. (R53) -/
  | syncMsEdgeOut
  /-- A follower time-stamps a SYNC rising edge and corrects its offset and INCR. (R55) -/
  | syncEdgeReceived (half : Bool)
  /-- A follower receives a whole time word, checks its CRC and adopts TIME_SEC and TIME_EPOCH. (R55) -/
  | syncTimeWordReceived (word : BitVec 96)
  /-- Missing edges, a far edge or failed CRCs put a follower into holdover with SYNCLOST set. (R56) -/
  | syncLoss
  /-- A follower in holdover resumes after 2 consecutive valid seconds. (R56) -/
  | syncResume
  /-- A follower with no valid SYNC edge within 10 ms of taking its role enters holdover. (R58) -/
  | syncAcquireTimeout
  /-- A leader reading back a differing level for 16 samples sets SYNCCONF and stops driving. (R58) -/
  | syncContention
  /-- The 1 PPS output rises at each whole second of TIME_SUB. (R59) -/
  | ppsPulseStart
  /-- The 1 PPS pulse falls after PPSW µs. (R59) -/
  | ppsPulseEnd
  /-- A write of SLOT_CMD.ARM arms the slot, or refuses it, and checks a target already passed. (R62) -/
  | slotArm (ag : Agent) (n : Fin 64) (w : Word)
  /-- A write of SLOT_CMD.DISARM returns the slot to IDLE. (R66) -/
  | slotDisarm (ag : Agent) (n : Fin 64) (w : Word)
  /-- An armed slot fires at the first tick at which its target is passed and carries out its action. (R63) -/
  | slotFire (n : Fin 64)
  /-- At the frame boundary after its joined causes the acquisition chain clears its lanes and realigns to network time. (R67) -/
  | synchronisingReset
  /-- EXG_CTRL.EN written 1 starts the generator ramp, or stores EN in SAFE while a cause holds. (R79) -/
  | exgEnable (ag : Agent) (n : Fin 16) (w : Word)
  /-- EXG_CTRL.EN written 0 ramps the generator down, or cancels a retry or trip. (R79) -/
  | exgDisable (ag : Agent) (n : Fin 16) (w : Word)
  /-- A write of EXG_AMP sets a new target amplitude that the ramp approaches. (R80) -/
  | exgAmpWrite (ag : Agent) (n : Fin 16) (w : Word)
  /-- At each positive-going zero crossing the generator steps its amplitude and publishes IRMS and IPK, and channels close their cycle sums. (R79) -/
  | carrierCycleEnd (n : Fin 16) (irms : Nat) (ipk : Nat)
  /-- At each PWM period boundary every leg and AO pin quantises its next duty through the noise shaper. (R75) -/
  | pwmPeriodEnd
  /-- A leg current above 250 mA switches both legs low for the rest of the period and counts in LIMCNT. (R83) -/
  | exgLimitEvent (n : Fin 16)
  /-- The SC timer reaches 2 ms, SC is set and the generator trips, retries or keeps limiting. (R84) -/
  | exgShortCircuit (n : Fin 16)
  /-- 100 ms in RETRY_WAIT elapse and the generator ramps again with RETRIES incremented. (R79) -/
  | exgRetryTimeout (n : Fin 16)
  /-- 1 s in ON without a limit event returns RETRIES to 0. (R85) -/
  | exgRetryClear (n : Fin 16)
  /-- VEXC falls below 7.5 V and every generator takes it as a safe-state cause with VUV set. (R77) -/
  | vexcUndervoltage (mv : Nat)
  /-- VEXC rises above 7.8 V and the undervoltage cause ends. (R77) -/
  | vexcRecover (mv : Nat)
  /-- AO_CTRL.EN written 1 loads AO_RESET_CODE and starts the output. (R88) -/
  | aoEnable (ag : Agent) (n : Fin 8) (w : Word)
  /-- AO_CTRL.EN written 0 returns the pin to high impedance with its pull-down. (R88) -/
  | aoDisable (ag : Agent) (n : Fin 8) (w : Word)
  /-- A new code is requested, starting the occult hold when the step exceeds THRESH. (R90) -/
  | aoCodeWrite (ag : Agent) (n : Fin 8) (w : Word)
  /-- After HOLD + 1 periods the shaper's state and the new code take over the pin. (R90) -/
  | occultHoldEnd (n : Fin 8)
  /-- A change of AO_CTRL.RANGE while enabled starts the range change at the occult code. (R91) -/
  | aoRangeChange (ag : Agent) (n : Fin 8) (w : Word)
  /-- After 20 µs the rail switches and the output ramps towards the requested code. (R91) -/
  | aoRailSwitch (n : Fin 8)
  /-- After 50 µs from the switch the ramp reaches AO_CODE and RANGING ends. (R91) -/
  | aoRangeRampDone (n : Fin 8)
  /-- An AO pin's current above 30 mA is limited cycle by cycle with LIMEV set. (R92) -/
  | aoLimitEvent (n : Fin 8)
  /-- The AO SC timer expires, SC is set and the output trips or retries. (R92) -/
  | aoShortCircuit (n : Fin 8)
  /-- The AO retry wait of 100 ms ends and the output restarts. (R92) -/
  | aoRetryTimeout (n : Fin 8)
  /-- At each SENT_PERIOD of the AON clock the device raises VCORE, starts the PLL and begins sentinel bursts. (R420) -/
  | sentinelWake
  /-- Once the PLL locks each sentinel generator enables its bridge at phase 0 for three carrier cycles. (R94) -/
  | sentinelBurstStart
  /-- After three carrier cycles the bridge returns to high impedance at the zero crossing. (R94) -/
  | sentinelBurstEnd
  /-- The filter engine hands the sentinel comparator the burst angle, which updates the unwrapped change: the bits of the
  channel's two modulators from the enable of the burst on, as many as there were modulator clocks. (R122) -/
  | sentinelAngleReady (j : Fin 4) (bitsS : List Bool) (bitsC : List Bool) (clocks : Nat)
  /-- A modulator's loop-filter clamp acts and the affected samples carry OVL. (R100) -/
  | modulatorOverload (lane : Fin 40)
  /-- A bitstream unchanged for 64 clocks sets the STUCK flag. (R100) -/
  | modulatorStuck (lane : Fin 40)
  /-- A lane counts a wrong number of modulator clocks in a frame, sets CLKF and marks the frame INVALID. (R100) -/
  | modulatorClockFault (lane : Fin 40)
  /-- At each resolver decimation tick the filter engine combs, filters and demodulates every served signal in slot order. (R104) -/
  | feSchedule (streams : List ModStream)
  /-- A window of 2^RMSW valid samples completes and AI_RMS, AI_MEAN and AI_RTSTAMP are written. (R113) -/
  | aiRmsWindowEnd (n : Fin 8)
  /-- AI_CTRL.EN written 1 starts the modulator and lane under the INVALID rule. (R125) -/
  | aiEnable (ag : Agent) (n : Fin 8) (w : Word)
  /-- A write of RMSW abandons the RMS window in progress. (R113) -/
  | aiRmswWrite (ag : Agent) (n : Fin 8) (w : Word)
  /-- A read of AI_VALUE captures AI_TSTAMP. (R125) -/
  | aiValueRead (n : Fin 8)
  /-- A read of AI_RMS captures AI_MEAN and AI_RTSTAMP of the same window. (R125) -/
  | aiRmsRead (n : Fin 8)
  /-- A write of RCn_ACQ.CNTCLR clears RCn_ACQCNT. (R124) -/
  | acqCountClear (ag : Agent) (n : Fin 16) (w : Word)
  /-- A converter makes one loop update per hand-off and publishes its result set. (R129) -/
  | converterUpdate (n : Fin 16)
  /-- ef stays at or below THR for 1,024 consecutive usable updates and LOCK is set. (R142) -/
  | lockAcquired (n : Fin 16)
  /-- RCn_TRK_CTRL.EN written 1 loads TURNS and θ_n and enters COARSE. (R138) -/
  | converterEnable (ag : Agent) (n : Fin 16) (w : Word)
  /-- RCn_TRK_CTRL.EN written 0 stops publishing and enters OFF. (R138) -/
  | converterDisable (ag : Agent) (n : Fin 16) (w : Word)
  /-- A write of REACQ puts a tracking converter back in COARSE keeping TURNS, V and θ_n. (R138) -/
  | reacquire (ag : Agent) (n : Fin 16) (w : Word)
  /-- After 1,024 accepted cycles PHACQ clears and BASE may be loaded. (R136) -/
  | phaseAcqDone (n : Fin 16)
  /-- A write of RCn_TRK_K1 is held until the next K2 write. (R131) -/
  | trkK1Write (ag : Agent) (n : Fin 16) (w : Word)
  /-- A write of RCn_TRK_K2 commits the gain pair from the next update. (R131) -/
  | trkGainCommit (ag : Agent) (n : Fin 16) (w : Word)
  /-- A read of RCn_ANGLE captures the turns, velocity, instant and epoch of the same publish. (R145) -/
  | rcAngleRead (n : Fin 16)
  /-- LENSn_CTRL.STATE written 0 stops correction and discards the sums. (R156) -/
  | lensOff (ag : Agent) (n : Fin 16) (w : Word)
  /-- STATE written 1 enters LEARN with the sums cleared or kept as the table says. (R156) -/
  | lensLearn (ag : Agent) (n : Fin 16) (w : Word)
  /-- STATE written 2 applies the applied bank and discards learning in progress. (R156) -/
  | lensApply (ag : Agent) (n : Fin 16) (w : Word)
  /-- STATE written 3 learns while applying the applied bank. (R156) -/
  | lensLearnApply (ag : Agent) (n : Fin 16) (w : Word)
  /-- A write of RESTART clears sums and counts and abandons a revolution or check. (R166) -/
  | lensRestart (ag : Agent) (n : Fin 16) (w : Word)
  /-- A write of COMMIT requests a commit of the candidate, or sets CMDERR without one. (R161) -/
  | lensCommit (ag : Agent) (n : Fin 16) (w : Word)
  /-- A mechanical revolution ends and is accepted for processing or rejected with its reasons. (R157) -/
  | lensRevolutionEnd (n : Fin 16)
  /-- Processing of an accepted revolution completes and its learned table enters the direction's sums. (R158) -/
  | lensRevolutionProcessed (n : Fin 16)
  /-- At the first publish with INTEG = 0 the applied and candidate banks are exchanged. (R161) -/
  | lensCommitEffect (n : Fin 16)
  /-- A channel monitor's condition holds for its dwell, it becomes active and raises its alarm. (R171) -/
  | monitorActive (n : Fin 16) (m : Monitor)
  /-- A monitor's condition is absent with its release margin for its dwell and it becomes inactive. (R167) -/
  | monitorInactive (n : Fin 16) (m : Monitor)
  /-- An angle-frozen window of WIN ms ends and the test passes or fails. (R168) -/
  | stuckWindowEnd (n : Fin 16)
  /-- The cross-check difference exceeds THR for DWELL µs and the fault is attributed. (R173) -/
  | xcheckFault (n : Fin 16)
  /-- The cross-check difference stays at or below THR / 2 for DWELL µs and the fault clears. (R173) -/
  | xcheckClear (n : Fin 16)
  /-- The holdover timer reaches HOLDT and the axis enters FB_SAFE, withdrawing torque enable. (R176) -/
  | holdoverExpiry (n : Fin 16)
  /-- AXn_FB_CMD.FALLBACK moves an axis in FB_HOLDOVER onto a usable secondary. (R176) -/
  | axisFallback (ag : Agent) (n : Fin 16) (w : Word)
  /-- AXn_FB_CMD.SAFE commands FB_SAFE. (R176) -/
  | axisSafe (ag : Agent) (n : Fin 16) (w : Word)
  /-- AXn_FB_CMD.CLEAR returns the axis to NORMAL when its conditions hold, else sets CLRREJ. (R176) -/
  | axisClear (ag : Agent) (n : Fin 16) (w : Word)
  /-- A write of AXn_TEN.ARM re-arms torque enable after FB_SAFE. (R179) -/
  | tenArm (ag : Agent) (n : Fin 16) (w : Word)
  /-- 4 fabric cycles after a publish the axis forms its position and velocity from the source's accumulator. (R224) -/
  | axisDelivery (n : Fin 16)
  /-- The Port real-time bus delivers position, velocity, instant and validity to emulators, latches and sectors. (R182) -/
  | portDelivery (n : Fin 16)
  /-- An axis with no usable source or isolated makes a HELD delivery at every frame. (R182) -/
  | heldDelivery (n : Fin 16)
  /-- EM_CTRL.EN written 1 clears the debt counters and enters WAIT. (R190) -/
  | emEnable (ag : Agent) (n : Fin 16) (w : Word)
  /-- EM_CTRL.EN written 0 releases the lines and discards debt. (R190) -/
  | emDisable (ag : Agent) (n : Fin 16) (w : Word)
  /-- The target count crosses a boundary after GAP and the emulator emits one edge. (R186) -/
  | emEdgeEmit (n : Fin 16)
  /-- A falling SSI clock latches the position word or restarts the word during the monoflop. (R193) -/
  | ssiClockFall (n : Fin 16)
  /-- A rising SSI clock drives the next data bit or ends the word and starts the monoflop. (R193) -/
  | ssiClockRise (n : Fin 16)
  /-- The monoflop of TM µs expires and the data line returns high. (R193) -/
  | ssiMonoflopExpiry (n : Fin 16)
  /-- A latch unit detects a filtered edge on its input cell and stamps t_e. (R195) -/
  | latchEdge (n : Fin 32) (rising : Bool) (age : Nat)
  /-- Once its deliveries arrive the latch unit computes the position and posts its record. (R196) -/
  | latchRecordPost (n : Fin 32)
  /-- A write of LU_CFG.SWTRIG makes a software latch record at the write's arrival. (R195) -/
  | latchSwtrig (ag : Agent) (n : Fin 32) (w : Word)
  /-- A write of LU_CFG.ARM re-arms a one-shot unit. (R197) -/
  | latchArm (ag : Agent) (n : Fin 32) (w : Word)
  /-- LU_CFG.EN written 1 enables and arms the latch unit. (R198) -/
  | latchEnable (ag : Agent) (n : Fin 32) (w : Word)
  /-- A read of LU_TIME captures the position and word 0 of the same record. (R198) -/
  | latchTimeRead (n : Fin 32)
  /-- A write of SEC_HI_H commits all four window words at the next delivery. (R199) -/
  | sectorWindowCommit (ag : Agent) (n : Fin 64) (w : Word)
  /-- At each servo instant a lane estimates position and velocity, runs its shaping filter and posts its record. (R205) -/
  | servoInstant (n : Fin 16)
  /-- RS_CFG.EN written 1 clears the window and enters WAIT. (R215) -/
  | rsEnable (ag : Agent) (n : Fin 16) (w : Word)
  /-- RS_CFG.EN written 0 stops the lane, keeping its last output. (R215) -/
  | rsDisable (ag : Agent) (n : Fin 16) (w : Word)
  /-- A read of RS_TSERVO captures the SNAP registers of the same output. (R216) -/
  | rsTservoRead (n : Fin 16)
  /-- SHEN written 1 seeds the histories at the next servo instant. (R218) -/
  | shapeEnable (ag : Agent) (n : Fin 16) (w : Word)
  /-- SHEN written 0 passes the input through and ends a fade at once. (R221) -/
  | shapeDisable (ag : Agent) (n : Fin 16) (w : Word)
  /-- A coefficient write is accepted only to the inactive bank outside a fade, else WREJ is set. (R219) -/
  | shapeCoefWrite (ag : Agent) (n : Fin 16) (bank : Fin 2) (c : Fin 20) (w : Word)
  /-- A write of RS_SH_CMD.REQ requests a change of bank, starting, latching or ignoring a fade. (R221) -/
  | shapeRequest (ag : Agent) (n : Fin 16) (w : Word)
  /-- j reaches F, the target bank becomes active and a latched request may start a new fade. (R221) -/
  | fadeComplete (n : Fin 16)
  /-- A write of AXn_SRC re-initialises the accumulator at the source's next publish. (R225) -/
  | axisSrcWrite (ag : Agent) (n : Fin 16) (w : Word)
  /-- A write of AXn_POS_OFS_LO is held until the HI word is written. (R226) -/
  | axisOffsetLoWrite (ag : Agent) (n : Fin 16) (w : Word)
  /-- A write of AXn_POS_OFS_HI commits the offset from the next delivery. (R226) -/
  | axisOffsetCommit (ag : Agent) (n : Fin 16) (w : Word)
  /-- A read of AXn_POS_LO captures the rest of the same delivery. (R228) -/
  | axisPosRead (n : Fin 16)
  /-- AXn_ENC_CFG.EN written 1 sets C to 0 and clears QERR. (R227) -/
  | encoderEnable (ag : Agent) (n : Fin 16) (w : Word)
  /-- A valid quadrature transition changes C by one, or a double change sets QERR. (R227) -/
  | encoderTransition (n : Fin 16) (a : Bool) (b : Bool)
  /-- At each frame boundary the encoder input samples C and publishes it 40 ns later. (R227) -/
  | encoderSample (n : Fin 16)
  /-- LPn_CMD = OPEN puts the loop in OPEN from its present state. (R237) -/
  | loopOpen (ag : Agent) (n : Fin 64) (w : Word)
  /-- LPn_CMD = TRACK puts the loop in TRACK. (R237) -/
  | loopTrack (ag : Agent) (n : Fin 64) (w : Word)
  /-- LPn_CMD = CLOSE starts the soft start in RAMP, or is refused with CMDREJ. (R240) -/
  | loopClose (ag : Agent) (n : Fin 64) (w : Word)
  /-- LPn_CMD = OFF removes the loop from the selection. (R237) -/
  | loopOff (ag : Agent) (n : Fin 64) (w : Word)
  /-- A write of LPn_TARGET_HI commits the 64-bit target. (R247) -/
  | loopTargetCommit (ag : Agent) (n : Fin 64) (w : Word)
  /-- A write of LPn_ISET sets the integrator, clamped to its limits. (R247) -/
  | loopIset (ag : Agent) (n : Fin 64) (w : Word)
  /-- A read of LPn_U captures error, integrator, reference and instant of the same evaluation. (R247) -/
  | loopURead (n : Fin 64)
  /-- At a group instant the engine starts its batch, skipping loops of an overrun batch. (R243) -/
  | rateGroupInstant (k : Fin 4)
  /-- A loop evaluation completes and its output enters the axis selection. (R232) -/
  | loopEvaluation (n : Fin 64)
  /-- INJ_CMD.ARM arms the generator if its owner owns the loop, else sets REFUSED. (R256) -/
  | injArm (ag : Agent) (n : Fin 4) (w : Word)
  /-- INJ_CMD.START runs the generator from the next group instant. (R256) -/
  | injStart (ag : Agent) (n : Fin 4) (w : Word)
  /-- INJ_CMD.STOP tapers out a run or returns an armed generator to IDLE. (R256) -/
  | injStop (ag : Agent) (n : Fin 4) (w : Word)
  /-- j reaches INJ_N − TAPER and the generator tapers out. (R256) -/
  | injTaperStart (n : Fin 4)
  /-- The taper reaches 0 and the generator enters DONE. (R256) -/
  | injDone (n : Fin 4)
  /-- CAP_CMD.ARM starts a capture in PRE or ROLL. (R261) -/
  | capArm (ag : Agent) (w : Word)
  /-- CAP_CMD.STOP ends the capture in DONE with CUT set. (R261) -/
  | capStop (ag : Agent) (w : Word)
  /-- CAP_CMD.TRIG makes a software trigger. (R260) -/
  | capTrig (ag : Agent) (w : Word)
  /-- At each capture clock the unit writes one row of channel samples. (R258) -/
  | captureSample
  /-- LEN − PRE samples from the trigger are taken, the unit enters DONE and posts its record. (R261) -/
  | captureComplete
  /-- A write of CAP_LEN in ROLL is staged until the write index passes 0. (R262) -/
  | capLenWrite (ag : Agent) (w : Word)
  /-- A staged capture length commits and a read index beyond it is set to 0. (R262) -/
  | capLenCommit
  /-- A read of CAP_WP captures CAP_RP, CAP_OVR and CAP_WRAPS. (R263) -/
  | capWpRead
  /-- LE_CMD = RUN starts the engine at LE_ENTRY. (R289) -/
  | leRun (ag : Agent) (k : Fin 8) (w : Word)
  /-- LE_CMD = STOP stops the engine at the next point where an interrupt could enter. (R289) -/
  | leStop (ag : Agent) (k : Fin 8) (w : Word)
  /-- LE_CMD = STEP executes one instruction of a stopped engine. (R289) -/
  | leStep (ag : Agent) (k : Fin 8) (w : Word)
  /-- LE_CMD = RESUME continues a stopped engine from its saved PC. (R289) -/
  | leResume (ag : Agent) (k : Fin 8) (w : Word)
  /-- LE_CMD = RESET clears the engine's registers and enters IDLE. (R289) -/
  | leReset (ag : Agent) (k : Fin 8) (w : Word)
  /-- LE_CMD.SWI sets IPEND bit 4 of the engine. (R293) -/
  | leSwi (ag : Agent) (k : Fin 8) (w : Word)
  /-- An enabled pending source enters level 1, saving PC and ST and switching to shadow registers. (R285) -/
  | interruptEntry (k : Fin 8)
  /-- The engine watchdog reaches PERIOD and the engine faults with WDOG. (R291) -/
  | watchdogExpiry (k : Fin 8)
  /-- A condition of a suspended WAIT holds and the engine resumes with the conditions in Gd. (R318) -/
  | waitComplete (k : Fin 8)
  /-- The data of an interlocked X-space or C-space load arrive and the stall ends. (R278) -/
  | loadDataReturn (k : Fin 8)
  /-- A posted X-space or C-space store leaves the write buffer and reaches its target. (R278) -/
  | postedStoreComplete (k : Fin 8)
  /-- Q_CFG.EN written 1 enables the queue empty, or refuses an overlapping ring with CFGERR. (R322) -/
  | queueEnable (ag : Agent) (q : Fin 16) (w : Word)
  /-- A write of Q_PUSH3 commits the writer's staged entry if WRMASK permits. (R326) -/
  | queuePush (ag : Agent) (q : Fin 16) (w : Word)
  /-- A read of Q_POP returns word 0, captures words 1–3 and, by the owner, removes the entry. (R327) -/
  | queuePop (ag : Agent) (q : Fin 16)
  /-- A write of Q_LEN takes effect at once or is staged in a queue holding entries. (R330) -/
  | queueLenWrite (ag : Agent) (q : Fin 16) (w : Word)
  /-- A staged length commits when the write pointer next passes index 0. (R330) -/
  | queueLenCommit (q : Fin 16)
  /-- Q_CMD.FLUSH removes every entry and counts them as skipped. (R331) -/
  | queueFlush (ag : Agent) (q : Fin 16) (w : Word)
  /-- Q_CMD.CNTCLR clears the drop, overwrite and skip counters. (R331) -/
  | queueCountClear (ag : Agent) (q : Fin 16) (w : Word)
  /-- A hardware record reaches a queue and is written, dropped or overwrites the oldest. (R328) -/
  | recordPost
  /-- A write of QC_FENCE_CMD requests a fence with the writer's source mask. (R339) -/
  | fenceCmd (ag : Agent) (w : Word)
  /-- The fence record is written into each target queue after every earlier record of the masked sources. (R339) -/
  | fencePlace
  /-- An alarm raise creates, updates or overflows an alarm table entry and posts its record. (R342) -/
  | alarmRaise (code : BitVec 16) (src : Word) (grade : Fin 4) (kept : Bool)
  /-- A block reports a kept condition gone and the entry clears COND or becomes FREE. (R342) -/
  | alarmConditionGone (code : BitVec 16) (src : Word)
  /-- A write of AT_ACK acknowledges one entry or every valid entry. (R342) -/
  | alarmAck (ag : Agent) (w : Word)
  /-- A write of AT_RAISE raises a software alarm within the writer's permitted codes. (R345) -/
  | atRaise (ag : Agent) (w : Word)
  /-- A write of AT_RAISE_SRC is accepted from the Keeper only, else reported. (R345) -/
  | atRaiseSrcWrite (ag : Agent) (w : Word)
  /-- A read of entry word 0 captures words 1 to 5 of the entry. (R345) -/
  | alarmEntryRead (i : Fin 132)
  /-- 10 s pass without another record, the incident closes and is written to flash. (R349) -/
  | incidentClose
  /-- The Keeper forwards queued records to Ethernet by class priority and rate limit. (R348) -/
  | keeperForward
  /-- A PING frame returns status alone. (R353) -/
  | qspiPing (f : Frame)
  /-- A READ frame reads 1 to 256 words in per-block transactions. (R356) -/
  | qspiRead (f : Frame)
  /-- A WRITE frame writes words and answers after they complete. (R356) -/
  | qspiWrite (f : Frame)
  /-- A WRITEP frame places words in the posted buffer or is refused with FULL. (R357) -/
  | qspiWritep (f : Frame)
  /-- A FENCE frame requests a fence with requester code 0. (R353) -/
  | qspiFence (f : Frame)
  /-- A REPEAT frame returns the kept previous response. (R358) -/
  | qspiRepeat (f : Frame)
  /-- CS_N rises before the request CRC ends and the frame is discarded with ABORT set. (R358) -/
  | qspiAbort
  /-- A posted host word leaves the buffer and is written, reporting PREJ or UNMAPPED. (R357) -/
  | hostPostedDrain
  /-- A write of MB_CONSUME with a matching SEQ marks the result consumed, else CONSREJ. (R361) -/
  | mbConsume (ag : Agent) (w : Word)
  /-- The Keeper completes a command and the new result and SEQ become readable in READY. (R361) -/
  | mailboxComplete
  /-- A read of MB_STATE captures MB_RES0–MB_RES13 of the same result. (R360) -/
  | mbStateRead
  /-- A write of HP_IRQ_SET.SWI latches SWI with the writer's owner code. (R363) -/
  | hostSwi (ag : Agent) (w : Word)
  /-- A MAC receives a frame, stamps it and filters or discards it. (R365) -/
  | ethFrameReceived (port : Fin 2) (f : EthFrame)
  /-- A MAC sends a frame and stamps it, inserting the one-step originTimestamp. (R366) -/
  | ethFrameSent (port : Fin 2) (ptpEvent : Bool) (sync : Bool) (half : Bool)
  /-- The RGMII in-band status changes link, speed or duplex, setting LINKEV or SPDERR. (R365) -/
  | ethLinkChange (port : Fin 2) (link : Bool) (fdx : Bool) (speed : Fin 4)
  /-- A read of ETH_RXTS captures ETH_RXTS_SEC. (R369) -/
  | ethRxtsRead (port : Fin 2)
  /-- A read of ETH_TXTS captures ETH_TXTS_SEC. (R369) -/
  | ethTxtsRead (port : Fin 2)
  /-- At each heartbeat interval the Keeper sends an Enven HEARTBEAT. (R374) -/
  | heartbeatSend
  /-- A HEARTBEAT is received, its header taken and the group level recomputed. (R372) -/
  | envenHeartbeat (m : EnvenMsg)
  /-- An ALARM message with alarm records is received. (R371) -/
  | envenAlarm (m : EnvenMsg)
  /-- An EVENT message with event-class records is received. (R371) -/
  | envenEvent (m : EnvenMsg)
  /-- A TRACE message with trace-class records is received. (R371) -/
  | envenTrace (m : EnvenMsg)
  /-- A DATA message is received and its records are written to the reception queue. (R371) -/
  | envenData (m : EnvenMsg)
  /-- An ACTIVATE message schedules the activation if the image is held, and is acknowledged. (R397) -/
  | envenActivate (m : EnvenMsg)
  /-- A LEVEL message reports the group feature level a peer adopted. (R371) -/
  | envenLevel (m : EnvenMsg)
  /-- An ACK message acknowledges a message by SEQ. (R371) -/
  | envenAck (m : EnvenMsg)
  /-- Every 100 ms, up to 3 times, ACTIVATE is resent to peers that have not acknowledged. (R397) -/
  | activateResend
  /-- No HEARTBEAT for three intervals declares a peer lost with alarm 0x0F01. (R374) -/
  | peerLost (node : BitVec 16) (chip : Fin 4)
  /-- A higher group minimum held 30 s takes effect at the next TIME_SEC multiple of 10. (R399) -/
  | levelRise
  /-- HP_ALIVE.KCNT advances every 10 ms while the Keeper runs. (R364) -/
  | keeperAliveTick
  /-- Returns KS_LEVEL, KS_VERSION and the device UID. (R380) -/
  | info (ag : Agent) (seq : BitVec 8) (narg : BitVec 4)
  /-- Requests a change of power mode, refused or accepted under the mode rules. (R415) -/
  | setMode (ag : Agent) (seq : BitVec 8) (narg : BitVec 4)
  /-- Holds the device at BEACON, or releases it to run stage 7. (R411) -/
  | holdBeacon (ag : Agent) (seq : BitVec 8) (narg : BitVec 4)
  /-- Checks and writes the BEACON settings from the pool to flash. (R414) -/
  | beaconSet (ag : Agent) (seq : BitVec 8) (narg : BitVec 4)
  /-- Writes TIME_CFG on the host's behalf to set the SYNC role. (R52) -/
  | timeRole (ag : Agent) (seq : BitVec 8) (narg : BitVec 4)
  /-- Writes SLEW_LIMIT and SLEW_RATE on the host's behalf. (R380) -/
  | timeSlew (ag : Agent) (seq : BitVec 8) (narg : BitVec 4)
  /-- Configures the PTP domain, ports, profile and intervals. (R380) -/
  | ptpSet (ag : Agent) (seq : BitVec 8) (narg : BitVec 4)
  /-- Writes a MAC's configuration, address and latencies. (R380) -/
  | ethSet (ag : Agent) (seq : BitVec 8) (narg : BitVec 4)
  /-- Sets a port's IPv4 address, mask and gateway. (R380) -/
  | ipSet (ag : Agent) (seq : BitVec 8) (narg : BitVec 4)
  /-- Configures group, node, port, multicast, heartbeat and DATA queues. (R380) -/
  | envenSet (ag : Agent) (seq : BitVec 8) (narg : BitVec 4)
  /-- Sets the trace bandwidth cap. (R380) -/
  | traceCap (ag : Agent) (seq : BitVec 8) (narg : BitVec 4)
  /-- Sets a sensor's thresholds within their ranges. (R384) -/
  | sensorSet (ag : Agent) (seq : BitVec 8) (narg : BitVec 4)
  /-- Reads the applied Lens bank and writes its record to flash. (R387) -/
  | lensSave (ag : Agent) (seq : BitVec 8) (narg : BitVec 4)
  /-- Checks a Lens record in flash and copies it to the pool. (R387) -/
  | lensLoad (ag : Agent) (seq : BitVec 8) (narg : BitVec 4)
  /-- Returns the count and range of stored incidents. (R380) -/
  | logInfo (ag : Agent) (seq : BitVec 8) (narg : BitVec 4)
  /-- Copies one incident from flash to the pool. (R388) -/
  | logRead (ag : Agent) (seq : BitVec 8) (narg : BitVec 4)
  /-- Erases the incident log under the LOGERASE grant. (R388) -/
  | logErase (ag : Agent) (seq : BitVec 8) (narg : BitVec 4)
  /-- Erases the inactive slot and starts writing an image. (R393) -/
  | tndBegin (ag : Agent) (seq : BitVec 8) (narg : BitVec 4)
  /-- Writes and reads back a block of image data. (R393) -/
  | tndWrite (ag : Agent) (seq : BitVec 8) (narg : BitVec 4)
  /-- Applies the image checks and marks the slot VALID or FAILED. (R392) -/
  | tndVerify (ag : Agent) (seq : BitVec 8) (narg : BitVec 4)
  /-- Schedules activation of the inactive slot at a network time. (R394) -/
  | tndSchedule (ag : Agent) (seq : BitVec 8) (narg : BitVec 4)
  /-- Cancels a scheduled activation. (R394) -/
  | tndCancel (ag : Agent) (seq : BitVec 8) (narg : BitVec 4)
  /-- Confirms the trial image as ACTIVE and hands kept engines to the host. (R396) -/
  | tndConfirm (ag : Agent) (seq : BitVec 8) (narg : BitVec 4)
  /-- Returns slot states and the last Tender results. (R380) -/
  | tndStatus (ag : Agent) (seq : BitVec 8) (narg : BitVec 4)
  /-- Activates the other VALID slot at once. (R395) -/
  | tndSwitch (ag : Agent) (seq : BitVec 8) (narg : BitVec 4)
  /-- Permanently fuses a public-key hash into an empty key slot. (R391) -/
  | keyFuse (ag : Agent) (seq : BitVec 8) (narg : BitVec 4)
  /-- Permanently revokes a fused key slot. (R391) -/
  | keyRevoke (ag : Agent) (seq : BitVec 8) (narg : BitVec 4)
  /-- Returns a fresh nonce for debug authentication. (R402) -/
  | dbgChallenge (ag : Agent) (seq : BitVec 8) (narg : BitVec 4)
  /-- Verifies a signed response and grants the named debug rights. (R402) -/
  | dbgResponse (ag : Agent) (seq : BitVec 8) (narg : BitVec 4)
  /-- Withdraws every debug right not granted by the strap. (R401) -/
  | dbgLock (ag : Agent) (seq : BitVec 8) (narg : BitVec 4)
  /-- The duration of a debug grant ends and its rights are withdrawn. (R401) -/
  | debugGrantExpiry
  /-- 60 s after three failures DBG_CHALLENGE is served again. (R402) -/
  | dbgLockoutEnd
  /-- Once the scheduled target lies within 1 s Tender arms its ACTIVATE slot or reports LATE. (R394) -/
  | tenderArm
  /-- Every 10 s the remaining trial time is saved in the boot record. (R393) -/
  | trialSave
  /-- KS_TRIAL reaches 0 and the device rolls back to the previous slot. (R393) -/
  | trialExpiry
  /-- Every millisecond the Keeper samples every sensor. (R384) -/
  | sensorSample (r : Readings)
  /-- After 3 consecutive samples beyond or back within a threshold a condition starts or ends. (R384) -/
  | sensorConditionChange (c : SensorCond)
  /-- A read of SNS_TIME captures the sensor values of the same sample. (R385) -/
  | sensorTimeRead
  /-- VIN rises above 5.6 V and bring-up stage 1 starts the AON domain. (R405) -/
  | vinRise (mv : Nat)
  /-- VIN below 5.3 V or a rail below 90 % for 10 µs takes outputs unpowered and stops the bucks. (R405) -/
  | brownout (mv : Nat)
  /-- RESET_N held low keeps the device at stage 1 with both bucks off. (R405) -/
  | resetNAssert
  /-- RESET_N rises, DBG_EN is sampled and bring-up proceeds. (R401) -/
  | resetNRelease (dbgEn : Bool)
  /-- VCORE stays within ±3 % for 20 µs, ending stage 2 and starting the PLL. (R405) -/
  | powerGood
  /-- The PLL locks to REFCLK and the Keeper ROM boot starts. (R408) -/
  | pllLocked
  /-- Loss of lock or absent REFCLK is graded FATAL. (R408) -/
  | pllLockLost
  /-- The AON domain changes from its RC oscillator to the 32.768 kHz crystal. (R409) -/
  | aonXtalSwitch
  /-- Keeper ROM boot, SRAM self-test and fuse read complete, ending stage 4. (R410) -/
  | romBootDone
  /-- BEACON service starts and the Keeper hands blocks to the host under R22. (R413) -/
  | beaconServiceStart
  /-- The active slot is verified and the Keeper firmware starts, ending stage 6. (R410) -/
  | firmwareStarted
  /-- CONFIG is applied, engines loaded and started, INITMODE entered and engines handed over. (R412) -/
  | bringupStage7
  /-- A requested mode transition completes and the new mode is in force. (R416) -/
  | modeEntered
  /-- 2 ms after SET_MODE OK the device enters DORMANT, stopping fast clocks. (R419) -/
  | dormantEntry
  /-- A falling CS_N in DORMANT wakes the device, discarding the frame. (R421) -/
  | hostWake
  /-- The device leaves DORMANT to WAKEMODE, resuming time, resetting acquisition and unpausing engines. (R422) -/
  | dormantWake
  /-- An uncorrectable interconnect check error raises BUSERR as 0x0110. (R427) -/
  | regionBusError (e : BusError)
  /-- An ordinary requester waiting beyond the R16 bound raises STARVE as 0x0111. (R427) -/
  | regionStarve (r : Region)
  /-- EC_CMD.FORCEFATAL with the key raises FATAL 0x1004. (R444) -/
  | forceFatal (ag : Agent) (w : Word)
  /-- EC_CMD.RRESET isolates a region and resets its registers. (R434) -/
  | regionResetRequest (ag : Agent) (w : Word)
  /-- The region returns to service, RSTDONE is set and 0x0112 raised. (R434) -/
  | regionResetDone (r : Region)
  /-- A low SAFE_N takes the outputs to the chip safe state and the axes to FB_SAFE. (R432) -/
  | safeNAssert
  /-- SAFE_N high for 1 µs ends the safe state unless FATAL is latched. (R432) -/
  | safeNRelease
  /-- A falling FREEZE_N with the FREEZE right freezes the device, else FRZREJ. (R436) -/
  | freezePin
  /-- FREEZE_N rising ends a pin-held freeze. (R436) -/
  | freezePinRelease
  /-- EC_FRZCMD.GO begins a software freeze with its timeout. (R436) -/
  | freezeCmd (ag : Agent) (w : Word)
  /-- The software freeze TIMEOUT expires on the AON clock and the device unfreezes. (R436) -/
  | freezeTimeout
  /-- DAP_CTRL.UNFREEZE ends the freeze; clocks restart and time resumes with DISC. (R440) -/
  | dapUnfreeze (w : Word)
  /-- A DAP_DATA capture reads the word at DAP_ADDR of the frozen device. (R439) -/
  | dapRead (addr : Option Word)
  /-- Drives balls from the boundary register while RESET_N is low. (R459) -/
  | extest (cells : BitVec 513)
  /-- Selects the IDCODE register. (R458) -/
  | idcode
  /-- Samples the balls and preloads the boundary register. (R458) -/
  | samplePreload (sampled : BitVec 513) (cells : BitVec 513)
  /-- Holds ball states from the boundary register while RESET_N is low. (R459) -/
  | clamp
  /-- Holds every ball of the chain high-impedance. (R459) -/
  | highz
  /-- Selects the one-bit bypass register. (R458) -/
  | bypass
  /-- EVC_CMD.SNAPALL copies every counter and records TIME_NS. (R443) -/
  | evcSnapall (ag : Agent) (w : Word)
  /-- EVC_CMD.CLRALL clears every event counter. (R445) -/
  | evcClrall (ag : Agent) (w : Word)
  /-- EVCn_CFG.CLR clears one counter. (R445) -/
  | evcClr (ag : Agent) (n : Fin 32) (w : Word)
  /-- A read of EVCn_LO captures the upper count into EVCn_HI. (R443) -/
  | evcLoRead (n : Fin 32)
  /-- A counter wraps modulo 2^48 and sets its EVC_OVF bit. (R441) -/
  | evcWrap (n : Fin 32)
  /-- While a port cell drives, its receiver reads a level that differs from the driven level for 16 consecutive 2.5 ns samples, and the cell fault sets BLK_ERR.CELL of the cell. (R425) -/
  | portCellDriveMismatch (n : Fin 64)
  /-- SNS_STATUS.STALE is set once the newest sensor sample is more than 5 ms old. (R384) -/
  | sensorStale
  /-- After 1 s in ON without a limit event, an analogue output's count of consecutive retries returns to 0, as R85 requires through R92. (R92) -/
  | aoRetryClear (n : Fin 8)
  /-- HP_ALIVE.MS advances at each whole millisecond of TIME_SUB. (R364) -/
  | aliveMsAdvance
  deriving DecidableEq, Repr

end Sys2Proof
end

