-- ==== Sys2Proof/Decode.lean ====
section
/-!
DEFINITION. The command a word spells by the opcode table's bits, and the words of the Jarharus instructions that an engine
fetches from its instruction RAM (R295–R297): the decoder, total on any word, and the encoder beside it.
-/

namespace Sys2Proof

open Machine

/-- No row of the table gives bits: no word spells a command. -/
def decodeTableWord (_nbits _w : Nat) : Option Instr := none

/-! ### Fields of an instruction word (R296) -/

def reg5 (n lo : Nat) : Fin 32 := ⟨n / 2 ^ lo % 32, Nat.mod_lt _ (by decide)⟩
def reg4 (n lo : Nat) : Fin 16 := ⟨n / 2 ^ lo % 16, Nat.mod_lt _ (by decide)⟩
def reg3 (n lo : Nat) : Fin 8 := ⟨n / 2 ^ lo % 8, Nat.mod_lt _ (by decide)⟩
def reg2 (n lo : Nat) : Fin 4 := ⟨n / 2 ^ lo % 4, Nat.mod_lt _ (by decide)⟩
def num6 (n lo : Nat) : Fin 64 := ⟨n / 2 ^ lo % 64, Nat.mod_lt _ (by decide)⟩
def num12 (n lo : Nat) : Fin 4096 := ⟨n / 2 ^ lo % 4096, Nat.mod_lt _ (by decide)⟩
def num14 (n lo : Nat) : Fin 16384 := ⟨n / 2 ^ lo % 16384, Nat.mod_lt _ (by decide)⟩
def bit1 (n i : Nat) : Bool := n / 2 ^ i % 2 == 1
def imm16 (n : Nat) : BitVec 16 := BitVec.ofNat 16 n

/-- The bits `[hi:lo]` are 0. -/
def zero (n hi lo : Nat) : Bool := bits n hi lo == 0

/-- Operand types of a multiplication (R305). -/
def mulMode : Nat → Option MulMode
  | 0 => some .ss | 1 => some .su | 2 => some .uu | _ => none

def MulMode.num : MulMode → Nat
  | .ss => 0 | .su => 1 | .uu => 2

/-- Memory space of a load or store (R309). -/
def space : Nat → Option Space
  | 0 => some .d | 1 => some .x | 2 => some .c | _ => none

def Space.num : Space → Nat
  | .d => 0 | .x => 1 | .c => 2

/-- Operation of SHI (R301). -/
def shiftKind : Nat → ShiftKind
  | 0 => .shl | 1 => .shr | 2 => .asr | _ => .ror

def ShiftKind.num : ShiftKind → Nat
  | .shl => 0 | .shr => 1 | .asr => 2 | .ror => 3

/-! ### The decoder -/

/-- Opcode 0x01 (R300). -/
def decodeAlu (k : Fin 8) (n : Nat) : Option Instr :=
  let d := reg5 n 21
  let a := reg5 n 16
  let b := reg5 n 11
  if !zero n 10 6 then none
  else match bits n 5 0 with
  | 0x00 => some (.add_ k d a b)
  | 0x01 => some (.addc k d a b)
  | 0x02 => some (.sub_ k d a b)
  | 0x03 => some (.subc k d a b)
  | 0x04 => some (.and_ k d a b)
  | 0x05 => some (.or_ k d a b)
  | 0x06 => some (.xor_ k d a b)
  | 0x07 => some (.andn k d a b)
  | 0x08 => some (.shl k d a b)
  | 0x09 => some (.shr k d a b)
  | 0x0A => some (.asr k d a b)
  | 0x0B => some (.ror k d a b)
  | 0x0C => some (.min_ k d a b)
  | 0x0D => some (.max_ k d a b)
  | 0x0E => some (.minu k d a b)
  | 0x0F => some (.maxu k d a b)
  | 0x10 => if b = 0 then some (.abs_ k d a) else none
  | 0x11 => if b = 0 then some (.neg_ k d a) else none
  | 0x12 => if b = 0 then some (.clz k d a) else none
  | 0x14 => if d = 0 then some (.cmp k a b) else none
  | 0x15 => if d = 0 then some (.tcmp k a b) else none
  | 0x16 => some (.adds k d a b)
  | 0x17 => some (.subs k d a b)
  | _ => none

/-- Opcodes 0x02 to 0x09 (R301). -/
def decodeImm (k : Fin 8) (op n : Nat) : Option Instr :=
  let d := reg5 n 21
  let a := reg5 n 16
  let i := imm16 n
  match op with
  | 0x02 => some (.addi k d a i)
  | 0x03 => some (.andi k d a i)
  | 0x04 => some (.ori k d a i)
  | 0x05 => some (.xori k d a i)
  | 0x06 => if zero n 13 5 then some (.shi k d a (shiftKind (bits n 15 14)) (reg5 n 0)) else none
  | 0x07 => if d = 0 then some (.cmpi k a i) else none
  | 0x08 => if a = 0 then some (.movi k d i) else none
  | 0x09 => if a = 0 then some (.movhi k d i) else none
  | _ => none

/-- Opcode 0x0A (R302). -/
def decodeMul (k : Fin 8) (n : Nat) : Option Instr :=
  let d := reg5 n 21
  let a := reg5 n 16
  let b := reg5 n 11
  if !zero n 10 6 then none
  else match bits n 5 0 with
  | 0 => some (.mul_ k d a b)
  | 1 => some (.mulh k d a b)
  | 2 => some (.mulhu k d a b)
  | 3 => some (.mulr k d a b)
  | _ => none

/-- Opcode 0x0C (R304); b is 0, and the upper bits of a field that names P, L or K are 0. -/
def decodeMove (k : Fin 8) (n : Nat) : Option Instr :=
  let d := reg5 n 21
  let a := reg5 n 16
  if !zero n 15 6 then none
  else match bits n 5 0 with
  | 0 => if zero n 25 24 then some (.mvp k (reg3 n 21) a) else none
  | 1 => if zero n 25 24 then some (.mvl k (reg3 n 21) a) else none
  | 2 => if zero n 25 24 then some (.mvk k (reg3 n 21) a) else none
  | 3 => if zero n 20 19 then some (.mpv k d (reg3 n 16)) else none
  | 4 => if zero n 20 19 then some (.mlv k d (reg3 n 16)) else none
  | 5 => if zero n 20 19 then some (.mkv k d (reg3 n 16)) else none
  | 6 => some (.mvs k d a)
  | 7 => some (.msv k d a)
  | _ => none

/-- Opcode 0x10 (R305). -/
def decodeMac (k : Fin 8) (n : Nat) : Option Instr :=
  let acc := reg2 n 24
  let a := reg5 n 19
  let b := reg5 n 14
  if !zero n 11 6 then none
  else match mulMode (bits n 13 12), bits n 5 0 with
  | some m, 0 => some (.mpy k acc a b m)
  | some m, 1 => some (.mac k acc a b m)
  | some m, 2 => some (.msu k acc a b m)
  | _, _ => none

/-- Opcode 0x11 (R306). -/
def decodeMacd (k : Fin 8) (n : Nat) : Option Instr :=
  if !zero n 12 0 then none
  else match mulMode (bits n 14 13) with
  | some m => some (.macd k (reg2 n 24) (reg3 n 21) (reg3 n 18) (bit1 n 17) (bit1 n 16) (bit1 n 15) m)
  | none => none

/-- Opcode 0x12 (R307). -/
def decodeAcc (k : Fin 8) (n : Nat) : Option Instr :=
  let acc := reg2 n 24
  if !zero n 13 12 then none
  else match bits n 5 0 with
  | 0 => if zero n 23 6 then some (.aclr k acc) else none
  | 1 => if zero n 18 14 then some (.ald k acc (reg5 n 19) (num6 n 6)) else none
  | 2 => if zero n 23 16 && zero n 11 6 then some (.aadd k acc (reg2 n 14)) else none
  | 3 => if zero n 23 16 && zero n 11 6 then some (.asub k acc (reg2 n 14)) else none
  | 4 => if zero n 23 14 then some (.rnd k acc (num6 n 6)) else none
  | _ => none

/-- Opcode 0x13 (R308). -/
def decodeAccMove (k : Fin 8) (n : Nat) : Option Instr :=
  let acc := reg2 n 24
  let d := reg5 n 19
  if !zero n 18 12 then none
  else match bits n 5 0 with
  | 0 => some (.mvr k acc d (num6 n 6))
  | 1 => some (.mvt k acc d (num6 n 6))
  | 2 => some (.mva k acc d (num6 n 6))
  | _ => none

/-- Opcodes 0x18 to 0x1F (R309, R310). -/
def decodeMem (k : Fin 8) (op n : Nat) : Option Instr :=
  let r := reg5 n 21
  let p := reg3 n 18
  let post := bit1 n 15
  if !zero n 14 0 then none
  else match op with
  | 0x1E => some (.crb k r p (reg2 n 16) post)
  | 0x1F => some (.cwb k r p (reg2 n 16) post)
  | _ =>
    match space (bits n 17 16), op with
    | some sp, 0x18 => some (.ld k r p sp post)
    | some sp, 0x19 => some (.st k r p sp post)
    | some sp, 0x1A => some (.ldp k r p sp post)
    | some sp, 0x1B => some (.stp k r p sp post)
    | some sp, 0x1C => some (.lda k r p sp post)
    | some sp, 0x1D => some (.sta k r p sp post)
    | _, _ => none

/-- Opcodes 0x20 to 0x24 (R311). -/
def decodeBranch (k : Fin 8) (op n : Nat) : Option Instr :=
  let c := reg4 n 22
  if !(zero n 21 21 && zero n 15 14) then none
  else match op with
  | 0x20 => if zero n 20 16 then some (.b_ k c (num14 n 0)) else none
  | 0x21 => if zero n 13 0 then some (.br k c (reg5 n 16)) else none
  | 0x22 => if zero n 20 16 then some (.call k c (num14 n 0)) else none
  | 0x23 => if zero n 13 0 then some (.callr k c (reg5 n 16)) else none
  | 0x24 => if zero n 20 16 && zero n 13 0 then some (.ret k c) else none
  | _ => none

/-- Opcodes 0x26 and 0x27 (R312). -/
def decodeLoop (k : Fin 8) (op n : Nat) : Option Instr :=
  match op with
  | 0x26 => some (.loop_ k (num14 n 12) (num12 n 0))
  | 0x27 => if zero n 11 5 then some (.loopReg k (num14 n 12) (reg5 n 0)) else none
  | _ => none

/-- Opcodes 0x28 to 0x2A (R313, R314). -/
def decodeTime (k : Fin 8) (op n : Nat) : Option Instr :=
  match op with
  | 0x28 =>
    if !zero n 20 1 then none
    else if bit1 n 0 then some (.tnowe k (reg5 n 21)) else some (.tnow k (reg5 n 21))
  | 0x29 => if zero n 14 0 then some (.tarm k (num6 n 20) (reg5 n 15)) else none
  | 0x2A => if zero n 19 0 then some (.tdis k (num6 n 20)) else none
  | _ => none

/-- Opcodes 0x2C to 0x2F (R316, R317). -/
def decodeQueue (k : Fin 8) (op n : Nat) : Option Instr :=
  let q := reg4 n 22
  match op with
  | 0x2C => if zero n 18 0 then some (.qw k q (reg3 n 19)) else none
  | 0x2D => if zero n 18 0 then some (.qr k q (reg3 n 19)) else none
  | 0x2E => if zero n 16 0 then some (.ql k q (reg5 n 17)) else none
  | 0x2F => if zero n 25 21 && zero n 10 0 then some (.fence k (reg5 n 16) (reg5 n 11)) else none
  | _ => none

/-- Opcodes 0x30 to 0x33 (R318, R319). -/
def decodeControl (k : Fin 8) (op n : Nat) : Option Instr :=
  match op with
  | 0x30 =>
    if zero n 3 0 then
      some (.wait_ k (BitVec.ofNat 4 (bits n 25 22)) (reg5 n 17) (reg5 n 12) (reg4 n 8) (reg4 n 4))
    else none
  | 0x31 => if zero n 25 0 then some (.rtf k) else none
  | 0x32 => if zero n 25 0 then some (.halt k) else none
  | 0x33 => if zero n 25 6 then some (.clrf k (BitVec.ofNat 6 n)) else none
  | _ => none

/-- The instruction of engine k that a word stands for; none where R295 makes it no instruction by its form. -/
def decodeWord (k : Fin 8) (n : Nat) : Option Instr :=
  let op := bits n 31 26
  if op = 0 then (if zero n 25 0 then some (.nop k) else none)
  else if op = 0x01 then decodeAlu k n
  else if op ≤ 0x09 then decodeImm k op n
  else if op = 0x0A then decodeMul k n
  else if op = 0x0C then decodeMove k n
  else if op = 0x10 then decodeMac k n
  else if op = 0x11 then decodeMacd k n
  else if op = 0x12 then decodeAcc k n
  else if op = 0x13 then decodeAccMove k n
  else if 0x18 ≤ op ∧ op ≤ 0x1F then decodeMem k op n
  else if 0x20 ≤ op ∧ op ≤ 0x24 then decodeBranch k op n
  else if op = 0x26 ∨ op = 0x27 then decodeLoop k op n
  else if 0x28 ≤ op ∧ op ≤ 0x2A then decodeTime k op n
  else if 0x2C ≤ op ∧ op ≤ 0x2F then decodeQueue k op n
  else if 0x30 ≤ op ∧ op ≤ 0x33 then decodeControl k op n
  else none

/-- The instruction an engine executes for a word of its instruction RAM (R295): a word that is none faults with ILLOP. -/
def decodeJar (k : Fin 8) (w : Word) : Instr := (decodeWord k w.toNat).getD (.illop k w)

/-! ### The encoder (R296) -/

def fmtR (op d a b f : Nat) : Nat := op * 2 ^ 26 + d * 2 ^ 21 + a * 2 ^ 16 + b * 2 ^ 11 + f
def fmtI (op d a i : Nat) : Nat := op * 2 ^ 26 + d * 2 ^ 21 + a * 2 ^ 16 + i
def fmtA (op acc ra rb mode imm f : Nat) : Nat :=
  op * 2 ^ 26 + acc * 2 ^ 24 + ra * 2 ^ 19 + rb * 2 ^ 14 + mode * 2 ^ 12 + imm * 2 ^ 6 + f
def fmtM (op r p sp post : Nat) : Nat := op * 2 ^ 26 + r * 2 ^ 21 + p * 2 ^ 18 + sp * 2 ^ 16 + post * 2 ^ 15
def fmtB (op c a t : Nat) : Nat := op * 2 ^ 26 + c * 2 ^ 22 + a * 2 ^ 16 + t
def fmtL (op fin c : Nat) : Nat := op * 2 ^ 26 + fin * 2 ^ 12 + c

/-- The word of a Jarharus instruction as a number; none for the other commands. -/
def encodeNat : Instr → Option Nat
  | .nop _ => some 0
  | .add_ _ d a b => some (fmtR 0x01 d a b 0x00)
  | .addc _ d a b => some (fmtR 0x01 d a b 0x01)
  | .sub_ _ d a b => some (fmtR 0x01 d a b 0x02)
  | .subc _ d a b => some (fmtR 0x01 d a b 0x03)
  | .and_ _ d a b => some (fmtR 0x01 d a b 0x04)
  | .or_ _ d a b => some (fmtR 0x01 d a b 0x05)
  | .xor_ _ d a b => some (fmtR 0x01 d a b 0x06)
  | .andn _ d a b => some (fmtR 0x01 d a b 0x07)
  | .shl _ d a b => some (fmtR 0x01 d a b 0x08)
  | .shr _ d a b => some (fmtR 0x01 d a b 0x09)
  | .asr _ d a b => some (fmtR 0x01 d a b 0x0A)
  | .ror _ d a b => some (fmtR 0x01 d a b 0x0B)
  | .min_ _ d a b => some (fmtR 0x01 d a b 0x0C)
  | .max_ _ d a b => some (fmtR 0x01 d a b 0x0D)
  | .minu _ d a b => some (fmtR 0x01 d a b 0x0E)
  | .maxu _ d a b => some (fmtR 0x01 d a b 0x0F)
  | .adds _ d a b => some (fmtR 0x01 d a b 0x16)
  | .subs _ d a b => some (fmtR 0x01 d a b 0x17)
  | .abs_ _ d a => some (fmtR 0x01 d a 0 0x10)
  | .neg_ _ d a => some (fmtR 0x01 d a 0 0x11)
  | .clz _ d a => some (fmtR 0x01 d a 0 0x12)
  | .cmp _ a b => some (fmtR 0x01 0 a b 0x14)
  | .tcmp _ a b => some (fmtR 0x01 0 a b 0x15)
  | .addi _ d a i => some (fmtI 0x02 d a i.toNat)
  | .andi _ d a i => some (fmtI 0x03 d a i.toNat)
  | .ori _ d a i => some (fmtI 0x04 d a i.toNat)
  | .xori _ d a i => some (fmtI 0x05 d a i.toNat)
  | .shi _ d a kind amt => some (fmtI 0x06 d a (kind.num * 2 ^ 14 + amt))
  | .cmpi _ a i => some (fmtI 0x07 0 a i.toNat)
  | .movi _ d i => some (fmtI 0x08 d 0 i.toNat)
  | .movhi _ d i => some (fmtI 0x09 d 0 i.toNat)
  | .mul_ _ d a b => some (fmtR 0x0A d a b 0)
  | .mulh _ d a b => some (fmtR 0x0A d a b 1)
  | .mulhu _ d a b => some (fmtR 0x0A d a b 2)
  | .mulr _ d a b => some (fmtR 0x0A d a b 3)
  | .mvp _ d a => some (fmtR 0x0C d a 0 0)
  | .mvl _ d a => some (fmtR 0x0C d a 0 1)
  | .mvk _ d a => some (fmtR 0x0C d a 0 2)
  | .mpv _ d a => some (fmtR 0x0C d a 0 3)
  | .mlv _ d a => some (fmtR 0x0C d a 0 4)
  | .mkv _ d a => some (fmtR 0x0C d a 0 5)
  | .mvs _ d a => some (fmtR 0x0C d a 0 6)
  | .msv _ d a => some (fmtR 0x0C d a 0 7)
  | .mpy _ acc a b m => some (fmtA 0x10 acc a b m.num 0 0)
  | .mac _ acc a b m => some (fmtA 0x10 acc a b m.num 0 1)
  | .msu _ acc a b m => some (fmtA 0x10 acc a b m.num 0 2)
  | .macd _ acc pi pj mi mj sub m => some (0x11 * 2 ^ 26 + acc * 2 ^ 24 + pi * 2 ^ 21 + pj * 2 ^ 18 + bitOf mi * 2 ^ 17
      + bitOf mj * 2 ^ 16 + bitOf sub * 2 ^ 15 + m.num * 2 ^ 13)
  | .aclr _ acc => some (fmtA 0x12 acc 0 0 0 0 0)
  | .ald _ acc a sh => some (fmtA 0x12 acc a 0 0 sh 1)
  | .aadd _ acc b => some (fmtA 0x12 acc 0 b 0 0 2)
  | .asub _ acc b => some (fmtA 0x12 acc 0 b 0 0 3)
  | .rnd _ acc pos => some (fmtA 0x12 acc 0 0 0 pos 4)
  | .mvr _ acc d sh => some (fmtA 0x13 acc d 0 0 sh 0)
  | .mvt _ acc d sh => some (fmtA 0x13 acc d 0 0 sh 1)
  | .mva _ acc d part => some (fmtA 0x13 acc d 0 0 part 2)
  | .ld _ r p sp post => some (fmtM 0x18 r p sp.num (bitOf post))
  | .st _ r p sp post => some (fmtM 0x19 r p sp.num (bitOf post))
  | .ldp _ r p sp post => some (fmtM 0x1A r p sp.num (bitOf post))
  | .stp _ r p sp post => some (fmtM 0x1B r p sp.num (bitOf post))
  | .lda _ r p sp post => some (fmtM 0x1C r p sp.num (bitOf post))
  | .sta _ r p sp post => some (fmtM 0x1D r p sp.num (bitOf post))
  | .crb _ r p n post => some (fmtM 0x1E r p n (bitOf post))
  | .cwb _ r p n post => some (fmtM 0x1F r p n (bitOf post))
  | .b_ _ c t => some (fmtB 0x20 c 0 t)
  | .br _ c a => some (fmtB 0x21 c a 0)
  | .call _ c t => some (fmtB 0x22 c 0 t)
  | .callr _ c a => some (fmtB 0x23 c a 0)
  | .ret _ c => some (fmtB 0x24 c 0 0)
  | .loop_ _ fin c => some (fmtL 0x26 fin c)
  | .loopReg _ fin c => some (fmtL 0x27 fin c)
  | .tnow _ d => some (0x28 * 2 ^ 26 + d * 2 ^ 21)
  | .tnowe _ d => some (0x28 * 2 ^ 26 + d * 2 ^ 21 + 1)
  | .tarm _ slot t => some (0x29 * 2 ^ 26 + slot * 2 ^ 20 + t * 2 ^ 15)
  | .tdis _ slot => some (0x2A * 2 ^ 26 + slot * 2 ^ 20)
  | .qw _ q quad => some (0x2C * 2 ^ 26 + q * 2 ^ 22 + quad * 2 ^ 19)
  | .qr _ q quad => some (0x2D * 2 ^ 26 + q * 2 ^ 22 + quad * 2 ^ 19)
  | .ql _ q d => some (0x2E * 2 ^ 26 + q * 2 ^ 22 + d * 2 ^ 17)
  | .fence _ a b => some (0x2F * 2 ^ 26 + a * 2 ^ 16 + b * 2 ^ 11)
  | .wait_ _ m t d q level => some (0x30 * 2 ^ 26 + m.toNat * 2 ^ 22 + t * 2 ^ 17 + d * 2 ^ 12 + q * 2 ^ 8 + level * 2 ^ 4)
  | .rtf _ => some (0x31 * 2 ^ 26)
  | .halt _ => some (0x32 * 2 ^ 26)
  | .clrf _ m => some (0x33 * 2 ^ 26 + m.toNat)
  | _ => none

/-- The word of a Jarharus instruction; the engine is no part of it. None for the other commands. -/
def encodeJar (i : Instr) : Option Word := (encodeNat i).map (BitVec.ofNat 32)

end Sys2Proof
end

