-- ==== Sys2Proof/Config.lean ====
section
/-!
DEFINITION. What an implementation fixes and the spec leaves open: uninterpreted constants without a body, so that no
proof can lean on a value the spec does not state. Each is named in the assumption log.
-/

namespace Sys2Proof.Config

/-- A value the spec leaves undefined, fresh for every count it is applied to (log 1). -/
opaque freeValue : Nat → Nat

/-- INCR that a SYNC follower sets from its present INCR and a measured offset in half ns (R55, log 32). -/
opaque followerIncr : Nat → Int → Nat

/-- The next state of the 23-bit dither LFSR of a shaper, whose polynomial the spec does not give (R75, log 20). -/
opaque lfsrNext : BitVec 23 → BitVec 23

/-- The dither that a LFSR state gives a PWM pin, as a 14-bit fraction of a core cycle offset by one half: each leg has its own
(R75, log 20). -/
opaque dither : Fin 40 → BitVec 23 → BitVec 14

/-- Whether a duty that UQ10.14 cannot hold is rounded up: by the amplitude, VEXC and the sine sample (R74, log 41). -/
opaque dutyUp : Nat → Nat → Rat → Bool

/-- Whether a ramp code that is no whole number is rounded up (R91, log 41). -/
opaque rampUp : Rat → Bool

/-- Which bit of the PRBS register is its output (R252, log 46). -/
opaque prbsTap : Fin 15

/-- Whether a value that a loop stores with finite fractional bits is rounded up: the integrator, the initial ramp rate
(R232, R240, log 41). -/
opaque loopUp : Rat → Bool

/-- Factory gain trim of a modulator in 2^-24 (R103); the model holds it within ±2^-8. -/
opaque gainTrim : Fin 40 → Int

/-- Whether a value that a register or a hand-off cannot hold is rounded up, by place and value (log 51). -/
opaque roundsUp : Nat → Rat → Bool

/-- Whether an angle between two steps of 2^-48 turn is taken as the upper (R134, R139, log 52). -/
opaque angleUp : Int → Int → Bool

/-- Deviation of the converter's quotient from the exact one in units of its last place; the model holds it to the 2^-24 of
the result that R129 allows (log 53). -/
opaque quotientError : Rat → Int

/-- SHA-256 of bytes (FIPS 180-4), which the spec names and does not define (R389, R391, R402, log 91). -/
opaque sha256 : List Byte → BitVec 256

/-- ECDSA P-256 verification (FIPS 186-5): public key of 64 bytes, digest, signature of 64 bytes (R391, R402, log 91). -/
opaque p256Verify : List Byte → BitVec 256 → List Byte → Bool

/-- The same with a key known by its SHA-256 alone, as a key slot holds it: the spec does not say how the key itself is found
(R402, log 91). -/
opaque p256VerifyHash : BitVec 256 → BitVec 256 → List Byte → Bool

/-- A KEEPER section carries a valid signature by the Uhlentius key in ROM (R377, R390, log 91). -/
opaque uhlentiusVerify : List Byte → Bool

/-- Alarm records the Keeper's private path holds (R348, log 126). -/
opaque keeperPathLen : Nat

/-- The SRAM word an ECC error strikes in a fabric cycle, by its address: corrected, or uncorrectable with the word it then reads
as (R280, log 125). -/
opaque upset : Nat → Option (Nat × Option (BitVec 32))

/-- The level that the outside gives PTn_N of a cell in MODE 1 or 2, in a fabric cycle (R184, log 142). -/
opaque outsideN : Nat → Nat → Bool

/-- A lock lost in a fabric cycle is lost because REFCLK is absent (R408, log 153). -/
opaque refAbsent : Nat → Bool

/-- The enable, output and input cell of a ball in the boundary register (R458, log 148). -/
opaque scanEnable : Nat → Nat
opaque scanOutput : Nat → Nat
opaque scanInput : Nat → Nat

/-- Levels at a capture of the boundary register of the balls that the model does not hold, by the count of the free values
(R458, log 148). -/
opaque scanOther : Nat → BitVec 513

/-- An erase or a programming of the boot flash fails, and what then stands in the bytes programmed, by the count of the free
values (R379, log 5). -/
opaque flashFails : Nat → Bool
opaque flashLeft : Nat → Nat → Byte

/-- Another device pulls ALARM_N low in a fabric cycle (R444, log 156). -/
opaque alarmOutside : Nat → Bool

/-- The BLK_ERR bit of a posted word of the block's owner that names no register: OWN, or else RUNW (R357, log 145). -/
opaque postedUnmapped : Bool

/-- The 64-bit UID of the device (R380). -/
opaque uid : BitVec 64

end Sys2Proof.Config
end

