-- ==== Sys2Proof/Machine/Sine.lean ====
section
/-!
DEFINITION. Sine and cosine as the tables of the device hold them (R74, R107, R151): evaluated in integers of 2^-60 by
their power series, far below the rounding of any table.
-/

namespace Sys2Proof.Machine

/-- π / 2 in units of 2^-60. -/
def halfPi60 : Int := 1811004864519280711

/-- One term of a power series after another: `t ↦ -t x² / (k (k + 1))`, in units of 2^-60. -/
def sinTerms : Nat → Int → Int → Nat → Int
  | 0, _, _, _ => 0
  | fuel + 1, t, x2, k => t + sinTerms fuel (-(t * x2 / 2 ^ 60) / ((k * (k + 1) : Nat) : Int)) x2 (k + 2)

/-- sin x and cos x for x in 2^-60, |x| ≤ π / 2, in units of 2^-60. -/
def sin60 (x : Int) : Int := sinTerms 16 x (x * x / 2 ^ 60) 2
def cos60 (x : Int) : Int := sinTerms 16 (2 ^ 60) (x * x / 2 ^ 60) 1

/-- sin of `i / n` turn in units of 2^-60, by quadrant. -/
def sinTurn60 (i n : Nat) : Int :=
  let k := 4 * (i % n)
  let x : Int := halfPi60 * ((k % n : Nat) : Int) / (n : Int)
  match k / n with
  | 0 => sin60 x
  | 1 => cos60 x
  | 2 => -sin60 x
  | _ => -cos60 x

/-- sin of `i / n` turn rounded to `b` fractional bits, to nearest. -/
def sinTurn (b i n : Nat) : Int := roundEven (sinTurn60 i n) (2 ^ (60 - b))

/-- cos of `i / n` turn, likewise. -/
def cosTurn (b i n : Nat) : Int := roundEven (sinTurn60 (4 * i + n) (4 * n)) (2 ^ (60 - b))

/-- The largest number below 2^k that meets a falling test. -/
def bisect (p : Nat → Bool) : Nat → Nat → Nat
  | 0, a => a
  | k + 1, a => bisect p k (if p (a + 2 ^ k) then a + 2 ^ k else a)

/-- The angle of (x, y) in the first quadrant in 2^-48 turn, truncated. -/
def atanQuad (y x : Int) : Nat :=
  bisect (fun a => decide (sinTurn60 a (2 ^ 48) * x ≤ sinTurn60 (a + 2 ^ 46) (2 ^ 48) * y)) 46 0

/-- atan2(y, x) in 2^-48 turn, in [0, 2^48); which step is taken between two is not stated (log 52). -/
def atanTurn (y x : Int) : Nat :=
  let a := if 0 < x ∧ 0 ≤ y then atanQuad y x
    else if x ≤ 0 ∧ 0 < y then 2 ^ 46 + atanQuad (-x) y
    else if x < 0 ∧ y ≤ 0 then 2 ^ 47 + atanQuad (-y) (-x)
    else 3 * 2 ^ 46 + atanQuad x (-y)
  let exact := x == 0 || y == 0 || x == y || x == -y
  if !exact && Config.angleUp y x then (a + 1) % 2 ^ 48 else a

/-- arcsin of w / 2^16 in 2^-48 turn, truncated (R127). -/
def asinTurn (w : Nat) : Nat := bisect (fun a => decide (sinTurn60 a (2 ^ 48) ≤ (w : Int) * 2 ^ 44)) 46 0

/-- A value rounded to a whole number where the spec does not say which way (log 51). -/
def roundOpen (site : Nat) (x : Rat) : Int :=
  x.floor + (if decide ((x.floor : Rat) < x) && Config.roundsUp site x then 1 else 0)

/-- π and its inverse as far as the tables resolve them. -/
def pi60 : Rat := (2 * halfPi60 : Int) / (2 ^ 60 : Rat)

end Sys2Proof.Machine
end

