-- ==== Sys2Proof/Machine/RegMap.lean ====
section
/-!
DEFINITION. The register map (R7, R26, R375): every block, its base address and region, and every field of every
register with its access type, reset value and the values a write outside its range stores.
-/

namespace Sys2Proof.Machine

/-- The access types of R7. -/
inductive Acc where
  | rw | ro | w1c | wo | rwo | snap
  deriving DecidableEq, Repr

/-- What a write outside a field's range stores (R10). -/
inductive Rng where
  /-- every value is in range -/
  | any
  /-- the nearer limit is stored -/
  | nearest (lo hi : Nat)
  /-- a value from `n` on stores 0 -/
  | zeroFrom (n : Nat)
  /-- the source codes of R223: 0x11 to 0xFE store 0xFF -/
  | srcCode
  deriving DecidableEq, Repr

/-- One field of a register: its word's offset in the block, its bits, access type, range and reset value, which
may depend on the index of the block. -/
structure Fld where
  off : Nat
  hi  : Nat
  lo  : Nat
  acc : Acc
  rst : Nat → Nat := fun _ => 0
  rng : Rng := .any

/-- Number of bits of a field. -/
def Fld.width (f : Fld) : Nat := f.hi + 1 - f.lo

/-- The value a write of `v` to the field stores (R10). -/
def Fld.fit (f : Fld) (v : Nat) : Nat :=
  match f.rng with
  | .any => v
  | .nearest lo hi => if v < lo then lo else if hi < v then hi else v
  | .zeroFrom n => if n ≤ v then 0 else v
  | .srcCode => if 0x11 ≤ v then 0xFF else v

/-- Region number r of R444. -/
def regionNum : Region → Nat
  | .acquisition => 0 | .control => 1 | .port => 2 | .system => 3

/-- Region base, the source of its alarms (R427). -/
def regionBase : Region → Nat
  | .acquisition => 0x10000000 | .control => 0x20000000 | .port => 0x30000000 | .system => 0x40000000

/-- Index of a block among its kind (R375). -/
def blkIndex : Blk → Nat
  | .rc n => n | .lens n => n | .ai n => n | .lp n => n | .ax n => n | .rs n => n | .inj n => n | .le n => n | .q n => n
  | .pt n => n | .em n => n | .sec n => n | .ao n => n | .exg n => n | .lu n => n | .slot n => n | .eth n => n
  | .fe | .lpe | .cap | .qc | .lc | .chip | .time | .hp | .pwr | .mb | .evc | .ec | .sns => 0

/-- Base address of a block's header and registers (R375). The registers of an engine stand in its control area. -/
def blkBase : Blk → Nat
  | .rc n => 0x10000000 + 0x400 * n
  | .fe => 0x10010000
  | .lens n => 0x10020000 + 0x400 * n
  | .ai n => 0x10030000 + 0x100 * n
  | .lp n => 0x20000000 + 0x100 * n
  | .lpe => 0x20008000
  | .ax n => 0x20010000 + 0x100 * n
  | .rs n => 0x20020000 + 0x100 * n
  | .cap => 0x20030000
  | .inj n => 0x20030400 + 0x40 * n
  | .le n => 0x210F0000 + 0x100000 * n
  | .qc => 0x22000000
  | .q n => 0x22001000 + 0x100 * n
  | .pt n => 0x30000000 + 0x80 * n
  | .em n => 0x30010000 + 0x100 * n
  | .sec n => 0x30020000 + 0x20 * n
  | .ao n => 0x30030000 + 0x100 * n
  | .exg n => 0x30040000 + 0x100 * n
  | .lc => 0x30050000
  | .lu n => 0x30050400 + 0x20 * n
  | .chip => 0x40000000
  | .time => 0x40010000
  | .slot n => 0x40011000 + 0x40 * n
  | .eth n => 0x40020000 + 0x8000 * n
  | .hp => 0x40030000
  | .pwr => 0x40040000
  | .mb => 0x40050000
  | .evc => 0x40060000
  | .ec => 0x40070000
  | .sns => 0x40080000

/-- Region of a block (R14, R375). -/
def blkRegion : Blk → Region
  | .rc _ | .fe | .lens _ | .ai _ => .acquisition
  | .lp _ | .lpe | .ax _ | .rs _ | .cap | .inj _ | .le _ | .qc | .q _ => .control
  | .pt _ | .em _ | .sec _ | .ao _ | .exg _ | .lc | .lu _ => .port
  | .chip | .time | .slot _ | .eth _ | .hp | .pwr | .mb | .evc | .ec | .sns => .system

/-- The blocks of R23, whose owner is fixed and which cannot be isolated (R27). -/
def blkFixed : Blk → Bool
  | .chip | .hp | .mb | .ec | .time | .eth _ | .pwr | .sns => true
  | _ => false

/-- Reset owner code (R22, R23, R26): 0 in the blocks fixed to the host, 9 elsewhere. -/
def resetOwner : Blk → Nat
  | .chip | .hp | .mb | .ec => 0
  | _ => 9

/-- Reset configuration of the queues (R323). -/
def queueMask (q : Nat) : Nat :=
  match q with
  | 0 => 0x001
  | 1 => 0x3FE
  | 12 => 0x3FF
  | 14 => 0x1FF
  | n => if 2 ≤ n ∧ n ≤ 9 then 0x3FF else 0
def queueClass (q : Nat) : Nat := if q = 12 then 1 else if q = 15 then 2 else 0
def queuePolicy (q : Nat) : Nat := if q = 11 then 1 else if (2 ≤ q ∧ q ≤ 9) ∨ q = 14 then 2 else 0
def queueBase (q : Nat) : Nat :=
  (match q with
  | 0 => 0x70000
  | 1 => 0x70400
  | 10 => 0x73400
  | 11 => 0x73C00
  | 12 => 0x74C00
  | 13 => 0x76C00
  | 14 => 0x76D00
  | 15 => 0x77500
  | n => 0x71400 + (n - 2) * 0x400) / 16
def queueLen (q : Nat) : Nat :=
  match q with
  | 1 | 11 | 15 => 256
  | 10 | 14 => 128
  | 12 => 512
  | 13 => 16
  | _ => 64

/-- Reset value of loop coefficient word c (R247). -/
def coefReset (c : Nat) : Nat :=
  match c with
  | 3 | 4 => 0x01000000
  | 9 | 11 => 0x80000000
  | 10 | 12 => 0x7FFFFFFF
  | _ => 0

namespace Hdr
/-- BLK_CTRL.ISOLATED, BLK_CTRL.ISOLATE and the kinds, agent and offset of BLK_ERR (R26). -/
def ISOLATED : Fld := { off := 0x0, hi := 9, lo := 9, acc := .ro }
def ISOLATE : Fld := { off := 0x0, hi := 8, lo := 8, acc := .rw }
def OFFSET : Fld := { off := 0x4, hi := 31, lo := 12, acc := .ro }
def AGENT : Fld := { off := 0x4, hi := 11, lo := 8, acc := .ro }
def ISO : Fld := { off := 0x4, hi := 5, lo := 5, acc := .w1c }
def CELL : Fld := { off := 0x4, hi := 4, lo := 4, acc := .w1c }
def ECC_U : Fld := { off := 0x4, hi := 3, lo := 3, acc := .w1c }
def ECC_C : Fld := { off := 0x4, hi := 2, lo := 2, acc := .w1c }
def RUNW : Fld := { off := 0x4, hi := 1, lo := 1, acc := .w1c }
def OWN : Fld := { off := 0x4, hi := 0, lo := 0, acc := .w1c }
/-- BLK_CTRL.OWNER of a block (R20, R26). -/
def OWNER (b : Blk) : Fld := { off := 0x0, hi := 3, lo := 0, acc := .ro, rst := fun _ => resetOwner b }
/-- Every stored field of BLK_ERR. -/
def err : List Fld := [OFFSET, AGENT, ISO, CELL, ECC_U, ECC_C, RUNW, OWN]
end Hdr

namespace Chip
def OWN_CMD_BASE : Fld := { off := 0x100, hi := 31, lo := 5, acc := .rw }
def OWN_CMD_OWNER : Fld := { off := 0x100, hi := 3, lo := 0, acc := .rw }
def OWN_RES_PREV : Fld := { off := 0x104, hi := 7, lo := 4, acc := .ro }
def OWN_RES_RESULT : Fld := { off := 0x104, hi := 1, lo := 0, acc := .ro }
/-- Every register of the block, each the list of its fields. -/
def regs : List (List Fld) :=
  [ [ OWN_CMD_BASE, OWN_CMD_OWNER],
   [ OWN_RES_PREV, OWN_RES_RESULT]]
end Chip

namespace Time
def NS : Fld := { off := 0x8, hi := 31, lo := 0, acc := .ro }
def SUB : Fld := { off := 0xC, hi := 29, lo := 0, acc := .snap }
def SEC_LO : Fld := { off := 0x10, hi := 31, lo := 0, acc := .snap }
def SEC_HI : Fld := { off := 0x14, hi := 15, lo := 0, acc := .snap }
def EPOCH : Fld := { off := 0x18, hi := 15, lo := 0, acc := .snap }
def STATUS_SYNCCONF : Fld := { off := 0x1C, hi := 10, lo := 10, acc := .w1c }
def STATUS_SCRC : Fld := { off := 0x1C, hi := 9, lo := 9, acc := .w1c }
def STATUS_ICLAMP : Fld := { off := 0x1C, hi := 8, lo := 8, acc := .w1c }
def STATUS_EXALIGN : Fld := { off := 0x1C, hi := 7, lo := 7, acc := .ro }
def STATUS_SYNCLOST : Fld := { off := 0x1C, hi := 6, lo := 6, acc := .ro }
def STATUS_SET : Fld := { off := 0x1C, hi := 5, lo := 5, acc := .ro }
def STATUS_DISC : Fld := { off := 0x1C, hi := 4, lo := 4, acc := .ro }
def STATUS_HOLDOVER : Fld := { off := 0x1C, hi := 3, lo := 3, acc := .ro }
def STATUS_SLEWING : Fld := { off := 0x1C, hi := 2, lo := 2, acc := .ro }
def STATUS_STEP : Fld := { off := 0x1C, hi := 1, lo := 1, acc := .w1c }
def STATUS_WRAP : Fld := { off := 0x1C, hi := 0, lo := 0, acc := .w1c }
def INCR_INT : Fld := { off := 0x20, hi := 31, lo := 28, acc := .rw, rst := fun _ => 5 }
def INCR_FRAC : Fld := { off := 0x20, hi := 27, lo := 0, acc := .rw }
def ADJ_SEC : Fld := { off := 0x24, hi := 31, lo := 0, acc := .rw }
def ADJ : Fld := { off := 0x28, hi := 31, lo := 0, acc := .wo }
def SLEW_LIMIT : Fld := { off := 0x2C, hi := 31, lo := 0, acc := .rw, rst := fun _ => 100000, rng := .nearest 0 1000000 }
def SLEW_RATE : Fld := { off := 0x30, hi := 9, lo := 0, acc := .rw, rst := fun _ => 1000, rng := .nearest 1 1000 }
def SLEW_REM : Fld := { off := 0x34, hi := 31, lo := 0, acc := .ro }
def STEP_LAST : Fld := { off := 0x38, hi := 31, lo := 0, acc := .ro }
def CFG_PPSW : Fld := { off := 0x3C, hi := 31, lo := 16, acc := .rw, rst := fun _ => 100, rng := .nearest 1 65535 }
def CFG_PPSEN : Fld := { off := 0x3C, hi := 15, lo := 15, acc := .rw }
def CFG_PPSPT : Fld := { off := 0x3C, hi := 13, lo := 8, acc := .rw }
def CFG_SYNCDLY : Fld := { off := 0x3C, hi := 7, lo := 2, acc := .rw }
def CFG_ROLE : Fld := { off := 0x3C, hi := 1, lo := 0, acc := .rw, rng := .zeroFrom 3 }
/-- Every register of the block, each the list of its fields. -/
def regs : List (List Fld) :=
  [ [ NS],
   [ SUB],
   [ SEC_LO],
   [ SEC_HI],
   [ EPOCH],
   [ STATUS_SYNCCONF, STATUS_SCRC, STATUS_ICLAMP, STATUS_EXALIGN, STATUS_SYNCLOST, STATUS_SET, STATUS_DISC, STATUS_HOLDOVER, STATUS_SLEWING, STATUS_STEP, STATUS_WRAP],
   [ INCR_INT, INCR_FRAC],
   [ ADJ_SEC],
   [ ADJ],
   [ SLEW_LIMIT],
   [ SLEW_RATE],
   [ SLEW_REM],
   [ STEP_LAST],
   [ CFG_PPSW, CFG_PPSEN, CFG_PPSPT, CFG_SYNCDLY, CFG_ROLE]]
end Time

namespace Slot
def CMD_DISARM : Fld := { off := 0x8, hi := 1, lo := 1, acc := .wo }
def CMD_ARM : Fld := { off := 0x8, hi := 0, lo := 0, acc := .wo }
def CFG_EVQ : Fld := { off := 0xC, hi := 11, lo := 8, acc := .rwo, rst := fun _ => 1 }
def CFG_EVT : Fld := { off := 0xC, hi := 6, lo := 6, acc := .rwo }
def CFG_NETTIME : Fld := { off := 0xC, hi := 5, lo := 5, acc := .rwo }
def CFG_STRICT : Fld := { off := 0xC, hi := 4, lo := 4, acc := .rwo }
def CFG_ACTION : Fld := { off := 0xC, hi := 3, lo := 0, acc := .rwo }
def TARGET : Fld := { off := 0x10, hi := 31, lo := 0, acc := .rwo }
def PERIOD : Fld := { off := 0x14, hi := 31, lo := 0, acc := .rwo }
def ADDR : Fld := { off := 0x18, hi := 31, lo := 0, acc := .rwo }
def DATA : Fld := { off := 0x1C, hi := 31, lo := 0, acc := .rwo }
def STATUS_FIRES : Fld := { off := 0x20, hi := 31, lo := 16, acc := .ro }
def STATUS_WFAIL : Fld := { off := 0x20, hi := 12, lo := 12, acc := .w1c }
def STATUS_SHIFT : Fld := { off := 0x20, hi := 11, lo := 11, acc := .w1c }
def STATUS_SKIP : Fld := { off := 0x20, hi := 10, lo := 10, acc := .w1c }
def STATUS_MISS : Fld := { off := 0x20, hi := 9, lo := 9, acc := .w1c }
def STATUS_LATE : Fld := { off := 0x20, hi := 8, lo := 8, acc := .w1c }
def STATUS_STATE : Fld := { off := 0x20, hi := 2, lo := 0, acc := .ro }
def LATE : Fld := { off := 0x24, hi := 31, lo := 0, acc := .ro }
def SKIP : Fld := { off := 0x28, hi := 31, lo := 0, acc := .ro }
def FIRED : Fld := { off := 0x2C, hi := 31, lo := 0, acc := .ro }
def FEPOCH : Fld := { off := 0x30, hi := 15, lo := 0, acc := .ro }
/-- Every register of the block, each the list of its fields. -/
def regs : List (List Fld) :=
  [ [ CMD_DISARM, CMD_ARM],
   [ CFG_EVQ, CFG_EVT, CFG_NETTIME, CFG_STRICT, CFG_ACTION],
   [ TARGET],
   [ PERIOD],
   [ ADDR],
   [ DATA],
   [ STATUS_FIRES, STATUS_WFAIL, STATUS_SHIFT, STATUS_SKIP, STATUS_MISS, STATUS_LATE, STATUS_STATE],
   [ LATE],
   [ SKIP],
   [ FIRED],
   [ FEPOCH]]
end Slot

namespace Exg
def CTRL_RETRYMAX : Fld := { off := 0x8, hi := 15, lo := 12, acc := .rw, rst := fun _ => 3 }
def CTRL_RETRY : Fld := { off := 0x8, hi := 11, lo := 11, acc := .rw }
def CTRL_SCMODE : Fld := { off := 0x8, hi := 10, lo := 10, acc := .rw }
def CTRL_RAMP : Fld := { off := 0x8, hi := 7, lo := 2, acc := .rw, rst := fun _ => 16, rng := .nearest 1 63 }
def CTRL_EN : Fld := { off := 0x8, hi := 0, lo := 0, acc := .rw }
def FREQ : Fld := { off := 0xC, hi := 31, lo := 0, acc := .rwo, rst := fun _ => 85899, rng := .nearest 21475 429497 }
def PHASE : Fld := { off := 0x10, hi := 15, lo := 0, acc := .rwo }
def AMP : Fld := { off := 0x14, hi := 12, lo := 0, acc := .rw, rng := .nearest 0 8000 }
def REFMASK : Fld := { off := 0x18, hi := 15, lo := 0, acc := .rwo, rst := fun n => 2 ^ n }
def STATUS_STATE : Fld := { off := 0x1C, hi := 18, lo := 16, acc := .ro }
def STATUS_ALIGN : Fld := { off := 0x1C, hi := 7, lo := 7, acc := .ro }
def STATUS_REFCONF : Fld := { off := 0x1C, hi := 6, lo := 6, acc := .w1c }
def STATUS_RETRYFAIL : Fld := { off := 0x1C, hi := 5, lo := 5, acc := .w1c }
def STATUS_HEAD : Fld := { off := 0x1C, hi := 4, lo := 4, acc := .w1c }
def STATUS_VUV : Fld := { off := 0x1C, hi := 3, lo := 3, acc := .w1c }
def STATUS_SC : Fld := { off := 0x1C, hi := 2, lo := 2, acc := .w1c }
def STATUS_LIMEV : Fld := { off := 0x1C, hi := 1, lo := 1, acc := .w1c }
def IRMS : Fld := { off := 0x20, hi := 19, lo := 0, acc := .ro }
def IPK : Fld := { off := 0x24, hi := 19, lo := 0, acc := .ro }
def VEXC : Fld := { off := 0x28, hi := 15, lo := 0, acc := .ro }
def COUNT_LIMCNT : Fld := { off := 0x2C, hi := 31, lo := 8, acc := .ro }
def COUNT_RETRIES : Fld := { off := 0x2C, hi := 7, lo := 0, acc := .ro }
/-- Every register of the block, each the list of its fields. -/
def regs : List (List Fld) :=
  [ [ CTRL_RETRYMAX, CTRL_RETRY, CTRL_SCMODE, CTRL_RAMP, CTRL_EN],
   [ FREQ],
   [ PHASE],
   [ AMP],
   [ REFMASK],
   [ STATUS_STATE, STATUS_ALIGN, STATUS_REFCONF, STATUS_RETRYFAIL, STATUS_HEAD, STATUS_VUV, STATUS_SC, STATUS_LIMEV],
   [ IRMS],
   [ IPK],
   [ VEXC],
   [ COUNT_LIMCNT, COUNT_RETRIES]]
end Exg

namespace Ao
def CTRL_RETRY : Fld := { off := 0x8, hi := 5, lo := 5, acc := .rw }
def CTRL_SCMODE : Fld := { off := 0x8, hi := 4, lo := 4, acc := .rw }
def CTRL_SRC : Fld := { off := 0x8, hi := 3, lo := 3, acc := .rw }
def CTRL_RANGE : Fld := { off := 0x8, hi := 1, lo := 1, acc := .rw }
def CTRL_EN : Fld := { off := 0x8, hi := 0, lo := 0, acc := .rw }
def CODE : Fld := { off := 0xC, hi := 15, lo := 0, acc := .rw, rst := fun _ => 32768 }
def RESET_CODE : Fld := { off := 0x10, hi := 15, lo := 0, acc := .rw, rst := fun _ => 32768 }
def OCCULT : Fld := { off := 0x14, hi := 15, lo := 0, acc := .rw, rst := fun _ => 32768 }
def DGL_THRESH : Fld := { off := 0x18, hi := 31, lo := 16, acc := .rw, rst := fun _ => 4096 }
def DGL_EN : Fld := { off := 0x18, hi := 4, lo := 4, acc := .rw, rst := fun _ => 1 }
def DGL_HOLD : Fld := { off := 0x18, hi := 3, lo := 0, acc := .rw, rst := fun _ => 3 }
def STATUS_STATE : Fld := { off := 0x1C, hi := 18, lo := 16, acc := .ro }
def STATUS_APPLIED : Fld := { off := 0x1C, hi := 15, lo := 0, acc := .ro }
def FLAGS_HOLDEV : Fld := { off := 0x20, hi := 3, lo := 3, acc := .w1c }
def FLAGS_RETRYFAIL : Fld := { off := 0x20, hi := 2, lo := 2, acc := .w1c }
def FLAGS_SC : Fld := { off := 0x20, hi := 1, lo := 1, acc := .w1c }
def FLAGS_LIMEV : Fld := { off := 0x20, hi := 0, lo := 0, acc := .w1c }
/-- Every register of the block, each the list of its fields. -/
def regs : List (List Fld) :=
  [ [ CTRL_RETRY, CTRL_SCMODE, CTRL_SRC, CTRL_RANGE, CTRL_EN],
   [ CODE],
   [ RESET_CODE],
   [ OCCULT],
   [ DGL_THRESH, DGL_EN, DGL_HOLD],
   [ STATUS_STATE, STATUS_APPLIED],
   [ FLAGS_HOLDEV, FLAGS_RETRYFAIL, FLAGS_SC, FLAGS_LIMEV]]
end Ao

namespace Fe
def CTRL : Fld := { off := 0x8, hi := 0, lo := 0, acc := .rw }
def STATUS_SRCNT : Fld := { off := 0xC, hi := 31, lo := 16, acc := .ro }
def STATUS_SRPEND : Fld := { off := 0xC, hi := 8, lo := 8, acc := .ro }
def STATUS_SCHED : Fld := { off := 0xC, hi := 2, lo := 0, acc := .ro, rst := fun _ => 7 }
def SRTIME : Fld := { off := 0x10, hi := 31, lo := 0, acc := .ro }
def SREPOCH : Fld := { off := 0x14, hi := 15, lo := 0, acc := .ro }
/-- Every register of the block, each the list of its fields. -/
def regs : List (List Fld) :=
  [ [ CTRL],
   [ STATUS_SRCNT, STATUS_SRPEND, STATUS_SCHED],
   [ SRTIME],
   [ SREPOCH]]
end Fe

namespace Rc
def ANGLE_ANGLE : Fld := { off := 0x8, hi := 31, lo := 8, acc := .ro }
def ANGLE_STATUS : Fld := { off := 0x8, hi := 7, lo := 0, acc := .ro }
def TURNS : Fld := { off := 0xC, hi := 31, lo := 0, acc := .snap }
def VEL : Fld := { off := 0x10, hi := 31, lo := 0, acc := .snap }
def TSTAMP : Fld := { off := 0x14, hi := 31, lo := 0, acc := .snap }
def SEPOCH : Fld := { off := 0x18, hi := 15, lo := 0, acc := .snap }
def TRK_CTRL_PHMODE : Fld := { off := 0x20, hi := 9, lo := 8, acc := .rw, rng := .zeroFrom 3 }
def TRK_CTRL_REACQ : Fld := { off := 0x20, hi := 4, lo := 4, acc := .wo }
def TRK_CTRL_AFFEN : Fld := { off := 0x20, hi := 1, lo := 1, acc := .rw }
def TRK_CTRL_EN : Fld := { off := 0x20, hi := 0, lo := 0, acc := .rw }
def TRK_K1 : Fld := { off := 0x24, hi := 31, lo := 0, acc := .rw, rst := fun _ => 0x753904 }
def TRK_K2 : Fld := { off := 0x28, hi := 31, lo := 0, acc := .rw, rst := fun _ => 0x14bad5 }
def TRK_WMIN : Fld := { off := 0x2C, hi := 15, lo := 0, acc := .rw, rst := fun _ => 22938, rng := .nearest 3277 58982 }
def TRK_AFF : Fld := { off := 0x30, hi := 31, lo := 0, acc := .rw }
def TRK_LOCK : Fld := { off := 0x34, hi := 23, lo := 0, acc := .rw, rst := fun _ => 4096, rng := .nearest 1 16777215 }
def TSET : Fld := { off := 0x38, hi := 31, lo := 0, acc := .rwo }
def TRK_STATUS_STATE : Fld := { off := 0x3C, hi := 18, lo := 16, acc := .ro }
def TRK_STATUS_PHVHOLD : Fld := { off := 0x3C, hi := 6, lo := 6, acc := .ro }
def TRK_STATUS_COARSEFAIL : Fld := { off := 0x3C, hi := 5, lo := 5, acc := .w1c }
def TRK_STATUS_EXTRAPEV : Fld := { off := 0x3C, hi := 4, lo := 4, acc := .w1c }
def TRK_STATUS_VCLAMP : Fld := { off := 0x3C, hi := 3, lo := 3, acc := .w1c }
def TRK_STATUS_OVSPDEV : Fld := { off := 0x3C, hi := 2, lo := 2, acc := .w1c }
def TRK_STATUS_REACQEV : Fld := { off := 0x3C, hi := 1, lo := 1, acc := .w1c }
def TRK_STATUS_LOCKLOSS : Fld := { off := 0x3C, hi := 0, lo := 0, acc := .w1c }
def TRKERR : Fld := { off := 0x40, hi := 31, lo := 0, acc := .ro }
def AMP : Fld := { off := 0x44, hi := 23, lo := 0, acc := .ro }
def VLIM : Fld := { off := 0x48, hi := 31, lo := 0, acc := .ro }
def CPH : Fld := { off := 0x4C, hi := 15, lo := 0, acc := .ro }
def CPH_SET : Fld := { off := 0x50, hi := 15, lo := 0, acc := .rw }
def CPH_RES : Fld := { off := 0x54, hi := 15, lo := 0, acc := .ro }
def ACQ_SPKTHR : Fld := { off := 0x100, hi := 31, lo := 16, acc := .rw, rst := fun _ => 256 }
def ACQ_CNTCLR : Fld := { off := 0x100, hi := 8, lo := 8, acc := .wo }
def ACQ_SPIKE : Fld := { off := 0x100, hi := 3, lo := 3, acc := .rwo }
def ACQ_SWAP : Fld := { off := 0x100, hi := 2, lo := 2, acc := .rwo }
def ACQ_INVC : Fld := { off := 0x100, hi := 1, lo := 1, acc := .rwo }
def ACQ_INVS : Fld := { off := 0x100, hi := 0, lo := 0, acc := .rwo }
def MODSTAT_NOREF : Fld := { off := 0x104, hi := 12, lo := 12, acc := .ro }
def MODSTAT_INVEV : Fld := { off := 0x104, hi := 8, lo := 8, acc := .w1c }
def MODSTAT_SPKEV : Fld := { off := 0x104, hi := 7, lo := 7, acc := .w1c }
def MODSTAT_CLKF_C : Fld := { off := 0x104, hi := 6, lo := 6, acc := .w1c }
def MODSTAT_CLKF_S : Fld := { off := 0x104, hi := 5, lo := 5, acc := .w1c }
def MODSTAT_STUCK_C : Fld := { off := 0x104, hi := 4, lo := 4, acc := .w1c }
def MODSTAT_STUCK_S : Fld := { off := 0x104, hi := 3, lo := 3, acc := .w1c }
def MODSTAT_OVL_C : Fld := { off := 0x104, hi := 2, lo := 2, acc := .w1c }
def MODSTAT_OVL_S : Fld := { off := 0x104, hi := 1, lo := 1, acc := .w1c }
def ACQCNT_SPKCNT : Fld := { off := 0x108, hi := 31, lo := 16, acc := .ro }
def ACQCNT_OVLCNT : Fld := { off := 0x108, hi := 15, lo := 0, acc := .ro }
def RAWS : Fld := { off := 0x10C, hi := 31, lo := 0, acc := .ro }
def RAWC : Fld := { off := 0x110, hi := 31, lo := 0, acc := .ro }
def INT_CTRL_PHAUTO : Fld := { off := 0x200, hi := 2, lo := 2, acc := .rw, rst := fun _ => 1 }
def INT_CTRL_PHACT : Fld := { off := 0x200, hi := 1, lo := 1, acc := .rw, rst := fun _ => 1 }
def INT_CTRL_DOSACT : Fld := { off := 0x200, hi := 0, lo := 0, acc := .rw, rst := fun _ => 1 }
def INT_LOS_DWELL : Fld := { off := 0x204, hi := 31, lo := 24, acc := .rw, rst := fun _ => 2, rng := .nearest 1 255 }
def INT_LOS_THR : Fld := { off := 0x204, hi := 23, lo := 0, acc := .rw, rst := fun _ => 419430 }
def INT_DOS_LO_DWELL : Fld := { off := 0x208, hi := 31, lo := 24, acc := .rw, rst := fun _ => 16, rng := .nearest 1 255 }
def INT_DOS_LO_THR : Fld := { off := 0x208, hi := 23, lo := 0, acc := .rw, rst := fun _ => 0x100000 }
def INT_DOS_HI_OVLMAX : Fld := { off := 0x20C, hi := 31, lo := 24, acc := .rw, rst := fun _ => 4 }
def INT_DOS_HI_THR : Fld := { off := 0x20C, hi := 23, lo := 0, acc := .rw, rst := fun _ => 0x433333 }
def INT_LOT_DWELL : Fld := { off := 0x210, hi := 31, lo := 24, acc := .rw, rst := fun _ => 5 }
def INT_LOT_THR : Fld := { off := 0x210, hi := 23, lo := 0, acc := .rw, rst := fun _ => 16384 }
def INT_STK_WIN : Fld := { off := 0x214, hi := 31, lo := 24, acc := .rw, rst := fun _ => 20, rng := .nearest 1 255 }
def INT_STK_ANG : Fld := { off := 0x214, hi := 23, lo := 16, acc := .rw }
def INT_STK_EFF : Fld := { off := 0x214, hi := 15, lo := 0, acc := .rw, rst := fun _ => 16384 }
def INT_PH_DWELL : Fld := { off := 0x218, hi := 23, lo := 16, acc := .rw, rst := fun _ => 64, rng := .nearest 1 255 }
def INT_PH_THR : Fld := { off := 0x218, hi := 15, lo := 0, acc := .rw, rst := fun _ => 910 }
def INT_PHBASE : Fld := { off := 0x21C, hi := 15, lo := 0, acc := .rw }
def INT_EXC_DWELL : Fld := { off := 0x220, hi := 27, lo := 24, acc := .rw, rst := fun _ => 4, rng := .nearest 1 15 }
def INT_EXC_OPEN : Fld := { off := 0x220, hi := 19, lo := 0, acc := .rw, rst := fun _ => 2000 }
def INT_ACTIVE : Fld := { off := 0x224, hi := 5, lo := 0, acc := .ro }
def INT_EVENT : Fld := { off := 0x228, hi := 5, lo := 0, acc := .w1c }
def INT_CAUSE : Fld := { off := 0x22C, hi := 12, lo := 0, acc := .ro }
/-- Every register of the block, each the list of its fields. -/
def regs : List (List Fld) :=
  [ [ ANGLE_ANGLE, ANGLE_STATUS],
   [ TURNS],
   [ VEL],
   [ TSTAMP],
   [ SEPOCH],
   [ TRK_CTRL_PHMODE, TRK_CTRL_REACQ, TRK_CTRL_AFFEN, TRK_CTRL_EN],
   [ TRK_K1],
   [ TRK_K2],
   [ TRK_WMIN],
   [ TRK_AFF],
   [ TRK_LOCK],
   [ TSET],
   [ TRK_STATUS_STATE, TRK_STATUS_PHVHOLD, TRK_STATUS_COARSEFAIL, TRK_STATUS_EXTRAPEV, TRK_STATUS_VCLAMP, TRK_STATUS_OVSPDEV, TRK_STATUS_REACQEV, TRK_STATUS_LOCKLOSS],
   [ TRKERR],
   [ AMP],
   [ VLIM],
   [ CPH],
   [ CPH_SET],
   [ CPH_RES],
   [ ACQ_SPKTHR, ACQ_CNTCLR, ACQ_SPIKE, ACQ_SWAP, ACQ_INVC, ACQ_INVS],
   [ MODSTAT_NOREF, MODSTAT_INVEV, MODSTAT_SPKEV, MODSTAT_CLKF_C, MODSTAT_CLKF_S, MODSTAT_STUCK_C, MODSTAT_STUCK_S, MODSTAT_OVL_C, MODSTAT_OVL_S],
   [ ACQCNT_SPKCNT, ACQCNT_OVLCNT],
   [ RAWS],
   [ RAWC],
   [ INT_CTRL_PHAUTO, INT_CTRL_PHACT, INT_CTRL_DOSACT],
   [ INT_LOS_DWELL, INT_LOS_THR],
   [ INT_DOS_LO_DWELL, INT_DOS_LO_THR],
   [ INT_DOS_HI_OVLMAX, INT_DOS_HI_THR],
   [ INT_LOT_DWELL, INT_LOT_THR],
   [ INT_STK_WIN, INT_STK_ANG, INT_STK_EFF],
   [ INT_PH_DWELL, INT_PH_THR],
   [ INT_PHBASE],
   [ INT_EXC_DWELL, INT_EXC_OPEN],
   [ INT_ACTIVE],
   [ INT_EVENT],
   [ INT_CAUSE]]
end Rc

namespace Ai
def CTRL_EVQ : Fld := { off := 0x8, hi := 11, lo := 8, acc := .rw, rst := fun _ => 1 }
def CTRL_TSEL : Fld := { off := 0x8, hi := 7, lo := 5, acc := .rw, rng := .zeroFrom 5 }
def CTRL_EVT : Fld := { off := 0x8, hi := 4, lo := 4, acc := .rw }
def CTRL_INV : Fld := { off := 0x8, hi := 2, lo := 2, acc := .rwo }
def CTRL_SPIKE : Fld := { off := 0x8, hi := 1, lo := 1, acc := .rwo }
def CTRL_EN : Fld := { off := 0x8, hi := 0, lo := 0, acc := .rw }
def DET_HOLD : Fld := { off := 0xC, hi := 31, lo := 24, acc := .rw, rst := fun _ => 1 }
def DET_DECAY : Fld := { off := 0xC, hi := 20, lo := 16, acc := .rw, rst := fun _ => 12, rng := .nearest 0 20 }
def DET_RMSW : Fld := { off := 0xC, hi := 12, lo := 8, acc := .rw, rst := fun _ => 10, rng := .nearest 4 16 }
def DET_ENVSH : Fld := { off := 0xC, hi := 3, lo := 0, acc := .rw, rst := fun _ => 6, rng := .nearest 1 15 }
def THR_HI : Fld := { off := 0x10, hi := 31, lo := 0, acc := .rw, rst := fun _ => 0x7fffff }
def THR_LO : Fld := { off := 0x14, hi := 31, lo := 0, acc := .rw, rst := fun _ => 0xff800000 }
def VALUE : Fld := { off := 0x18, hi := 31, lo := 0, acc := .ro }
def TSTAMP : Fld := { off := 0x1C, hi := 31, lo := 0, acc := .snap }
def PEAK : Fld := { off := 0x20, hi := 23, lo := 0, acc := .ro }
def ENV : Fld := { off := 0x24, hi := 23, lo := 0, acc := .ro }
def RMS : Fld := { off := 0x28, hi := 23, lo := 0, acc := .ro }
def MEAN : Fld := { off := 0x2C, hi := 31, lo := 0, acc := .snap }
def RTSTAMP : Fld := { off := 0x30, hi := 31, lo := 0, acc := .snap }
def STATUS_VALID : Fld := { off := 0x34, hi := 16, lo := 16, acc := .ro }
def STATUS_RMSRST : Fld := { off := 0x34, hi := 7, lo := 7, acc := .w1c }
def STATUS_INVEV : Fld := { off := 0x34, hi := 6, lo := 6, acc := .w1c }
def STATUS_CLKF : Fld := { off := 0x34, hi := 5, lo := 5, acc := .w1c }
def STATUS_STUCK : Fld := { off := 0x34, hi := 4, lo := 4, acc := .w1c }
def STATUS_OVL : Fld := { off := 0x34, hi := 3, lo := 3, acc := .w1c }
def STATUS_SPKEV : Fld := { off := 0x34, hi := 2, lo := 2, acc := .w1c }
def STATUS_LO : Fld := { off := 0x34, hi := 1, lo := 1, acc := .w1c }
def STATUS_HI : Fld := { off := 0x34, hi := 0, lo := 0, acc := .w1c }
/-- Every register of the block, each the list of its fields. -/
def regs : List (List Fld) :=
  [ [ CTRL_EVQ, CTRL_TSEL, CTRL_EVT, CTRL_INV, CTRL_SPIKE, CTRL_EN],
   [ DET_HOLD, DET_DECAY, DET_RMSW, DET_ENVSH],
   [ THR_HI],
   [ THR_LO],
   [ VALUE],
   [ TSTAMP],
   [ PEAK],
   [ ENV],
   [ RMS],
   [ MEAN],
   [ RTSTAMP],
   [ STATUS_VALID, STATUS_RMSRST, STATUS_INVEV, STATUS_CLKF, STATUS_STUCK, STATUS_OVL, STATUS_SPKEV, STATUS_LO, STATUS_HI]]
end Ai

namespace Lens
def CTRL_NREV : Fld := { off := 0x8, hi := 31, lo := 24, acc := .rw, rst := fun _ => 16, rng := .nearest 16 255 }
def CTRL_PP : Fld := { off := 0x8, hi := 20, lo := 16, acc := .rwo, rst := fun _ => 1, rng := .nearest 1 16 }
def CTRL_FRCHK : Fld := { off := 0x8, hi := 8, lo := 8, acc := .rw, rst := fun _ => 1 }
def CTRL_RESTART : Fld := { off := 0x8, hi := 5, lo := 5, acc := .wo }
def CTRL_COMMIT : Fld := { off := 0x8, hi := 4, lo := 4, acc := .wo }
def CTRL_STATE : Fld := { off := 0x8, hi := 1, lo := 0, acc := .rw }
def MZERO : Fld := { off := 0xC, hi := 31, lo := 0, acc := .rwo }
def VMIN : Fld := { off := 0x10, hi := 31, lo := 0, acc := .rw, rst := fun _ => 16384 }
def VMAX : Fld := { off := 0x14, hi := 31, lo := 0, acc := .rw, rst := fun _ => 0xc80000 }
def VTOL : Fld := { off := 0x18, hi := 15, lo := 0, acc := .rw, rst := fun _ => 1311, rng := .nearest 1 65535 }
def FRTOL : Fld := { off := 0x1C, hi := 23, lo := 0, acc := .rw, rst := fun _ => 53024 }
def DMAX : Fld := { off := 0x20, hi := 23, lo := 0, acc := .rw, rst := fun _ => 26512 }
def ID : Fld := { off := 0x24, hi := 31, lo := 0, acc := .rwo }
def H1C : Fld := { off := 0x28, hi := 31, lo := 0, acc := .rwo }
def H1S : Fld := { off := 0x2C, hi := 31, lo := 0, acc := .rwo }
def H2C : Fld := { off := 0x30, hi := 31, lo := 0, acc := .rwo }
def H2S : Fld := { off := 0x34, hi := 31, lo := 0, acc := .rwo }
def CH1C : Fld := { off := 0x38, hi := 31, lo := 0, acc := .ro }
def CH1S : Fld := { off := 0x3C, hi := 31, lo := 0, acc := .ro }
def CH2C : Fld := { off := 0x40, hi := 31, lo := 0, acc := .ro }
def CH2S : Fld := { off := 0x44, hi := 31, lo := 0, acc := .ro }
def STATUS_SHIFT : Fld := { off := 0x48, hi := 23, lo := 20, acc := .ro }
def STATUS_PPMIS : Fld := { off := 0x48, hi := 19, lo := 19, acc := .ro }
def STATUS_PEND : Fld := { off := 0x48, hi := 18, lo := 18, acc := .ro }
def STATUS_CAND : Fld := { off := 0x48, hi := 17, lo := 17, acc := .ro }
def STATUS_ONEDIR : Fld := { off := 0x48, hi := 16, lo := 16, acc := .ro }
def STATUS_ECCPT : Fld := { off := 0x48, hi := 8, lo := 8, acc := .w1c }
def STATUS_CLAMPEV : Fld := { off := 0x48, hi := 7, lo := 7, acc := .w1c }
def STATUS_CMDERR : Fld := { off := 0x48, hi := 6, lo := 6, acc := .w1c }
def STATUS_SHIFTDET : Fld := { off := 0x48, hi := 5, lo := 5, acc := .w1c }
def STATUS_CAPFAIL : Fld := { off := 0x48, hi := 4, lo := 4, acc := .w1c }
def STATUS_FRFAIL : Fld := { off := 0x48, hi := 3, lo := 3, acc := .w1c }
def STATUS_REJEV : Fld := { off := 0x48, hi := 2, lo := 2, acc := .w1c }
def STATUS_CHKEV : Fld := { off := 0x48, hi := 1, lo := 1, acc := .w1c }
def STATUS_COMEV : Fld := { off := 0x48, hi := 0, lo := 0, acc := .w1c }
def COUNT_FWD : Fld := { off := 0x4C, hi := 31, lo := 24, acc := .ro }
def COUNT_REV : Fld := { off := 0x4C, hi := 23, lo := 16, acc := .ro }
def COUNT_REJ : Fld := { off := 0x4C, hi := 15, lo := 0, acc := .ro }
def REJ_BUSY : Fld := { off := 0x50, hi := 8, lo := 8, acc := .ro }
def REJ_SPARSE : Fld := { off := 0x50, hi := 7, lo := 7, acc := .ro }
def REJ_EPOCH : Fld := { off := 0x50, hi := 6, lo := 6, acc := .ro }
def REJ_GAIN : Fld := { off := 0x50, hi := 5, lo := 5, acc := .ro }
def REJ_VTOL : Fld := { off := 0x50, hi := 4, lo := 4, acc := .ro }
def REJ_SPEED : Fld := { off := 0x50, hi := 3, lo := 3, acc := .ro }
def REJ_INTEG : Fld := { off := 0x50, hi := 2, lo := 2, acc := .ro }
def REJ_STAT : Fld := { off := 0x50, hi := 1, lo := 1, acc := .ro }
def REJ_PP : Fld := { off := 0x50, hi := 0, lo := 0, acc := .ro }
def FRDIFF : Fld := { off := 0x54, hi := 23, lo := 0, acc := .ro }
def ZEROED : Fld := { off := 0x58, hi := 6, lo := 0, acc := .ro }
def CORR : Fld := { off := 0x5C, hi := 31, lo := 0, acc := .ro }
/-- Every register of the block, each the list of its fields. -/
def regs : List (List Fld) :=
  [ [ CTRL_NREV, CTRL_PP, CTRL_FRCHK, CTRL_RESTART, CTRL_COMMIT, CTRL_STATE],
   [ MZERO],
   [ VMIN],
   [ VMAX],
   [ VTOL],
   [ FRTOL],
   [ DMAX],
   [ ID],
   [ H1C],
   [ H1S],
   [ H2C],
   [ H2S],
   [ CH1C],
   [ CH1S],
   [ CH2C],
   [ CH2S],
   [ STATUS_SHIFT, STATUS_PPMIS, STATUS_PEND, STATUS_CAND, STATUS_ONEDIR, STATUS_ECCPT, STATUS_CLAMPEV, STATUS_CMDERR, STATUS_SHIFTDET, STATUS_CAPFAIL, STATUS_FRFAIL, STATUS_REJEV, STATUS_CHKEV, STATUS_COMEV],
   [ COUNT_FWD, COUNT_REV, COUNT_REJ],
   [ REJ_BUSY, REJ_SPARSE, REJ_EPOCH, REJ_GAIN, REJ_VTOL, REJ_SPEED, REJ_INTEG, REJ_STAT, REJ_PP],
   [ FRDIFF],
   [ ZEROED],
   [ CORR]]
end Lens

namespace Ax
def SRC_PP : Fld := { off := 0x8, hi := 12, lo := 8, acc := .rwo, rst := fun _ => 1, rng := .nearest 1 16 }
def SRC_SRC : Fld := { off := 0x8, hi := 7, lo := 0, acc := .rwo, rst := fun n => n, rng := .srcCode }
def POS_OFS_LO : Fld := { off := 0xC, hi := 31, lo := 0, acc := .rwo }
def POS_OFS_HI : Fld := { off := 0x10, hi := 31, lo := 0, acc := .rwo }
def POS_LO : Fld := { off := 0x14, hi := 31, lo := 0, acc := .ro }
def POS_HI : Fld := { off := 0x18, hi := 31, lo := 0, acc := .snap }
def VEL : Fld := { off := 0x1C, hi := 31, lo := 0, acc := .snap }
def TS : Fld := { off := 0x20, hi := 31, lo := 0, acc := .snap }
def STAT : Fld := { off := 0x24, hi := 31, lo := 0, acc := .snap }
def U : Fld := { off := 0x28, hi := 31, lo := 0, acc := .ro }
def UTIME : Fld := { off := 0x2C, hi := 31, lo := 0, acc := .ro }
def SEL_CONF : Fld := { off := 0x30, hi := 17, lo := 17, acc := .w1c }
def SEL_INIT : Fld := { off := 0x30, hi := 16, lo := 16, acc := .w1c }
def SEL_NFLOOR : Fld := { off := 0x30, hi := 14, lo := 12, acc := .ro }
def SEL_NCEIL : Fld := { off := 0x30, hi := 11, lo := 9, acc := .ro }
def SEL_MAIN : Fld := { off := 0x30, hi := 8, lo := 8, acc := .ro }
def SEL_WV : Fld := { off := 0x30, hi := 6, lo := 6, acc := .ro }
def SEL_WINNER : Fld := { off := 0x30, hi := 5, lo := 0, acc := .ro }
def ENC_CFG_EN : Fld := { off := 0x34, hi := 31, lo := 31, acc := .rw }
def ENC_CFG_DIR : Fld := { off := 0x34, hi := 30, lo := 30, acc := .rwo }
def ENC_CFG_PTB : Fld := { off := 0x34, hi := 13, lo := 8, acc := .rwo }
def ENC_CFG_PTA : Fld := { off := 0x34, hi := 5, lo := 0, acc := .rwo }
def ENC_N : Fld := { off := 0x38, hi := 22, lo := 0, acc := .rwo, rst := fun _ => 4096, rng := .nearest 1 4194304 }
def ENC_COUNT : Fld := { off := 0x3C, hi := 31, lo := 0, acc := .ro }
def ENC_STATUS : Fld := { off := 0x40, hi := 0, lo := 0, acc := .ro }
def FB_CFG_HOLDT : Fld := { off := 0x60, hi := 20, lo := 8, acc := .rw, rst := fun _ => 1000, rng := .nearest 0 5000 }
def FB_CFG_EVQ : Fld := { off := 0x60, hi := 7, lo := 4, acc := .rw, rst := fun _ => 1 }
def FB_CFG_XCMODE : Fld := { off := 0x60, hi := 2, lo := 2, acc := .rw }
def FB_CFG_XCEN : Fld := { off := 0x60, hi := 1, lo := 1, acc := .rw }
def FB_SRC_FBPP : Fld := { off := 0x64, hi := 12, lo := 8, acc := .rwo, rng := .nearest 0 16 }
def FB_SRC_FBSRC : Fld := { off := 0x64, hi := 7, lo := 0, acc := .rwo, rst := fun _ => 255, rng := .srcCode }
def XC_CFG : Fld := { off := 0x68, hi := 15, lo := 0, acc := .rw, rst := fun _ => 1000 }
def XC_THR : Fld := { off := 0x6C, hi := 31, lo := 0, acc := .rw, rst := fun _ => 0xb60b61 }
def XC_OFS : Fld := { off := 0x70, hi := 31, lo := 0, acc := .rw }
def XC_DIFF : Fld := { off := 0x74, hi := 31, lo := 0, acc := .ro }
def SAFE_CMD : Fld := { off := 0x78, hi := 31, lo := 0, acc := .rw }
def TEN_ASSERTED : Fld := { off := 0x7C, hi := 9, lo := 9, acc := .ro }
def TEN_ARM : Fld := { off := 0x7C, hi := 8, lo := 8, acc := .wo }
def TEN_EN : Fld := { off := 0x7C, hi := 7, lo := 7, acc := .rw }
def TEN_POL : Fld := { off := 0x7C, hi := 6, lo := 6, acc := .rw }
def TEN_PT : Fld := { off := 0x7C, hi := 5, lo := 0, acc := .rw }
def FB_CMD_FALLBACK : Fld := { off := 0x80, hi := 2, lo := 2, acc := .wo }
def FB_CMD_SAFE : Fld := { off := 0x80, hi := 1, lo := 1, acc := .wo }
def FB_CMD_CLEAR : Fld := { off := 0x80, hi := 0, lo := 0, acc := .wo }
def FB_STATUS_CLRREJ : Fld := { off := 0x84, hi := 18, lo := 18, acc := .w1c }
def FB_STATUS_SAFEEV : Fld := { off := 0x84, hi := 17, lo := 17, acc := .w1c }
def FB_STATUS_FLEV : Fld := { off := 0x84, hi := 16, lo := 16, acc := .w1c }
def FB_STATUS_SECFAIL : Fld := { off := 0x84, hi := 11, lo := 11, acc := .ro }
def FB_STATUS_XCHK : Fld := { off := 0x84, hi := 10, lo := 10, acc := .ro }
def FB_STATUS_SRC : Fld := { off := 0x84, hi := 9, lo := 9, acc := .ro, rst := fun _ => 1 }
def FB_STATUS_MON : Fld := { off := 0x84, hi := 8, lo := 8, acc := .ro }
def FB_STATUS_STATE : Fld := { off := 0x84, hi := 1, lo := 0, acc := .ro, rst := fun _ => 3 }
def FB_TIME : Fld := { off := 0x88, hi := 31, lo := 0, acc := .ro }
def FB_OFS_LO : Fld := { off := 0x8C, hi := 31, lo := 0, acc := .ro }
def FB_OFS_HI : Fld := { off := 0x90, hi := 31, lo := 0, acc := .ro }
/-- Every register of the block, each the list of its fields. -/
def regs : List (List Fld) :=
  [ [ SRC_PP, SRC_SRC],
   [ POS_OFS_LO],
   [ POS_OFS_HI],
   [ POS_LO],
   [ POS_HI],
   [ VEL],
   [ TS],
   [ STAT],
   [ U],
   [ UTIME],
   [ SEL_CONF, SEL_INIT, SEL_NFLOOR, SEL_NCEIL, SEL_MAIN, SEL_WV, SEL_WINNER],
   [ ENC_CFG_EN, ENC_CFG_DIR, ENC_CFG_PTB, ENC_CFG_PTA],
   [ ENC_N],
   [ ENC_COUNT],
   [ ENC_STATUS],
   [ FB_CFG_HOLDT, FB_CFG_EVQ, FB_CFG_XCMODE, FB_CFG_XCEN],
   [ FB_SRC_FBPP, FB_SRC_FBSRC],
   [ XC_CFG],
   [ XC_THR],
   [ XC_OFS],
   [ XC_DIFF],
   [ SAFE_CMD],
   [ TEN_ASSERTED, TEN_ARM, TEN_EN, TEN_POL, TEN_PT],
   [ FB_CMD_FALLBACK, FB_CMD_SAFE, FB_CMD_CLEAR],
   [ FB_STATUS_CLRREJ, FB_STATUS_SAFEEV, FB_STATUS_FLEV, FB_STATUS_SECFAIL, FB_STATUS_XCHK, FB_STATUS_SRC, FB_STATUS_MON, FB_STATUS_STATE],
   [ FB_TIME],
   [ FB_OFS_LO],
   [ FB_OFS_HI]]
end Ax

namespace Pt
def CFG_TERM : Fld := { off := 0x8, hi := 3, lo := 3, acc := .rw }
def CFG_MODE : Fld := { off := 0x8, hi := 1, lo := 0, acc := .rw, rng := .zeroFrom 3 }
def OUT_OE : Fld := { off := 0xC, hi := 8, lo := 8, acc := .rw }
def OUT_N : Fld := { off := 0xC, hi := 1, lo := 1, acc := .rw }
def OUT_P : Fld := { off := 0xC, hi := 0, lo := 0, acc := .rw }
def IN : Fld := { off := 0x10, hi := 1, lo := 0, acc := .ro }
def CLAIM : Fld := { off := 0x14, hi := 2, lo := 0, acc := .ro }
/-- Every register of the block, each the list of its fields. -/
def regs : List (List Fld) :=
  [ [ CFG_TERM, CFG_MODE],
   [ OUT_OE, OUT_N, OUT_P],
   [ IN],
   [ CLAIM]]
end Pt

namespace Em
def CTRL_AXIS : Fld := { off := 0x8, hi := 19, lo := 16, acc := .rwo, rst := fun n => n }
def CTRL_HYS : Fld := { off := 0x8, hi := 14, lo := 12, acc := .rw }
def CTRL_ZW : Fld := { off := 0x8, hi := 11, lo := 10, acc := .rwo, rst := fun _ => 2, rng := .zeroFrom 3 }
def CTRL_LOSTACT : Fld := { off := 0x8, hi := 9, lo := 9, acc := .rw }
def CTRL_DIR : Fld := { off := 0x8, hi := 8, lo := 8, acc := .rwo }
def CTRL_MODE : Fld := { off := 0x8, hi := 5, lo := 4, acc := .rwo, rng := .zeroFrom 3 }
def CTRL_EN : Fld := { off := 0x8, hi := 0, lo := 0, acc := .rw }
def CPR : Fld := { off := 0xC, hi := 22, lo := 0, acc := .rwo, rst := fun _ => 4096, rng := .nearest 1 4194304 }
def ZPOS : Fld := { off := 0x10, hi := 31, lo := 0, acc := .rwo }
def LAT : Fld := { off := 0x14, hi := 10, lo := 0, acc := .rw, rng := .nearest 0 2000 }
def GAP : Fld := { off := 0x18, hi := 11, lo := 0, acc := .rw, rst := fun _ => 10, rng := .nearest 10 4000 }
def PORT_ZEN : Fld := { off := 0x1C, hi := 31, lo := 31, acc := .rwo, rst := fun _ => 1 }
def PORT_PTZ : Fld := { off := 0x1C, hi := 21, lo := 16, acc := .rwo, rst := fun n => 3 * n + 2 }
def PORT_PTB : Fld := { off := 0x1C, hi := 13, lo := 8, acc := .rwo, rst := fun n => 3 * n + 1 }
def PORT_PTA : Fld := { off := 0x1C, hi := 5, lo := 0, acc := .rwo, rst := fun n => 3 * n }
def SSI_TM : Fld := { off := 0x20, hi := 31, lo := 24, acc := .rwo, rst := fun _ => 20, rng := .nearest 1 255 }
def SSI_PAR : Fld := { off := 0x20, hi := 18, lo := 18, acc := .rwo }
def SSI_ERRB : Fld := { off := 0x20, hi := 17, lo := 17, acc := .rwo }
def SSI_GRAY : Fld := { off := 0x20, hi := 16, lo := 16, acc := .rwo, rst := fun _ => 1 }
def SSI_FBITS : Fld := { off := 0x20, hi := 13, lo := 8, acc := .rwo, rst := fun _ => 13 }
def SSI_LEN : Fld := { off := 0x20, hi := 5, lo := 0, acc := .rwo, rst := fun _ => 25, rng := .nearest 12 32 }
def STATUS_STATE : Fld := { off := 0x24, hi := 18, lo := 16, acc := .ro }
def STATUS_SSIOVR : Fld := { off := 0x24, hi := 4, lo := 4, acc := .w1c }
def STATUS_HELDEV : Fld := { off := 0x24, hi := 3, lo := 3, acc := .w1c }
def STATUS_MASKED : Fld := { off := 0x24, hi := 2, lo := 2, acc := .w1c }
def STATUS_DEBTEV : Fld := { off := 0x24, hi := 1, lo := 1, acc := .w1c }
def STATUS_LOST : Fld := { off := 0x24, hi := 0, lo := 0, acc := .w1c }
def DEBT : Fld := { off := 0x28, hi := 31, lo := 0, acc := .ro }
def DEBTMAX : Fld := { off := 0x2C, hi := 16, lo := 0, acc := .ro }
def COUNT : Fld := { off := 0x30, hi := 31, lo := 0, acc := .ro }
def DROP : Fld := { off := 0x34, hi := 31, lo := 0, acc := .ro }
/-- Every register of the block, each the list of its fields. -/
def regs : List (List Fld) :=
  [ [ CTRL_AXIS, CTRL_HYS, CTRL_ZW, CTRL_LOSTACT, CTRL_DIR, CTRL_MODE, CTRL_EN],
   [ CPR],
   [ ZPOS],
   [ LAT],
   [ GAP],
   [ PORT_ZEN, PORT_PTZ, PORT_PTB, PORT_PTA],
   [ SSI_TM, SSI_PAR, SSI_ERRB, SSI_GRAY, SSI_FBITS, SSI_LEN],
   [ STATUS_STATE, STATUS_SSIOVR, STATUS_HELDEV, STATUS_MASKED, STATUS_DEBTEV, STATUS_LOST],
   [ DEBT],
   [ DEBTMAX],
   [ COUNT],
   [ DROP]]
end Em

namespace Lu
def CFG_FILT : Fld := { off := 0x8, hi := 31, lo := 24, acc := .rwo }
def CFG_EVQ : Fld := { off := 0x8, hi := 23, lo := 20, acc := .rwo, rst := fun _ => 10 }
def CFG_AXIS : Fld := { off := 0x8, hi := 19, lo := 16, acc := .rwo }
def CFG_EDGE : Fld := { off := 0x8, hi := 15, lo := 14, acc := .rwo, rst := fun _ => 1 }
def CFG_MODE : Fld := { off := 0x8, hi := 13, lo := 13, acc := .rwo }
def CFG_ONESHOT : Fld := { off := 0x8, hi := 12, lo := 12, acc := .rwo }
def CFG_ARM : Fld := { off := 0x8, hi := 11, lo := 11, acc := .wo }
def CFG_SWTRIG : Fld := { off := 0x8, hi := 10, lo := 10, acc := .wo }
def CFG_EN : Fld := { off := 0x8, hi := 6, lo := 6, acc := .rw }
def CFG_PT : Fld := { off := 0x8, hi := 5, lo := 0, acc := .rwo }
def STATUS_RECCNT : Fld := { off := 0xC, hi := 31, lo := 16, acc := .ro }
def STATUS_OVF : Fld := { off := 0xC, hi := 3, lo := 3, acc := .w1c }
def STATUS_XEV : Fld := { off := 0xC, hi := 2, lo := 2, acc := .w1c }
def STATUS_ARMED : Fld := { off := 0xC, hi := 1, lo := 1, acc := .ro }
def STATUS_RECEV : Fld := { off := 0xC, hi := 0, lo := 0, acc := .w1c }
def TIME : Fld := { off := 0x10, hi := 31, lo := 0, acc := .ro }
def POS_LO : Fld := { off := 0x14, hi := 31, lo := 0, acc := .snap }
def POS_HI : Fld := { off := 0x18, hi := 31, lo := 0, acc := .snap }
def REC0 : Fld := { off := 0x1C, hi := 31, lo := 0, acc := .snap }
/-- Every register of the block, each the list of its fields. -/
def regs : List (List Fld) :=
  [ [ CFG_FILT, CFG_EVQ, CFG_AXIS, CFG_EDGE, CFG_MODE, CFG_ONESHOT, CFG_ARM, CFG_SWTRIG, CFG_EN, CFG_PT],
   [ STATUS_RECCNT, STATUS_OVF, STATUS_XEV, STATUS_ARMED, STATUS_RECEV],
   [ TIME],
   [ POS_LO],
   [ POS_HI],
   [ REC0]]
end Lu

namespace Lc
def SUMMARY : Fld := { off := 0x8, hi := 31, lo := 0, acc := .ro }
/-- Every register of the block, each the list of its fields. -/
def regs : List (List Fld) :=
  [ [ SUMMARY]]
end Lc

namespace Sec
def CFG_HYST : Fld := { off := 0x8, hi := 31, lo := 20, acc := .rw }
def CFG_AXIS : Fld := { off := 0x8, hi := 19, lo := 16, acc := .rwo }
def CFG_EVQ : Fld := { off := 0x8, hi := 15, lo := 12, acc := .rw, rst := fun _ => 1 }
def CFG_EVT : Fld := { off := 0x8, hi := 11, lo := 11, acc := .rw }
def CFG_MODE : Fld := { off := 0x8, hi := 10, lo := 10, acc := .rwo }
def CFG_POL : Fld := { off := 0x8, hi := 9, lo := 9, acc := .rw }
def CFG_PTEN : Fld := { off := 0x8, hi := 8, lo := 8, acc := .rw }
def CFG_EN : Fld := { off := 0x8, hi := 7, lo := 7, acc := .rw }
def CFG_PT : Fld := { off := 0x8, hi := 5, lo := 0, acc := .rw }
def LO_L : Fld := { off := 0xC, hi := 31, lo := 0, acc := .rw }
def LO_H : Fld := { off := 0x10, hi := 31, lo := 0, acc := .rw }
def HI_L : Fld := { off := 0x14, hi := 31, lo := 0, acc := .rw }
def HI_H : Fld := { off := 0x18, hi := 31, lo := 0, acc := .rw }
def STATUS_CNT : Fld := { off := 0x1C, hi := 31, lo := 16, acc := .ro }
def STATUS_CFGERR : Fld := { off := 0x1C, hi := 5, lo := 5, acc := .w1c }
def STATUS_SKIPEV : Fld := { off := 0x1C, hi := 4, lo := 4, acc := .w1c }
def STATUS_STALE : Fld := { off := 0x1C, hi := 3, lo := 3, acc := .ro }
def STATUS_EXITEV : Fld := { off := 0x1C, hi := 2, lo := 2, acc := .w1c }
def STATUS_ENTEV : Fld := { off := 0x1C, hi := 1, lo := 1, acc := .w1c }
def STATUS_IN : Fld := { off := 0x1C, hi := 0, lo := 0, acc := .ro }
/-- Every register of the block, each the list of its fields. -/
def regs : List (List Fld) :=
  [ [ CFG_HYST, CFG_AXIS, CFG_EVQ, CFG_EVT, CFG_MODE, CFG_POL, CFG_PTEN, CFG_EN, CFG_PT],
   [ LO_L],
   [ LO_H],
   [ HI_L],
   [ HI_H],
   [ STATUS_CNT, STATUS_CFGERR, STATUS_SKIPEV, STATUS_STALE, STATUS_EXITEV, STATUS_ENTEV, STATUS_IN]]
end Sec

namespace Rs
def CFG_EVQ : Fld := { off := 0x8, hi := 15, lo := 12, acc := .rw, rst := fun _ => 11 }
def CFG_ACC : Fld := { off := 0x8, hi := 10, lo := 10, acc := .rwo }
def CFG_REC : Fld := { off := 0x8, hi := 9, lo := 8, acc := .rwo, rst := fun _ => 2, rng := .nearest 0 2 }
def CFG_AXIS : Fld := { off := 0x8, hi := 7, lo := 4, acc := .rwo, rst := fun n => n }
def CFG_EN : Fld := { off := 0x8, hi := 0, lo := 0, acc := .rw }
def PERIOD : Fld := { off := 0xC, hi := 31, lo := 0, acc := .rwo, rst := fun _ => 62500, rng := .nearest 1280 100000000 }
def PHASE : Fld := { off := 0x10, hi := 31, lo := 0, acc := .rwo }
def STATUS_RECCNT : Fld := { off := 0x14, hi := 31, lo := 16, acc := .ro }
def STATUS_STATE : Fld := { off := 0x14, hi := 9, lo := 8, acc := .ro }
def STATUS_VSATEV : Fld := { off := 0x14, hi := 5, lo := 5, acc := .w1c }
def STATUS_DROPEV : Fld := { off := 0x14, hi := 4, lo := 4, acc := .w1c }
def STATUS_HELDEV : Fld := { off := 0x14, hi := 3, lo := 3, acc := .w1c }
def STATUS_SHORTEV : Fld := { off := 0x14, hi := 2, lo := 2, acc := .w1c }
def STATUS_GBEV : Fld := { off := 0x14, hi := 1, lo := 1, acc := .w1c }
def STATUS_RECEV : Fld := { off := 0x14, hi := 0, lo := 0, acc := .w1c }
def TSERVO : Fld := { off := 0x18, hi := 31, lo := 0, acc := .ro }
def POS_LO : Fld := { off := 0x1C, hi := 31, lo := 0, acc := .snap }
def POS_HI : Fld := { off := 0x20, hi := 31, lo := 0, acc := .snap }
def VEL : Fld := { off := 0x24, hi := 31, lo := 0, acc := .snap }
def W0 : Fld := { off := 0x28, hi := 31, lo := 0, acc := .snap }
def SHOUT : Fld := { off := 0x2C, hi := 31, lo := 0, acc := .snap }
def EPOCH : Fld := { off := 0x30, hi := 15, lo := 0, acc := .snap }
def LEAD : Fld := { off := 0x34, hi := 15, lo := 0, acc := .snap }
def SH_CTRL_SHEN : Fld := { off := 0x38, hi := 17, lo := 17, acc := .rw }
def SH_CTRL_SRC : Fld := { off := 0x38, hi := 16, lo := 16, acc := .rw }
def SH_CTRL_FADE : Fld := { off := 0x38, hi := 10, lo := 0, acc := .rw, rst := fun _ => 64, rng := .nearest 1 1024 }
def SH_CMD_TGT : Fld := { off := 0x3C, hi := 1, lo := 1, acc := .wo }
def SH_CMD_REQ : Fld := { off := 0x3C, hi := 0, lo := 0, acc := .wo }
def SH_IN : Fld := { off := 0x40, hi := 31, lo := 0, acc := .rw }
def SH_STATUS_NOP : Fld := { off := 0x44, hi := 12, lo := 12, acc := .w1c }
def SH_STATUS_REQREPL : Fld := { off := 0x44, hi := 11, lo := 11, acc := .w1c }
def SH_STATUS_FADEEV : Fld := { off := 0x44, hi := 10, lo := 10, acc := .w1c }
def SH_STATUS_WREJ : Fld := { off := 0x44, hi := 9, lo := 9, acc := .w1c }
def SH_STATUS_SAT : Fld := { off := 0x44, hi := 8, lo := 8, acc := .w1c }
def SH_STATUS_REQTGT : Fld := { off := 0x44, hi := 3, lo := 3, acc := .ro }
def SH_STATUS_REQPEND : Fld := { off := 0x44, hi := 2, lo := 2, acc := .ro }
def SH_STATUS_FADING : Fld := { off := 0x44, hi := 1, lo := 1, acc := .ro }
def SH_STATUS_ACTIVE : Fld := { off := 0x44, hi := 0, lo := 0, acc := .ro }
def SHCOEF_A (c : Nat) : Fld := { off := 0x60 + 0x4 * c, hi := 31, lo := 0, acc := .rw, rst := fun _ => if c % 5 = 0 then 0x20000000 else 0 }
def SHCOEF_B (c : Nat) : Fld := { off := 0xB0 + 0x4 * c, hi := 31, lo := 0, acc := .rw, rst := fun _ => if c % 5 = 0 then 0x20000000 else 0 }
/-- Every register of the block, each the list of its fields. -/
def regs : List (List Fld) :=
  [ [ CFG_EVQ, CFG_ACC, CFG_REC, CFG_AXIS, CFG_EN],
   [ PERIOD],
   [ PHASE],
   [ STATUS_RECCNT, STATUS_STATE, STATUS_VSATEV, STATUS_DROPEV, STATUS_HELDEV, STATUS_SHORTEV, STATUS_GBEV, STATUS_RECEV],
   [ TSERVO],
   [ POS_LO],
   [ POS_HI],
   [ VEL],
   [ W0],
   [ SHOUT],
   [ EPOCH],
   [ LEAD],
   [ SH_CTRL_SHEN, SH_CTRL_SRC, SH_CTRL_FADE],
   [ SH_CMD_TGT, SH_CMD_REQ],
   [ SH_IN],
   [ SH_STATUS_NOP, SH_STATUS_REQREPL, SH_STATUS_FADEEV, SH_STATUS_WREJ, SH_STATUS_SAT, SH_STATUS_REQTGT, SH_STATUS_REQPEND, SH_STATUS_FADING, SH_STATUS_ACTIVE]]
  ++ (List.range 20).map (fun k => [ SHCOEF_A k])
  ++ (List.range 20).map (fun k => [ SHCOEF_B k])
end Rs

namespace Lpe
def LOAD : Fld := { off := 0x8, hi := 15, lo := 0, acc := .ro }
def RG_CFG_EN (k : Nat) : Fld := { off := 0x10 + 0x10 * k, hi := 31, lo := 31, acc := .rw }
def RG_CFG_LOCK (k : Nat) : Fld := { off := 0x10 + 0x10 * k, hi := 30, lo := 30, acc := .rw }
def RG_CFG_LANE (k : Nat) : Fld := { off := 0x10 + 0x10 * k, hi := 27, lo := 24, acc := .rw, rst := fun _ => k }
def RG_CFG_N (k : Nat) : Fld := { off := 0x10 + 0x10 * k, hi := 15, lo := 0, acc := .rw, rst := fun _ => 50, rng := .nearest 4 65535 }
def RG_PHASE (k : Nat) : Fld := { off := 0x14 + 0x10 * k, hi := 31, lo := 0, acc := .rw }
def RG_STATUS_OVRCNT (k : Nat) : Fld := { off := 0x18 + 0x10 * k, hi := 31, lo := 16, acc := .ro }
def RG_STATUS_CFGREJ (k : Nat) : Fld := { off := 0x18 + 0x10 * k, hi := 3, lo := 3, acc := .w1c }
def RG_STATUS_NOLANEEV (k : Nat) : Fld := { off := 0x18 + 0x10 * k, hi := 2, lo := 2, acc := .w1c }
def RG_STATUS_OVREV (k : Nat) : Fld := { off := 0x18 + 0x10 * k, hi := 1, lo := 1, acc := .w1c }
def RG_STATUS_DONEEV (k : Nat) : Fld := { off := 0x18 + 0x10 * k, hi := 0, lo := 0, acc := .w1c }
def RG_T (k : Nat) : Fld := { off := 0x1C + 0x10 * k, hi := 31, lo := 0, acc := .ro }
/-- Every register of the block, each the list of its fields. -/
def regs : List (List Fld) :=
  [ [ LOAD]]
  ++ (List.range 4).map (fun k => [ RG_CFG_EN k, RG_CFG_LOCK k, RG_CFG_LANE k, RG_CFG_N k])
  ++ (List.range 4).map (fun k => [ RG_PHASE k])
  ++ (List.range 4).map (fun k => [ RG_STATUS_OVRCNT k, RG_STATUS_CFGREJ k, RG_STATUS_NOLANEEV k, RG_STATUS_OVREV k, RG_STATUS_DONEEV k])
  ++ (List.range 4).map (fun k => [ RG_T k])
end Lpe

namespace Lp
def CFG_RG : Fld := { off := 0x8, hi := 31, lo := 30, acc := .rwo }
def CFG_AXIS : Fld := { off := 0x8, hi := 29, lo := 26, acc := .rwo, rst := fun n => n % 16 }
def CFG_ROLE : Fld := { off := 0x8, hi := 25, lo := 24, acc := .rwo }
def CFG_MEAS : Fld := { off := 0x8, hi := 23, lo := 22, acc := .rwo }
def CFG_AIN : Fld := { off := 0x8, hi := 21, lo := 19, acc := .rwo }
def CFG_REFSRC : Fld := { off := 0x8, hi := 18, lo := 18, acc := .rwo }
def CFG_RLOOP : Fld := { off := 0x8, hi := 17, lo := 12, acc := .rwo }
def CFG_ESH : Fld := { off := 0x8, hi := 4, lo := 0, acc := .rwo, rng := .nearest 0 16 }
def CTRL_RLIM : Fld := { off := 0xC, hi := 2, lo := 2, acc := .rwo }
def CTRL_RVINIT : Fld := { off := 0xC, hi := 1, lo := 1, acc := .rwo }
def CTRL_BANK : Fld := { off := 0xC, hi := 0, lo := 0, acc := .rwo }
def CMD : Fld := { off := 0x10, hi := 2, lo := 0, acc := .wo }
def STATUS_STATE : Fld := { off := 0x14, hi := 18, lo := 16, acc := .ro }
def STATUS_NOLANE : Fld := { off := 0x14, hi := 11, lo := 11, acc := .ro }
def STATUS_WIN : Fld := { off := 0x14, hi := 10, lo := 10, acc := .ro }
def STATUS_USAT : Fld := { off := 0x14, hi := 9, lo := 9, acc := .ro }
def STATUS_ISAT : Fld := { off := 0x14, hi := 8, lo := 8, acc := .ro }
def STATUS_SKIPEV : Fld := { off := 0x14, hi := 6, lo := 6, acc := .w1c }
def STATUS_HOLDEV : Fld := { off := 0x14, hi := 5, lo := 5, acc := .w1c }
def STATUS_SAFEEV : Fld := { off := 0x14, hi := 4, lo := 4, acc := .w1c }
def STATUS_CLOSEDEV : Fld := { off := 0x14, hi := 3, lo := 3, acc := .w1c }
def STATUS_SATEV : Fld := { off := 0x14, hi := 2, lo := 2, acc := .w1c }
def STATUS_CWREJ : Fld := { off := 0x14, hi := 1, lo := 1, acc := .w1c }
def STATUS_CMDREJ : Fld := { off := 0x14, hi := 0, lo := 0, acc := .w1c }
def TARGET_LO : Fld := { off := 0x18, hi := 31, lo := 0, acc := .rw }
def TARGET_HI : Fld := { off := 0x1C, hi := 31, lo := 0, acc := .rw }
def FF : Fld := { off := 0x20, hi := 31, lo := 0, acc := .rw }
def YIN : Fld := { off := 0x24, hi := 31, lo := 0, acc := .rw }
def UMAN : Fld := { off := 0x28, hi := 31, lo := 0, acc := .rw }
def RV : Fld := { off := 0x2C, hi := 31, lo := 0, acc := .rw }
def RA : Fld := { off := 0x30, hi := 31, lo := 0, acc := .rw }
def SKIP : Fld := { off := 0x34, hi := 31, lo := 0, acc := .ro }
def ISET : Fld := { off := 0x3C, hi := 31, lo := 0, acc := .rwo }
def U : Fld := { off := 0x40, hi := 31, lo := 0, acc := .ro }
def E : Fld := { off := 0x44, hi := 31, lo := 0, acc := .snap }
def I : Fld := { off := 0x48, hi := 31, lo := 0, acc := .snap }
def R_LO : Fld := { off := 0x4C, hi := 31, lo := 0, acc := .snap }
def R_HI : Fld := { off := 0x50, hi := 31, lo := 0, acc := .snap }
def TU : Fld := { off := 0x54, hi := 31, lo := 0, acc := .snap }
def COEF_A (c : Nat) : Fld := { off := 0x60 + 0x4 * c, hi := if c = 8 then 5 else 31, lo := 0, acc := .rwo, rst := fun _ => coefReset c }
def COEF_B (c : Nat) : Fld := { off := 0xA0 + 0x4 * c, hi := if c = 8 then 5 else 31, lo := 0, acc := .rwo, rst := fun _ => coefReset c }
/-- Every register of the block, each the list of its fields. -/
def regs : List (List Fld) :=
  [ [ CFG_RG, CFG_AXIS, CFG_ROLE, CFG_MEAS, CFG_AIN, CFG_REFSRC, CFG_RLOOP, CFG_ESH],
   [ CTRL_RLIM, CTRL_RVINIT, CTRL_BANK],
   [ CMD],
   [ STATUS_STATE, STATUS_NOLANE, STATUS_WIN, STATUS_USAT, STATUS_ISAT, STATUS_SKIPEV, STATUS_HOLDEV, STATUS_SAFEEV, STATUS_CLOSEDEV, STATUS_SATEV, STATUS_CWREJ, STATUS_CMDREJ],
   [ TARGET_LO],
   [ TARGET_HI],
   [ FF],
   [ YIN],
   [ UMAN],
   [ RV],
   [ RA],
   [ SKIP],
   [ ISET],
   [ U],
   [ E],
   [ I],
   [ R_LO],
   [ R_HI],
   [ TU]]
  ++ (List.range 13).map (fun k => [ COEF_A k])
  ++ (List.range 13).map (fun k => [ COEF_B k])
end Lp

namespace Cap
def CFG_EVQ : Fld := { off := 0x8, hi := 7, lo := 4, acc := .rwo, rst := fun _ => 13 }
def CFG_ROLL : Fld := { off := 0x8, hi := 3, lo := 3, acc := .rwo }
def CFG_NCH : Fld := { off := 0x8, hi := 1, lo := 0, acc := .rwo, rst := fun _ => 1 }
def CLK_DIV : Fld := { off := 0xC, hi := 31, lo := 16, acc := .rwo }
def CLK_IDX : Fld := { off := 0xC, hi := 7, lo := 4, acc := .rwo }
def CLK_SRC : Fld := { off := 0xC, hi := 1, lo := 0, acc := .rwo, rng := .zeroFrom 3 }
def TRIG_DLY : Fld := { off := 0x10, hi := 31, lo := 16, acc := .rwo }
def TRIG_IDX : Fld := { off := 0x10, hi := 9, lo := 4, acc := .rwo }
def TRIG_MODE : Fld := { off := 0x10, hi := 2, lo := 0, acc := .rwo, rng := .zeroFrom 6 }
def THR : Fld := { off := 0x14, hi := 31, lo := 0, acc := .rwo }
def LEN_PRE : Fld := { off := 0x18, hi := 30, lo := 16, acc := .rwo }
def LEN_LEN : Fld := { off := 0x18, hi := 14, lo := 0, acc := .rwo, rst := fun _ => 8192 }
def CMD_TRIG : Fld := { off := 0x1C, hi := 2, lo := 2, acc := .wo }
def CMD_STOP : Fld := { off := 0x1C, hi := 1, lo := 1, acc := .wo }
def CMD_ARM : Fld := { off := 0x1C, hi := 0, lo := 0, acc := .wo }
def STATUS_STATE : Fld := { off := 0x20, hi := 18, lo := 16, acc := .ro }
def STATUS_CUT : Fld := { off := 0x20, hi := 5, lo := 5, acc := .w1c }
def STATUS_SHORTPRE : Fld := { off := 0x20, hi := 4, lo := 4, acc := .w1c }
def STATUS_GB : Fld := { off := 0x20, hi := 3, lo := 3, acc := .w1c }
def STATUS_SKIPEV : Fld := { off := 0x20, hi := 2, lo := 2, acc := .w1c }
def STATUS_TRIGEV : Fld := { off := 0x20, hi := 1, lo := 1, acc := .w1c }
def STATUS_DONEEV : Fld := { off := 0x20, hi := 0, lo := 0, acc := .w1c }
def WP : Fld := { off := 0x24, hi := 13, lo := 0, acc := .ro }
def RP : Fld := { off := 0x28, hi := 13, lo := 0, acc := .snap }
def OVR : Fld := { off := 0x2C, hi := 31, lo := 0, acc := .snap }
def WRAPS : Fld := { off := 0x30, hi := 31, lo := 0, acc := .snap }
def TIDX_TIDX : Fld := { off := 0x34, hi := 31, lo := 16, acc := .ro }
def TIDX_NPRE : Fld := { off := 0x34, hi := 15, lo := 0, acc := .ro }
def TTIME : Fld := { off := 0x38, hi := 31, lo := 0, acc := .ro }
def GBIDX : Fld := { off := 0x3C, hi := 13, lo := 0, acc := .ro }
def RPSKIP : Fld := { off := 0x40, hi := 31, lo := 0, acc := .ro }
def SKIPCNT : Fld := { off := 0x44, hi := 31, lo := 0, acc := .ro }
def SRC (k : Nat) : Fld := { off := 0x60 + 0x4 * k, hi := 15, lo := 0, acc := .rwo }
/-- Every register of the block, each the list of its fields. -/
def regs : List (List Fld) :=
  [ [ CFG_EVQ, CFG_ROLL, CFG_NCH],
   [ CLK_DIV, CLK_IDX, CLK_SRC],
   [ TRIG_DLY, TRIG_IDX, TRIG_MODE],
   [ THR],
   [ LEN_PRE, LEN_LEN],
   [ CMD_TRIG, CMD_STOP, CMD_ARM],
   [ STATUS_STATE, STATUS_CUT, STATUS_SHORTPRE, STATUS_GB, STATUS_SKIPEV, STATUS_TRIGEV, STATUS_DONEEV],
   [ WP],
   [ RP],
   [ OVR],
   [ WRAPS],
   [ TIDX_TIDX, TIDX_NPRE],
   [ TTIME],
   [ GBIDX],
   [ RPSKIP],
   [ SKIPCNT]]
  ++ (List.range 8).map (fun k => [ SRC k])
end Cap

namespace Inj
def CFG_TAPER : Fld := { off := 0x8, hi := 31, lo := 16, acc := .rwo }
def CFG_Q : Fld := { off := 0x8, hi := 15, lo := 12, acc := .rwo, rst := fun _ => 2 }
def CFG_MODE : Fld := { off := 0x8, hi := 11, lo := 10, acc := .rwo }
def CFG_POINT : Fld := { off := 0x8, hi := 9, lo := 8, acc := .rwo, rst := fun _ => 2 }
def CFG_LOOP : Fld := { off := 0x8, hi := 5, lo := 0, acc := .rwo }
def AMP : Fld := { off := 0xC, hi := 31, lo := 0, acc := .rwo }
def F0 : Fld := { off := 0x10, hi := 31, lo := 0, acc := .rwo }
def F1 : Fld := { off := 0x14, hi := 31, lo := 0, acc := .rwo }
def N : Fld := { off := 0x18, hi := 31, lo := 0, acc := .rwo }
def CMD_STOP : Fld := { off := 0x1C, hi := 2, lo := 2, acc := .wo }
def CMD_START : Fld := { off := 0x1C, hi := 1, lo := 1, acc := .wo }
def CMD_ARM : Fld := { off := 0x1C, hi := 0, lo := 0, acc := .wo }
def STATUS_STATE : Fld := { off := 0x20, hi := 18, lo := 16, acc := .ro }
def STATUS_BADREC : Fld := { off := 0x20, hi := 6, lo := 6, acc := .w1c }
def STATUS_UNDER : Fld := { off := 0x20, hi := 5, lo := 5, acc := .w1c }
def STATUS_SKIPEV : Fld := { off := 0x20, hi := 4, lo := 4, acc := .w1c }
def STATUS_REFUSED : Fld := { off := 0x20, hi := 3, lo := 3, acc := .w1c }
def STATUS_ABORTEV : Fld := { off := 0x20, hi := 2, lo := 2, acc := .w1c }
def STATUS_DONEEV : Fld := { off := 0x20, hi := 1, lo := 1, acc := .w1c }
def OUT : Fld := { off := 0x24, hi := 31, lo := 0, acc := .ro }
def UNDERCNT : Fld := { off := 0x28, hi := 31, lo := 0, acc := .ro }
/-- Every register of the block, each the list of its fields. -/
def regs : List (List Fld) :=
  [ [ CFG_TAPER, CFG_Q, CFG_MODE, CFG_POINT, CFG_LOOP],
   [ AMP],
   [ F0],
   [ F1],
   [ N],
   [ CMD_STOP, CMD_START, CMD_ARM],
   [ STATUS_STATE, STATUS_BADREC, STATUS_UNDER, STATUS_SKIPEV, STATUS_REFUSED, STATUS_ABORTEV, STATUS_DONEEV],
   [ OUT],
   [ UNDERCNT]]
end Inj

namespace Le
def CMD_SWI : Fld := { off := 0x8, hi := 8, lo := 8, acc := .wo }
def CMD_CMD : Fld := { off := 0x8, hi := 2, lo := 0, acc := .wo }
def ENTRY : Fld := { off := 0xC, hi := 13, lo := 0, acc := .rwo }
def IVEC : Fld := { off := 0x10, hi := 13, lo := 0, acc := .rwo }
def STATUS_STATE : Fld := { off := 0x14, hi := 18, lo := 16, acc := .ro }
def STATUS_LEVEL : Fld := { off := 0x14, hi := 8, lo := 8, acc := .ro }
def STATUS_CNOBLK : Fld := { off := 0x14, hi := 6, lo := 6, acc := .w1c }
def STATUS_CWREJ : Fld := { off := 0x14, hi := 5, lo := 5, acc := .w1c }
def STATUS_WDOGEV : Fld := { off := 0x14, hi := 4, lo := 4, acc := .w1c }
def STATUS_FAULTEV : Fld := { off := 0x14, hi := 3, lo := 3, acc := .w1c }
def STATUS_HALTEV : Fld := { off := 0x14, hi := 2, lo := 2, acc := .w1c }
def STATUS_CMDREJ : Fld := { off := 0x14, hi := 1, lo := 1, acc := .w1c }
def PC : Fld := { off := 0x18, hi := 13, lo := 0, acc := .ro }
def FAULT_CAUSE : Fld := { off := 0x1C, hi := 31, lo := 28, acc := .ro }
def FAULT_PC : Fld := { off := 0x1C, hi := 13, lo := 0, acc := .ro }
def IEN_GIE : Fld := { off := 0x20, hi := 31, lo := 31, acc := .rwo }
def IEN_IEN : Fld := { off := 0x20, hi := 4, lo := 0, acc := .rwo }
def IPEND : Fld := { off := 0x24, hi := 4, lo := 0, acc := .w1c }
def FBAXES : Fld := { off := 0x28, hi := 15, lo := 0, acc := .w1c }
def MBQ : Fld := { off := 0x2C, hi := 3, lo := 0, acc := .rwo, rst := fun n => 2 + n }
def WDOG : Fld := { off := 0x30, hi := 15, lo := 0, acc := .rw }
def REJADDR : Fld := { off := 0x34, hi := 31, lo := 0, acc := .ro }
def CYC_LO : Fld := { off := 0x38, hi := 31, lo := 0, acc := .ro }
def CYC_HI : Fld := { off := 0x3C, hi := 31, lo := 0, acc := .snap }
def STALL : Fld := { off := 0x40, hi := 31, lo := 0, acc := .ro }
/-- Every register of the block, each the list of its fields. -/
def regs : List (List Fld) :=
  [ [ CMD_SWI, CMD_CMD],
   [ ENTRY],
   [ IVEC],
   [ STATUS_STATE, STATUS_LEVEL, STATUS_CNOBLK, STATUS_CWREJ, STATUS_WDOGEV, STATUS_FAULTEV, STATUS_HALTEV, STATUS_CMDREJ],
   [ PC],
   [ FAULT_CAUSE, FAULT_PC],
   [ IEN_GIE, IEN_IEN],
   [ IPEND],
   [ FBAXES],
   [ MBQ],
   [ WDOG],
   [ REJADDR],
   [ CYC_LO],
   [ CYC_HI],
   [ STALL]]
end Le

namespace Q
def CFG_WRMASK : Fld := { off := 0x8, hi := 25, lo := 16, acc := .rwo, rst := queueMask }
def CFG_CLASS : Fld := { off := 0x8, hi := 13, lo := 12, acc := .rwo, rst := queueClass, rng := .zeroFrom 3 }
def CFG_POLICY : Fld := { off := 0x8, hi := 9, lo := 8, acc := .rwo, rst := queuePolicy, rng := .zeroFrom 3 }
def CFG_EN : Fld := { off := 0x8, hi := 0, lo := 0, acc := .rw, rst := fun _ => 1 }
def BASE : Fld := { off := 0xC, hi := 18, lo := 4, acc := .rwo, rst := queueBase }
def LEN : Fld := { off := 0x10, hi := 14, lo := 0, acc := .rw, rst := queueLen, rng := .nearest 4 16384 }
def LENSTG : Fld := { off := 0x14, hi := 14, lo := 0, acc := .ro }
def LEVEL_HIGH : Fld := { off := 0x18, hi := 31, lo := 16, acc := .ro }
def LEVEL_LEVEL : Fld := { off := 0x18, hi := 15, lo := 0, acc := .ro }
def PTR_WP : Fld := { off := 0x1C, hi := 31, lo := 16, acc := .ro }
def PTR_RP : Fld := { off := 0x1C, hi := 15, lo := 0, acc := .ro }
def THR : Fld := { off := 0x20, hi := 15, lo := 0, acc := .rw, rst := fun _ => 1 }
def STATUS_LENPEND : Fld := { off := 0x24, hi := 18, lo := 18, acc := .ro }
def STATUS_FULL : Fld := { off := 0x24, hi := 17, lo := 17, acc := .ro }
def STATUS_EMPTY : Fld := { off := 0x24, hi := 16, lo := 16, acc := .ro, rst := fun _ => 1 }
def STATUS_GAPPEND : Fld := { off := 0x24, hi := 9, lo := 9, acc := .ro }
def STATUS_CFGERR : Fld := { off := 0x24, hi := 8, lo := 8, acc := .w1c }
def STATUS_BADREC : Fld := { off := 0x24, hi := 7, lo := 7, acc := .w1c }
def STATUS_THREV : Fld := { off := 0x24, hi := 6, lo := 6, acc := .w1c }
def STATUS_WREFUSED : Fld := { off := 0x24, hi := 5, lo := 5, acc := .w1c }
def STATUS_FDROP : Fld := { off := 0x24, hi := 4, lo := 4, acc := .w1c }
def STATUS_SKIPEV : Fld := { off := 0x24, hi := 2, lo := 2, acc := .w1c }
def STATUS_OWR : Fld := { off := 0x24, hi := 1, lo := 1, acc := .w1c }
def STATUS_DROP : Fld := { off := 0x24, hi := 0, lo := 0, acc := .w1c }
def CMD_CNTCLR : Fld := { off := 0x28, hi := 1, lo := 1, acc := .wo }
def CMD_FLUSH : Fld := { off := 0x28, hi := 0, lo := 0, acc := .wo }
def DROPCNT : Fld := { off := 0x2C, hi := 31, lo := 0, acc := .ro }
def OWRCNT : Fld := { off := 0x30, hi := 31, lo := 0, acc := .ro }
def SKIPCNT : Fld := { off := 0x34, hi := 31, lo := 0, acc := .ro }
def POP : Fld := { off := 0x40, hi := 31, lo := 0, acc := .ro }
def POPW1 : Fld := { off := 0x44, hi := 31, lo := 0, acc := .snap }
def POPW2 : Fld := { off := 0x48, hi := 31, lo := 0, acc := .snap }
def POPW3 : Fld := { off := 0x4C, hi := 31, lo := 0, acc := .snap }
def PUSH0 : Fld := { off := 0x50, hi := 31, lo := 0, acc := .wo }
def PUSH1 : Fld := { off := 0x54, hi := 31, lo := 0, acc := .wo }
def PUSH2 : Fld := { off := 0x58, hi := 31, lo := 0, acc := .wo }
def PUSH3 : Fld := { off := 0x5C, hi := 31, lo := 0, acc := .wo }
/-- Every register of the block, each the list of its fields. -/
def regs : List (List Fld) :=
  [ [ CFG_WRMASK, CFG_CLASS, CFG_POLICY, CFG_EN],
   [ BASE],
   [ LEN],
   [ LENSTG],
   [ LEVEL_HIGH, LEVEL_LEVEL],
   [ PTR_WP, PTR_RP],
   [ THR],
   [ STATUS_LENPEND, STATUS_FULL, STATUS_EMPTY, STATUS_GAPPEND, STATUS_CFGERR, STATUS_BADREC, STATUS_THREV, STATUS_WREFUSED, STATUS_FDROP, STATUS_SKIPEV, STATUS_OWR, STATUS_DROP],
   [ CMD_CNTCLR, CMD_FLUSH],
   [ DROPCNT],
   [ OWRCNT],
   [ SKIPCNT],
   [ POP],
   [ POPW1],
   [ POPW2],
   [ POPW3],
   [ PUSH0],
   [ PUSH1],
   [ PUSH2],
   [ PUSH3]]
end Q

namespace Qc
def FENCE_SRC : Fld := { off := 0x8, hi := 31, lo := 0, acc := .rw }
def FENCE_CMD_ID : Fld := { off := 0xC, hi := 31, lo := 16, acc := .wo }
def FENCE_CMD_TARGETS : Fld := { off := 0xC, hi := 15, lo := 0, acc := .wo }
def NONEMPTY : Fld := { off := 0x10, hi := 15, lo := 0, acc := .ro }
def LOSS : Fld := { off := 0x14, hi := 15, lo := 0, acc := .ro }
def INBUF : Fld := { off := 0x18, hi := 5, lo := 0, acc := .ro }
/-- Every register of the block, each the list of its fields. -/
def regs : List (List Fld) :=
  [ [ FENCE_SRC],
   [ FENCE_CMD_ID, FENCE_CMD_TARGETS],
   [ NONEMPTY],
   [ LOSS],
   [ INBUF]]
end Qc

namespace Ec
def CFG : Fld := { off := 0x8, hi := 0, lo := 0, acc := .rw }
def STATE_ALMIN : Fld := { off := 0xC, hi := 4, lo := 4, acc := .ro }
def STATE_ALMOUT : Fld := { off := 0xC, hi := 3, lo := 3, acc := .ro }
def STATE_SAFEIN : Fld := { off := 0xC, hi := 2, lo := 2, acc := .ro }
def STATE_SAFE : Fld := { off := 0xC, hi := 1, lo := 1, acc := .ro }
def STATE_FATAL : Fld := { off := 0xC, hi := 0, lo := 0, acc := .ro }
def CMD_KEY : Fld := { off := 0x10, hi := 31, lo := 16, acc := .wo }
def CMD_FORCEFATAL : Fld := { off := 0x10, hi := 8, lo := 8, acc := .wo }
def CMD_RRESET : Fld := { off := 0x10, hi := 3, lo := 0, acc := .wo }
def GRADE_ISO : Fld := { off := 0x14, hi := 11, lo := 10, acc := .rw }
def GRADE_CELL : Fld := { off := 0x14, hi := 9, lo := 8, acc := .rw, rst := fun _ => 1 }
def GRADE_ECC_U : Fld := { off := 0x14, hi := 7, lo := 6, acc := .rw, rst := fun _ => 2 }
def GRADE_ECC_C : Fld := { off := 0x14, hi := 5, lo := 4, acc := .rw }
def GRADE_RUNW : Fld := { off := 0x14, hi := 3, lo := 2, acc := .rw }
def GRADE_OWN : Fld := { off := 0x14, hi := 1, lo := 0, acc := .rw }
def ISOEN : Fld := { off := 0x18, hi := 5, lo := 0, acc := .rw }
def FATALCODE : Fld := { off := 0x1C, hi := 31, lo := 16, acc := .ro }
def FATALSRC : Fld := { off := 0x20, hi := 31, lo := 0, acc := .ro }
def FATALT : Fld := { off := 0x24, hi := 31, lo := 0, acc := .ro }
def RERR_RSTBUSY (k : Nat) : Fld := { off := 0x40 + 0x10 * k, hi := 13, lo := 13, acc := .ro }
def RERR_RSTDONE (k : Nat) : Fld := { off := 0x40 + 0x10 * k, hi := 12, lo := 12, acc := .w1c }
def RERR_STARVE (k : Nat) : Fld := { off := 0x40 + 0x10 * k, hi := 9, lo := 9, acc := .w1c }
def RERR_BUSERR (k : Nat) : Fld := { off := 0x40 + 0x10 * k, hi := 8, lo := 8, acc := .w1c }
def RERR_KINDS (k : Nat) : Fld := { off := 0x40 + 0x10 * k, hi := 5, lo := 0, acc := .w1c }
def RERRFIRST (k : Nat) : Fld := { off := 0x44 + 0x10 * k, hi := 31, lo := 0, acc := .ro }
def RERRFTIME (k : Nat) : Fld := { off := 0x48 + 0x10 * k, hi := 31, lo := 0, acc := .ro }
def RERRCNT (k : Nat) : Fld := { off := 0x4C + 0x10 * k, hi := 31, lo := 0, acc := .ro }
def FRZ_FRZCNT : Fld := { off := 0x80, hi := 31, lo := 16, acc := .ro }
def FRZ_FRZREJ : Fld := { off := 0x80, hi := 3, lo := 3, acc := .w1c }
def FRZ_RIGHT : Fld := { off := 0x80, hi := 0, lo := 0, acc := .ro }
def FRZCMD_GO : Fld := { off := 0x84, hi := 31, lo := 31, acc := .wo }
def FRZCMD_TIMEOUT : Fld := { off := 0x84, hi := 15, lo := 0, acc := .wo }
def FRZT : Fld := { off := 0x88, hi := 31, lo := 0, acc := .ro }
def FRZDUR : Fld := { off := 0x8C, hi := 31, lo := 0, acc := .ro }
def AT_STATUS_USED : Fld := { off := 0x800, hi := 23, lo := 16, acc := .ro }
def AT_STATUS_OVF : Fld := { off := 0x800, hi := 11, lo := 8, acc := .ro }
def AT_STATUS_NEWEV : Fld := { off := 0x800, hi := 0, lo := 0, acc := .w1c }
def AT_ACK_ALL : Fld := { off := 0x804, hi := 31, lo := 31, acc := .wo }
def AT_ACK_INDEX : Fld := { off := 0x804, hi := 7, lo := 0, acc := .wo }
def AT_RAISE_SRC : Fld := { off := 0x808, hi := 31, lo := 0, acc := .rw }
def AT_RAISE_CODE : Fld := { off := 0x80C, hi := 31, lo := 16, acc := .wo }
def AT_RAISE_GRADE : Fld := { off := 0x80C, hi := 15, lo := 14, acc := .wo }
def AT0_CODE (k : Nat) : Fld := { off := 0x1000 + 0x20 * k, hi := 31, lo := 16, acc := .ro }
def AT0_GRADE (k : Nat) : Fld := { off := 0x1000 + 0x20 * k, hi := 15, lo := 14, acc := .ro }
def AT0_VALID (k : Nat) : Fld := { off := 0x1000 + 0x20 * k, hi := 13, lo := 13, acc := .ro }
def AT0_ACKED (k : Nat) : Fld := { off := 0x1000 + 0x20 * k, hi := 12, lo := 12, acc := .ro }
def AT0_COND (k : Nat) : Fld := { off := 0x1000 + 0x20 * k, hi := 11, lo := 11, acc := .ro }
def AT1 (k : Nat) : Fld := { off := 0x1004 + 0x20 * k, hi := 31, lo := 0, acc := .snap }
def AT2 (k : Nat) : Fld := { off := 0x1008 + 0x20 * k, hi := 31, lo := 0, acc := .snap }
def AT3 (k : Nat) : Fld := { off := 0x100C + 0x20 * k, hi := 31, lo := 0, acc := .snap }
def AT4 (k : Nat) : Fld := { off := 0x1010 + 0x20 * k, hi := 31, lo := 0, acc := .snap }
def AT5_LASTEP (k : Nat) : Fld := { off := 0x1014 + 0x20 * k, hi := 31, lo := 16, acc := .snap }
def AT5_FIRSTEP (k : Nat) : Fld := { off := 0x1014 + 0x20 * k, hi := 15, lo := 0, acc := .snap }
/-- Every register of the block, each the list of its fields. -/
def regs : List (List Fld) :=
  [ [ CFG],
   [ STATE_ALMIN, STATE_ALMOUT, STATE_SAFEIN, STATE_SAFE, STATE_FATAL],
   [ CMD_KEY, CMD_FORCEFATAL, CMD_RRESET],
   [ GRADE_ISO, GRADE_CELL, GRADE_ECC_U, GRADE_ECC_C, GRADE_RUNW, GRADE_OWN],
   [ ISOEN],
   [ FATALCODE],
   [ FATALSRC],
   [ FATALT],
   [ FRZ_FRZCNT, FRZ_FRZREJ, FRZ_RIGHT],
   [ FRZCMD_GO, FRZCMD_TIMEOUT],
   [ FRZT],
   [ FRZDUR],
   [ AT_STATUS_USED, AT_STATUS_OVF, AT_STATUS_NEWEV],
   [ AT_ACK_ALL, AT_ACK_INDEX],
   [ AT_RAISE_SRC],
   [ AT_RAISE_CODE, AT_RAISE_GRADE]]
  ++ (List.range 4).map (fun k => [ RERR_RSTBUSY k, RERR_RSTDONE k, RERR_STARVE k, RERR_BUSERR k, RERR_KINDS k])
  ++ (List.range 4).map (fun k => [ RERRFIRST k])
  ++ (List.range 4).map (fun k => [ RERRFTIME k])
  ++ (List.range 4).map (fun k => [ RERRCNT k])
  ++ (List.range 132).map (fun k => [ AT0_CODE k, AT0_GRADE k, AT0_VALID k, AT0_ACKED k, AT0_COND k])
  ++ (List.range 132).map (fun k => [ AT1 k])
  ++ (List.range 132).map (fun k => [ AT2 k])
  ++ (List.range 132).map (fun k => [ AT3 k])
  ++ (List.range 132).map (fun k => [ AT4 k])
  ++ (List.range 132).map (fun k => [ AT5_LASTEP k, AT5_FIRSTEP k])
end Ec

namespace Evc
def CMD_CLRALL : Fld := { off := 0x8, hi := 1, lo := 1, acc := .wo }
def CMD_SNAPALL : Fld := { off := 0x8, hi := 0, lo := 0, acc := .wo }
def STIME : Fld := { off := 0xC, hi := 31, lo := 0, acc := .ro }
def OVF : Fld := { off := 0x10, hi := 31, lo := 0, acc := .w1c }
def EVCN_CFG_EN (k : Nat) : Fld := { off := 0x100 + 0x20 * k, hi := 31, lo := 31, acc := .rw }
def EVCN_CFG_CLR (k : Nat) : Fld := { off := 0x100 + 0x20 * k, hi := 30, lo := 30, acc := .wo }
def EVCN_CFG_KIND (k : Nat) : Fld := { off := 0x100 + 0x20 * k, hi := 29, lo := 28, acc := .rw, rng := .zeroFrom 2 }
def EVCN_CFG_BADSRC (k : Nat) : Fld := { off := 0x100 + 0x20 * k, hi := 26, lo := 26, acc := .ro }
def EVCN_CFG_BIT (k : Nat) : Fld := { off := 0x100 + 0x20 * k, hi := 20, lo := 16, acc := .rw }
def EVCN_CFG_IDX (k : Nat) : Fld := { off := 0x100 + 0x20 * k, hi := 15, lo := 8, acc := .rw }
def EVCN_CFG_CODE (k : Nat) : Fld := { off := 0x100 + 0x20 * k, hi := 7, lo := 0, acc := .rw }
def EVCN_SRC (k : Nat) : Fld := { off := 0x104 + 0x20 * k, hi := 31, lo := 0, acc := .rw }
def EVCN_LO (k : Nat) : Fld := { off := 0x108 + 0x20 * k, hi := 31, lo := 0, acc := .ro }
def EVCN_HI (k : Nat) : Fld := { off := 0x10C + 0x20 * k, hi := 15, lo := 0, acc := .snap }
def EVCN_SLO (k : Nat) : Fld := { off := 0x110 + 0x20 * k, hi := 31, lo := 0, acc := .ro }
def EVCN_SHI (k : Nat) : Fld := { off := 0x114 + 0x20 * k, hi := 15, lo := 0, acc := .ro }
/-- Every register of the block, each the list of its fields. -/
def regs : List (List Fld) :=
  [ [ CMD_CLRALL, CMD_SNAPALL],
   [ STIME],
   [ OVF]]
  ++ (List.range 32).map (fun k => [ EVCN_CFG_EN k, EVCN_CFG_CLR k, EVCN_CFG_KIND k, EVCN_CFG_BADSRC k, EVCN_CFG_BIT k, EVCN_CFG_IDX k, EVCN_CFG_CODE k])
  ++ (List.range 32).map (fun k => [ EVCN_SRC k])
  ++ (List.range 32).map (fun k => [ EVCN_LO k])
  ++ (List.range 32).map (fun k => [ EVCN_HI k])
  ++ (List.range 32).map (fun k => [ EVCN_SLO k])
  ++ (List.range 32).map (fun k => [ EVCN_SHI k])
end Evc

namespace Mb
def ARG (k : Nat) : Fld := { off := 0x8 + 0x4 * k, hi := 31, lo := 0, acc := .rw }
def GO_CMD : Fld := { off := 0x40, hi := 31, lo := 16, acc := .wo }
def GO_SEQ : Fld := { off := 0x40, hi := 15, lo := 8, acc := .wo }
def GO_NARG : Fld := { off := 0x40, hi := 3, lo := 0, acc := .wo }
def STATUS_CONSREJ : Fld := { off := 0x44, hi := 2, lo := 2, acc := .w1c }
def STATUS_UNCONS : Fld := { off := 0x44, hi := 1, lo := 1, acc := .w1c }
def STATUS_GOREJ : Fld := { off := 0x44, hi := 0, lo := 0, acc := .w1c }
def STATE_STATE : Fld := { off := 0x80, hi := 31, lo := 28, acc := .ro }
def STATE_RESULT : Fld := { off := 0x80, hi := 23, lo := 16, acc := .ro }
def STATE_SEQ : Fld := { off := 0x80, hi := 15, lo := 8, acc := .ro }
def STATE_NRES : Fld := { off := 0x80, hi := 3, lo := 0, acc := .ro }
def RES (k : Nat) : Fld := { off := 0x84 + 0x4 * k, hi := 31, lo := 0, acc := .snap }
def CONSUME_SEQ : Fld := { off := 0xBC, hi := 15, lo := 8, acc := .wo }
def CONSUME_CONSUME : Fld := { off := 0xBC, hi := 0, lo := 0, acc := .wo }
def KS_STATE_DBGSTRAP : Fld := { off := 0x100, hi := 10, lo := 10, acc := .ro }
def KS_STATE_FWRUN : Fld := { off := 0x100, hi := 9, lo := 9, acc := .ro }
def KS_STATE_TRIAL : Fld := { off := 0x100, hi := 8, lo := 8, acc := .ro }
def KS_STATE_RUNSLOT : Fld := { off := 0x100, hi := 5, lo := 4, acc := .ro }
def KS_STATE_STAGE : Fld := { off := 0x100, hi := 3, lo := 0, acc := .ro }
def KS_LEVEL_PEERS : Fld := { off := 0x104, hi := 23, lo := 16, acc := .ro }
def KS_LEVEL_COMPAT : Fld := { off := 0x104, hi := 15, lo := 8, acc := .ro }
def KS_LEVEL_FLEVEL : Fld := { off := 0x104, hi := 7, lo := 0, acc := .ro }
def KS_VERSION_MAJOR : Fld := { off := 0x108, hi := 31, lo := 24, acc := .ro }
def KS_VERSION_MINOR : Fld := { off := 0x108, hi := 23, lo := 16, acc := .ro }
def KS_VERSION_BUILD : Fld := { off := 0x108, hi := 15, lo := 0, acc := .ro }
def KS_TRIAL : Fld := { off := 0x10C, hi := 15, lo := 0, acc := .ro }
def KS_PTP_UTCV : Fld := { off := 0x110, hi := 16, lo := 16, acc := .ro }
def KS_PTP_GMCLASS : Fld := { off := 0x110, hi := 15, lo := 8, acc := .ro }
def KS_PTP_PS1 : Fld := { off := 0x110, hi := 7, lo := 4, acc := .ro }
def KS_PTP_PS0 : Fld := { off := 0x110, hi := 3, lo := 0, acc := .ro }
def KS_UTC : Fld := { off := 0x114, hi := 15, lo := 0, acc := .ro }
def KS_OFFSET : Fld := { off := 0x118, hi := 31, lo := 0, acc := .ro }
def KS_DBG_REMAIN : Fld := { off := 0x11C, hi := 31, lo := 16, acc := .ro }
def KS_DBG_LOGERASE : Fld := { off := 0x11C, hi := 2, lo := 2, acc := .ro }
def KS_DBG_DAP : Fld := { off := 0x11C, hi := 1, lo := 1, acc := .ro }
def KS_DBG_FREEZE : Fld := { off := 0x11C, hi := 0, lo := 0, acc := .ro }
def KS_CFG_REJ : Fld := { off := 0x120, hi := 31, lo := 16, acc := .ro }
def KS_CFG_APPLIED : Fld := { off := 0x120, hi := 15, lo := 0, acc := .ro }
/-- Every register of the block, each the list of its fields. -/
def regs : List (List Fld) :=
  [ [ GO_CMD, GO_SEQ, GO_NARG],
   [ STATUS_CONSREJ, STATUS_UNCONS, STATUS_GOREJ],
   [ STATE_STATE, STATE_RESULT, STATE_SEQ, STATE_NRES],
   [ CONSUME_SEQ, CONSUME_CONSUME],
   [ KS_STATE_DBGSTRAP, KS_STATE_FWRUN, KS_STATE_TRIAL, KS_STATE_RUNSLOT, KS_STATE_STAGE],
   [ KS_LEVEL_PEERS, KS_LEVEL_COMPAT, KS_LEVEL_FLEVEL],
   [ KS_VERSION_MAJOR, KS_VERSION_MINOR, KS_VERSION_BUILD],
   [ KS_TRIAL],
   [ KS_PTP_UTCV, KS_PTP_GMCLASS, KS_PTP_PS1, KS_PTP_PS0],
   [ KS_UTC],
   [ KS_OFFSET],
   [ KS_DBG_REMAIN, KS_DBG_LOGERASE, KS_DBG_DAP, KS_DBG_FREEZE],
   [ KS_CFG_REJ, KS_CFG_APPLIED]]
  ++ (List.range 14).map (fun k => [ ARG k])
  ++ (List.range 14).map (fun k => [ RES k])
end Mb

namespace Hp
def CFG_IRQOD : Fld := { off := 0x8, hi := 8, lo := 8, acc := .rw }
def CFG_IRQGRADE : Fld := { off := 0x8, hi := 5, lo := 4, acc := .rw, rst := fun _ => 1 }
def STATUS_PREJ : Fld := { off := 0xC, hi := 8, lo := 8, acc := .w1c }
def STATUS_ISOLATED : Fld := { off := 0xC, hi := 7, lo := 7, acc := .w1c }
def STATUS_REJECTED : Fld := { off := 0xC, hi := 6, lo := 6, acc := .w1c }
def STATUS_UNMAPPED : Fld := { off := 0xC, hi := 5, lo := 5, acc := .w1c }
def STATUS_FULL : Fld := { off := 0xC, hi := 4, lo := 4, acc := .w1c }
def STATUS_BADLEN : Fld := { off := 0xC, hi := 3, lo := 3, acc := .w1c }
def STATUS_BADCMD : Fld := { off := 0xC, hi := 2, lo := 2, acc := .w1c }
def STATUS_CRC : Fld := { off := 0xC, hi := 1, lo := 1, acc := .w1c }
def STATUS_ABORT : Fld := { off := 0xC, hi := 0, lo := 0, acc := .w1c }
def ERRCNT_CRCCNT : Fld := { off := 0x10, hi := 31, lo := 16, acc := .ro }
def ERRCNT_ABCNT : Fld := { off := 0x10, hi := 15, lo := 0, acc := .ro }
def IRQ_STATUS_SWIAG : Fld := { off := 0x14, hi := 15, lo := 12, acc := .ro }
def IRQ_STATUS_SRCH : Fld := { off := 0x14, hi := 9, lo := 8, acc := .ro }
def IRQ_STATUS_SWI : Fld := { off := 0x14, hi := 7, lo := 7, acc := .w1c }
def IRQ_STATUS_SRCL : Fld := { off := 0x14, hi := 6, lo := 0, acc := .ro }
def IRQ_EN : Fld := { off := 0x18, hi := 9, lo := 0, acc := .rw }
def IRQ_SET : Fld := { off := 0x1C, hi := 7, lo := 7, acc := .wo }
def IRQ_QMASK : Fld := { off := 0x20, hi := 15, lo := 0, acc := .rw, rst := fun _ => 2 }
def ALIVE_KCNT : Fld := { off := 0x24, hi := 31, lo := 16, acc := .ro }
def ALIVE_MS : Fld := { off := 0x24, hi := 15, lo := 0, acc := .ro }
/-- Every register of the block, each the list of its fields. -/
def regs : List (List Fld) :=
  [ [ CFG_IRQOD, CFG_IRQGRADE],
   [ STATUS_PREJ, STATUS_ISOLATED, STATUS_REJECTED, STATUS_UNMAPPED, STATUS_FULL, STATUS_BADLEN, STATUS_BADCMD, STATUS_CRC, STATUS_ABORT],
   [ ERRCNT_CRCCNT, ERRCNT_ABCNT],
   [ IRQ_STATUS_SWIAG, IRQ_STATUS_SRCH, IRQ_STATUS_SWI, IRQ_STATUS_SRCL],
   [ IRQ_EN],
   [ IRQ_SET],
   [ IRQ_QMASK],
   [ ALIVE_KCNT, ALIVE_MS]]
end Hp

namespace Eth
def CFG_EN : Fld := { off := 0x8, hi := 31, lo := 31, acc := .rw }
def CFG_RSC : Fld := { off := 0x8, hi := 30, lo := 30, acc := .rw, rst := fun n => if n = 0 then 1 else 0 }
def CFG_VLANEN : Fld := { off := 0x8, hi := 29, lo := 29, acc := .rw }
def CFG_VID : Fld := { off := 0x8, hi := 27, lo := 16, acc := .rw }
def CFG_TXDLY : Fld := { off := 0x8, hi := 2, lo := 2, acc := .rw }
def CFG_RXDLY : Fld := { off := 0x8, hi := 1, lo := 1, acc := .rw }
def MAC_LO : Fld := { off := 0xC, hi := 31, lo := 0, acc := .rw }
def MAC_HI : Fld := { off := 0x10, hi := 15, lo := 0, acc := .rw }
def STATUS_SPDERR : Fld := { off := 0x14, hi := 5, lo := 5, acc := .w1c }
def STATUS_LINKEV : Fld := { off := 0x14, hi := 4, lo := 4, acc := .w1c }
def STATUS_SPEED : Fld := { off := 0x14, hi := 3, lo := 2, acc := .ro }
def STATUS_FDX : Fld := { off := 0x14, hi := 1, lo := 1, acc := .ro }
def STATUS_LINK : Fld := { off := 0x14, hi := 0, lo := 0, acc := .ro }
def RXLAT : Fld := { off := 0x18, hi := 15, lo := 0, acc := .rw }
def TXLAT : Fld := { off := 0x1C, hi := 15, lo := 0, acc := .rw }
def RXTS : Fld := { off := 0x20, hi := 29, lo := 0, acc := .ro }
def RXTS_SEC : Fld := { off := 0x24, hi := 31, lo := 0, acc := .snap }
def TXTS : Fld := { off := 0x28, hi := 29, lo := 0, acc := .ro }
def TXTS_SEC : Fld := { off := 0x2C, hi := 31, lo := 0, acc := .snap }
def CNT0 : Fld := { off := 0x30, hi := 31, lo := 0, acc := .ro }
def CNT1 : Fld := { off := 0x34, hi := 31, lo := 0, acc := .ro }
def CNT2 : Fld := { off := 0x38, hi := 31, lo := 0, acc := .ro }
def CNT3 : Fld := { off := 0x3C, hi := 31, lo := 0, acc := .ro }
/-- Every register of the block, each the list of its fields. -/
def regs : List (List Fld) :=
  [ [ CFG_EN, CFG_RSC, CFG_VLANEN, CFG_VID, CFG_TXDLY, CFG_RXDLY],
   [ MAC_LO],
   [ MAC_HI],
   [ STATUS_SPDERR, STATUS_LINKEV, STATUS_SPEED, STATUS_FDX, STATUS_LINK],
   [ RXLAT],
   [ TXLAT],
   [ RXTS],
   [ RXTS_SEC],
   [ TXTS],
   [ TXTS_SEC],
   [ CNT0],
   [ CNT1],
   [ CNT2],
   [ CNT3]]
end Eth

namespace Sns
def STATUS_STALE : Fld := { off := 0x8, hi := 15, lo := 15, acc := .ro }
def STATUS_RAIL : Fld := { off := 0x8, hi := 6, lo := 6, acc := .ro }
def STATUS_VINHI : Fld := { off := 0x8, hi := 5, lo := 5, acc := .ro }
def STATUS_VINLO : Fld := { off := 0x8, hi := 4, lo := 4, acc := .ro }
def STATUS_TCRIT : Fld := { off := 0x8, hi := 3, lo := 3, acc := .ro }
def STATUS_THIGH : Fld := { off := 0x8, hi := 2, lo := 2, acc := .ro }
def STATUS_TWARN : Fld := { off := 0x8, hi := 1, lo := 1, acc := .ro }
def TIME : Fld := { off := 0xC, hi := 31, lo := 0, acc := .ro }
def TJ : Fld := { off := 0x10, hi := 15, lo := 0, acc := .snap }
def TJ0 : Fld := { off := 0x14, hi := 15, lo := 0, acc := .snap }
def TJ1 : Fld := { off := 0x18, hi := 15, lo := 0, acc := .snap }
def TJ2 : Fld := { off := 0x1C, hi := 15, lo := 0, acc := .snap }
def TJ3 : Fld := { off := 0x20, hi := 15, lo := 0, acc := .snap }
def VIN : Fld := { off := 0x24, hi := 15, lo := 0, acc := .snap }
def VEXC : Fld := { off := 0x28, hi := 15, lo := 0, acc := .snap }
def VIO : Fld := { off := 0x2C, hi := 15, lo := 0, acc := .snap }
def VCORE : Fld := { off := 0x30, hi := 15, lo := 0, acc := .snap }
def AVDD : Fld := { off := 0x34, hi := 15, lo := 0, acc := .snap }
def VREF : Fld := { off := 0x38, hi := 15, lo := 0, acc := .snap }
def VAON : Fld := { off := 0x3C, hi := 15, lo := 0, acc := .snap }
def TMAX : Fld := { off := 0x40, hi := 15, lo := 0, acc := .snap }
/-- Every register of the block, each the list of its fields. -/
def regs : List (List Fld) :=
  [ [ STATUS_STALE, STATUS_RAIL, STATUS_VINHI, STATUS_VINLO, STATUS_TCRIT, STATUS_THIGH, STATUS_TWARN],
   [ TIME],
   [ TJ],
   [ TJ0],
   [ TJ1],
   [ TJ2],
   [ TJ3],
   [ VIN],
   [ VEXC],
   [ VIO],
   [ VCORE],
   [ AVDD],
   [ VREF],
   [ VAON],
   [ TMAX]]
end Sns

namespace Pwr
def MODE_TARGET : Fld := { off := 0x8, hi := 26, lo := 24, acc := .ro }
def MODE_PEND : Fld := { off := 0x8, hi := 20, lo := 20, acc := .ro }
def MODE_MODE : Fld := { off := 0x8, hi := 18, lo := 16, acc := .ro, rst := fun _ => 3 }
def MODE_CHMASK : Fld := { off := 0x8, hi := 15, lo := 0, acc := .ro }
def WAKE_HOST : Fld := { off := 0xC, hi := 4, lo := 4, acc := .ro }
def WAKE_SIGNAL : Fld := { off := 0xC, hi := 3, lo := 3, acc := .ro }
def WAKE_CREEP : Fld := { off := 0xC, hi := 2, lo := 2, acc := .ro }
def WAKE_CH : Fld := { off := 0xC, hi := 1, lo := 0, acc := .ro }
def SENT_BURSTS : Fld := { off := 0x10, hi := 31, lo := 16, acc := .ro }
def SENT_CREEPCNT : Fld := { off := 0x10, hi := 2, lo := 0, acc := .ro }
def SENTANG_REF (k : Nat) : Fld := { off := 0x14 + 0x4 * k, hi := 31, lo := 16, acc := .ro }
def SENTANG_LAST (k : Nat) : Fld := { off := 0x14 + 0x4 * k, hi := 15, lo := 0, acc := .ro }
def SENTCHG (k : Nat) : Fld := { off := 0x24 + 0x4 * k, hi := 31, lo := 0, acc := .ro }
def DORMT : Fld := { off := 0x34, hi := 31, lo := 0, acc := .ro }
def CLK_REFOK : Fld := { off := 0x38, hi := 2, lo := 2, acc := .ro }
def CLK_AONXTAL : Fld := { off := 0x38, hi := 1, lo := 1, acc := .ro }
def CLK_PLLLOCK : Fld := { off := 0x38, hi := 0, lo := 0, acc := .ro }
/-- Every register of the block, each the list of its fields. -/
def regs : List (List Fld) :=
  [ [ MODE_TARGET, MODE_PEND, MODE_MODE, MODE_CHMASK],
   [ WAKE_HOST, WAKE_SIGNAL, WAKE_CREEP, WAKE_CH],
   [ SENT_BURSTS, SENT_CREEPCNT],
   [ DORMT],
   [ CLK_REFOK, CLK_AONXTAL, CLK_PLLLOCK]]
  ++ (List.range 4).map (fun k => [ SENTANG_REF k, SENTANG_LAST k])
  ++ (List.range 4).map (fun k => [ SENTCHG k])
end Pwr

/-- Every register of a block beside its header (R375 and the register tables of the chapters). -/
def blkRegs : Blk → List (List Fld)
  | .chip => Chip.regs
  | .time => Time.regs
  | .slot _ => Slot.regs
  | .exg _ => Exg.regs
  | .ao _ => Ao.regs
  | .fe => Fe.regs
  | .rc _ => Rc.regs
  | .ai _ => Ai.regs
  | .lens _ => Lens.regs
  | .ax _ => Ax.regs
  | .pt _ => Pt.regs
  | .em _ => Em.regs
  | .lu _ => Lu.regs
  | .sec _ => Sec.regs
  | .rs _ => Rs.regs
  | .lpe => Lpe.regs
  | .lp _ => Lp.regs
  | .cap => Cap.regs
  | .inj _ => Inj.regs
  | .le _ => Le.regs
  | .q _ => Q.regs
  | .qc => Qc.regs
  | .ec => Ec.regs
  | .evc => Evc.regs
  | .mb => Mb.regs
  | .hp => Hp.regs
  | .eth _ => Eth.regs
  | .sns => Sns.regs
  | .pwr => Pwr.regs
  | .lc => Lc.regs

/-- The fields of the register at an offset of a block; empty where the offset names none (R376). -/
def fieldsAt (b : Blk) (off : Nat) : List Fld :=
  ((blkRegs b).find? (fun r => match r with | f :: _ => f.off == off | [] => false)).getD []

end Sys2Proof.Machine
end

