-- ==== Sys2Proof/Machine/State.lean ====
section
/-!
DEFINITION. The state of the device as plain data. Every register field is one entry of `regs` (the register map gives its
reset value); the structures below hold what the registers do not show.
-/

namespace Sys2Proof.Machine

/-- Why a command stops. No meaning of this model faults: the device itself never stops on a command, and the one
constructor is kept for a command that names what no block holds. Safe: a stop proves nothing false. -/
inductive Fault where
  /-- raised by no meaning of this model; safe -/
  | none
  deriving DecidableEq, Repr

/-- Why a command is refused. -/
inductive Refusal where
  /-- the command has no meaning yet: raised by the dispatcher only; safe, nothing is claimed of it -/
  | notModelled (mnemonic : String)
  deriving DecidableEq, Repr

/-- A queue entry: four words (R324). -/
structure QEntry where
  w0 : Word := 0
  w1 : Word := 0
  w2 : Word := 0
  w3 : Word := 0
  deriving DecidableEq, Repr, Inhabited

/-- A SYNC pulse the leader has begun (R53, R54): the elapsed time of its t0, whether t0 is a whole second, and the time word it
sends then. -/
structure SyncPulse where
  t0 : Nat
  whole : Bool
  word : Nat
  deriving DecidableEq, Repr, Inhabited

/-- A change of network time beyond its increments, or of TIME_EPOCH or DISC: the elapsed time it acts from, what time jumped by in
2^-28 ns, and the epoch and DISC before it (R197). -/
structure TimeMark where
  at_ : Nat
  shift : Int
  epoch : Nat
  disc : Bool
  deriving DecidableEq, Repr, Inhabited

/-- The time unit beside its registers (R34, R35, R37, R38, R44, R53–R59). Network time is one count of nanoseconds:
TIME_NS, TIME_SUB and TIME_SEC are views of it. -/
structure TimeSt where
  /-- changes of the last 10 µs, newest first (R197, R209) -/
  marks : List TimeMark := []
  /-- network time, ns since the PTP epoch -/
  now : Nat := 0
  /-- the 28 fractional bits below it (R35) -/
  frac : Nat := 0
  /-- live TIME_EPOCH -/
  epoch : Nat := 0
  /-- the effective increment of the last tick, in 2^-28 ns (R35) -/
  inc : Nat := 5 * 2 ^ 28
  /-- SLEW_REM with its 28 fractional bits (R38) -/
  slewRem : Int := 0
  /-- a decided step not yet applied (R37, R44), in 2^-28 ns -/
  stepPend : Option Int := none
  /-- an adjustment of total offset 0 awaiting its tick (R37) -/
  zeroPend : Bool := false
  /-- an adjustment written by the Keeper since DISC was last set has not completed yet: it is in the slew, in the decided step,
  or the one of total offset 0 (R49) -/
  kAdj : Bool := false
  kStep : Bool := false
  kZero : Bool := false
  /-- epoch and seconds of the leader's last valid time word (R44, R55) -/
  leadEpoch : Option Nat := none
  /-- the pending step was decided from the leader's time word (R335) -/
  stepSync : Bool := false
  /-- consecutive failed time words, and consecutive valid seconds (R56) -/
  syncBad : Nat := 0
  syncGood : Nat := 0
  /-- elapsed time of the last valid time word (R56) -/
  wordAt : Nat := 0
  /-- elapsed time of the last valid SYNC edge or of taking the role (R56, R58) -/
  edgeAt : Nat := 0
  roleAt : Nat := 0
  /-- a valid edge was received since the role was taken (R58) -/
  gotEdge : Bool := false
  /-- the last edge fell farther than SLEW_LIMIT from its millisecond (R56) -/
  edgeFar : Bool := false
  /-- the leader stopped driving after contention (R58) -/
  syncStop : Bool := false
  /-- the last SYNC pulse begun (R53) -/
  syncAt : Option SyncPulse := none
  /-- level of the 1 PPS output and the elapsed time at which it rose (R59) -/
  ppsOut : Bool := false
  ppsAt : Nat := 0
  /-- elapsed time of the latest joined cause of a waiting synchronising reset (R67) -/
  srCause : Option Nat := none
  deriving DecidableEq, Repr, Inhabited

/-- A record waiting in the controller's input buffer (R347), or a write that waits for the end of a fabric cycle (R329): the
queue it goes to, its source bit of R339 (a fence 0, a software write 32 plus the owner code of its agent), its entries, the
fabric cycle in which it came, and the engine whose QW it is (R316). -/
structure InRec where
  queue : Nat
  src : Nat
  entries : List QEntry
  cyc : Nat := 0
  qw : Option (Fin 8) := none
  deriving DecidableEq, Repr, Inhabited

/-- A fence accepted and not yet placed in every target (R339): requester code, its sequence, TIME_NS and epoch of
acceptance, mask, ID, target mask, the number of earlier records of the masked sources that the controller still holds, and
the fabric cycle of acceptance. -/
structure FenceRec where
  req : Nat
  seq : Nat
  time : Nat
  epoch : Nat
  mask : Nat
  id : Nat
  targets : Nat
  before : Nat
  cyc : Nat := 0
  deriving DecidableEq, Repr, Inhabited

/-- A queue beside its registers: the length the read pointer wraps at while its pass lasts (R330), the first dropped
instant and the dropped count of a trace queue, and its gap count (R325, R346). -/
structure QSt where
  rpLen : Nat := 0
  gapTime : Nat := 0
  gapCount : Nat := 0
  gapSeq : Nat := 0
  deriving DecidableEq, Repr, Inhabited

/-- An alarm table entry (R341, R342). -/
structure AlarmEntry where
  valid : Bool := false
  acked : Bool := false
  cond : Bool := false
  grade : Nat := 0
  code : Nat := 0
  src : Nat := 0
  first : Nat := 0
  last : Nat := 0
  count : Nat := 0
  firstEp : Nat := 0
  lastEp : Nat := 0
  deriving DecidableEq, Repr, Inhabited

/-- A raise of an alarm that waits for the end of its fabric cycle (R342): its code, source and grade, and whether its block keeps the
condition. -/
structure AlarmRaise where
  code : Nat
  src : Nat
  grade : Nat
  keep : Bool
  deriving DecidableEq, Repr, Inhabited

/-- An alarm record on the Keeper's private path (R344): kind 0 NEW, 1 RECUR, 2 CLEARED, 3 OVERFLOW. -/
structure AlarmRec where
  kind : Nat
  entry : QEntry
  deriving DecidableEq, Repr, Inhabited

/-- The incident the Keeper groups alarm records into (R349, R388): its number, seconds, nanoseconds and epoch at opening,
the first 32 records, the CLEARED records among them, the records after them trimmed to the last 32 with the CLEARED
records among those, the records trimmed away, the CLEARED records that found no place, and the network time of the
last NEW, RECUR or OVERFLOW record. -/
structure Incident where
  opened : Bool := false
  number : Nat := 0
  sec : Nat := 0
  sub : Nat := 0
  epoch : Nat := 0
  first : List QEntry := []
  cleared : List QEntry := []
  tail : List QEntry := []
  between : Nat := 0
  lost : Nat := 0
  lastAt : Nat := 0
  deriving DecidableEq, Repr, Inhabited

/-- A 72-bit accumulator with its wrap count and LOST (R269, R271). -/
structure Accum where
  v : BitVec 72 := 0
  nw : Int := 0
  lost : Bool := false
  deriving DecidableEq, Repr, Inhabited

/-- A hardware loop: first instruction and end instruction of the body, remaining count, and whether the handler started it: it is
nothing to the program's level, nor the program's loops to the handler (R283). The stack of an engine lists the innermost loop
first. -/
structure LoopEnt where
  start : Nat := 0
  fin : Nat := 0
  count : Nat := 0
  lv : Bool := false
  deriving DecidableEq, Repr, Inhabited

/-- One result of an instruction: where it is written. Flags carry a mask of the flags written (R298). -/
inductive EWrite where
  | g (i : Nat) (v : Word)
  | p (i : Nat) (v : Word)
  | l (i : Nat) (v : BitVec 20)
  | k (i : Nat) (v : BitVec 20)
  | acc (i : Nat) (v : Accum)
  /-- an accumulator loaded from memory: the next instruction never sees it (R309) -/
  | accLd (i : Nat) (v : Accum)
  | flags (mask val : BitVec 6)
  | dmem (addr : Nat) (v : Word)
  | ien (gie ien : Nat)
  deriving DecidableEq, Repr, Inhabited

/-- A posted store in the write buffer (R278): its space (true for control space), its address and its words, one
access each. A TARM entry holds two writes of one word each. -/
structure StoreEnt where
  cspace : Bool
  writes : List (Nat × Word)
  deriving DecidableEq, Repr, Inhabited

/-- What a stalled engine waits for (R278, R310, R316). -/
inductive Stall where
  /-- words of X space (false) or C space (true), loaded into G registers from `r`, or an accumulator -/
  | load (cspace : Bool) (addr : Nat) (words : Nat) (r : Nat) (toAcc : Bool)
  /-- a queue write with its entry, as the instruction read it (R281, R303) -/
  | qw (queue : Nat) (e : QEntry)
  | qr (queue : Nat) (quad : Nat)
  | ql (queue : Nat) (d : Nat)
  | fence (mask targets : Word)
  /-- a store that found the write buffer full -/
  | store (e : StoreEnt)
  deriving DecidableEq, Repr, Inhabited

/-- The conditions of a suspended WAIT (R318). -/
structure WaitSt where
  t : Bool := false
  w : Bool := false
  q : Bool := false
  i : Bool := false
  target : Nat := 0
  d : Nat := 0
  queue : Nat := 0
  level : Nat := 0
  deriving DecidableEq, Repr, Inhabited

/-- A Lantern engine beside its control area (R269, R270, R278–R292). -/
structure LeSt where
  g : Vector Word 32 := Vector.replicate 32 0
  /-- level 1 copies of G24–G31 -/
  gx : Vector Word 8 := Vector.replicate 8 0
  p : Vector Word 8 := Vector.replicate 8 0
  px : Vector Word 2 := Vector.replicate 2 0
  l : Vector (BitVec 20) 8 := Vector.replicate 8 0
  lx : Vector (BitVec 20) 2 := Vector.replicate 2 0
  k : Vector (BitVec 20) 8 := Vector.replicate 8 0
  kx : Vector (BitVec 20) 2 := Vector.replicate 2 0
  a : Vector Accum 4 := Vector.replicate 4 {}
  /-- level 1 copy of A3 -/
  ax : Accum := {}
  st : BitVec 6 := 0
  ilr : Nat := 0
  ist : BitVec 6 := 0
  loops : List LoopEnt := []
  /-- results of the last instruction that the next one does not see (R281, R303) -/
  pend : List EWrite := []
  /-- delay slots left, and the target of the taken branch they belong to (R282) -/
  slots : Nat := 0
  target : Option Nat := none
  /-- the taken branch ends the loops whose body it leaves: it is no call (R283) -/
  leaves : Bool := true
  /-- what an instruction waits for, and a WAIT in progress (R278, R315) -/
  stall : Option Stall := none
  wait : Option WaitSt := none
  /-- the controller's answer to the QW the engine is stalled in: written, refused (R316) -/
  qwDone : Option (Bool × Bool) := none
  /-- the address at which a read of the engine was lost on the interconnect (R427) -/
  lostRd : Option Nat := none
  /-- a STOP held until an interrupt could enter, or until the clock returns (R289) -/
  stopHeld : Bool := false
  /-- the state before PAUSED (R289) -/
  before : Nat := 0
  /-- the write buffer, oldest first (R278) -/
  wbuf : List StoreEnt := []
  /-- the wake latch (R315) -/
  wk : Bool := false
  /-- cycles in RUN, and the S11 captured by the last read of S10 (R270, R293) -/
  cyc : Nat := 0
  s11 : Word := 0
  /-- elapsed time the watchdog has counted since its last restart, in 2^-28 ns (R291) -/
  wdogRun : Nat := 0
  /-- instructions left of a STEP (R289), and half engine cycles left over from the last fabric cycle (R268) -/
  stepLeft : Nat := 0
  half : Bool := false
  deriving DecidableEq, Repr, Inhabited

/-- The noise shaper of one PWM pin (R75): its two errors, its LFSR and the on-time of the present period. -/
structure Shaper where
  e1 : Rat := 0
  e2 : Rat := 0
  lfsr : BitVec 23 := 1
  q : Nat := 0
  deriving DecidableEq, Repr, Inhabited

/-- The trigger a generator has taken in a fabric cycle (R79): the cycle, the row of the table, whether it was a write of EN,
and what the generator held before it, for a trigger of the same cycle whose row stands lower. -/
structure ExgTurn where
  cyc : Nat
  row : Nat
  en : Bool
  st : Nat
  amp : Rat
  scAt : Option Nat
  retries : Nat
  deriving DecidableEq, Repr, Inhabited

/-- An excitation generator beside its registers (R46, R74–R85, R94). -/
structure ExgSt where
  /-- deviation of the carrier phase from R69, in cycles, at elapsed time `devAt` (R46) -/
  dev : Rat := 0
  devAt : Nat := 0
  /-- present amplitude, mV (R80) -/
  amp : Rat := 0
  /-- elapsed time of the start of the SC timer (R84) -/
  scAt : Option Nat := none
  /-- a limit event occurred in the present carrier cycle (R84) -/
  limited : Bool := false
  /-- elapsed time since which ON has been free of limit events (R85) -/
  cleanAt : Nat := 0
  /-- elapsed time of entry to RETRY_WAIT (R79) -/
  retryAt : Nat := 0
  /-- the undervoltage cause is in force (R77) -/
  vuv : Bool := false
  legP : Shaper := {}
  legN : Shaper := {}
  /-- both legs stand on their low sides until the PWM period ends (R83) -/
  low : Bool := false
  /-- the trigger taken last (R79) -/
  turn : Option ExgTurn := none
  /-- fabric cycle of the last carrier cycle end (R69) -/
  endCyc : Option Nat := none
  /-- carrier cycles left of a sentinel burst, and its own phase at the next PWM boundary in 2^-32 cycle (R94, R95) -/
  burst : Nat := 0
  burstPh : Nat := 0
  deriving DecidableEq, Repr, Inhabited

/-- An analogue output beside its registers (R88–R92). -/
structure AoSt where
  /-- requested code that the occult hold or the ramp goes to -/
  pend : Nat := 0
  /-- periods left of the occult hold (R90) -/
  hold : Nat := 0
  /-- range change: 0 none, 1 at the occult code, 2 ramping; periods done in the step (R91) -/
  rstep : Nat := 0
  rcnt : Nat := 0
  /-- the rail the pin is on, the rail a range change goes to, and the position of its ramp (R91) -/
  rail : Nat := 0
  rnew : Nat := 0
  rpos : Rat := 0
  /-- on-time that drives the pin: during an occult hold the last one (R90) -/
  drive : Nat := 0
  scAt : Option Nat := none
  limAt : Nat := 0
  cleanAt : Nat := 0
  retryAt : Nat := 0
  retries : Nat := 0
  shaper : Shaper := {}
  deriving DecidableEq, Repr, Inhabited

/-- A CIC lane (R101, R102): three integrators and three combs modulo 2^24, samples still to carry OVL (R100) and INVALID
(R117), a clock fault in the present frame, and combs to be cleared in the next slot (R116). -/
structure LaneSt where
  i1 : Nat := 0
  i2 : Nat := 0
  i3 : Nat := 0
  c1 : Nat := 0
  c2 : Nat := 0
  c3 : Nat := 0
  ovl : Nat := 0
  inv : Nat := 0
  clkf : Bool := false
  clear : Bool := false
  /-- overloads and clock faults of the sentinel burst, in ns from its enable (R100, R122) -/
  burstOvl : List Nat := []
  burstClk : List Nat := []
  deriving DecidableEq, Repr, Inhabited

/-- One decimated sample in a spike filter's window: its value, INVALID and OVL (R107). -/
structure Samp where
  v : Int := 0
  inv : Bool := true
  ovl : Bool := false
  deriving DecidableEq, Repr, Inhabited

/-- A hand-off (R110): sample instant as network time and as elapsed time in ns (R465), TIME.DISC, the frame's m of R39, s, c, p_s and p_c in
2^-22, r and r_q in 2^-17, and its flags. -/
structure HandOff where
  t : Nat := 0
  te : Int := 0
  disc : Bool := false
  m : Nat := 0
  s : Int := 0
  c : Int := 0
  ps : Int := 0
  pc : Int := 0
  r : Int := 0
  rq : Int := 0
  inv : Bool := false
  ovlS : Bool := false
  ovlC : Bool := false
  spike : Bool := false
  noref : Bool := false
  deriving DecidableEq, Repr, Inhabited

/-- A published result of a converter (R143): its count, TURNS:PHI[47:16] before and after Lens, velocity, sample instant as
network time and as elapsed time, epoch and status byte. -/
structure Pub where
  no : Nat := 0
  pos : Int := 0
  /-- TURNS as published: a wake from DORMANT moves `pos` alone (R145, R422) -/
  turns : Int := 0
  corr : Int := 0
  vel : Int := 0
  t : Nat := 0
  te : Int := 0
  epoch : Nat := 0
  status : Nat := 0
  deriving DecidableEq, Repr, Inhabited

/-- A converter beside its registers (R126–R147) and the monitors of its channel (R167–R171). -/
structure RcSt where
  /-- hand-offs not yet updated on, oldest first, and the last valid one (R118) -/
  hands : List HandOff := []
  lastH : HandOff := {}
  /-- windows of the spike filter, newest first (R107) -/
  winS : List Samp := []
  winC : List Samp := []
  /-- elapsed time of the last STUCK and clock-fault condition of its modulators (R100, R167) -/
  stuckAt : Option Nat := none
  clkfAt : Option Nat := none
  /-- TURNS:PHI with 16 further bits, V likewise (R129), the amplitude estimate and the lock measure -/
  p : Int := 0
  v : Int := 0
  amp : Nat := 0
  ef : Nat := 0
  /-- gains in force, and a pair committed (R131) -/
  k1 : Nat := 7682308
  k2 : Nat := 1358549
  kPend : Option (Nat × Nat) := none
  /-- sample instant of the last update, elapsed time (R130) -/
  updT : Option Int := none
  /-- re-acquires at the first valid hand-off after the synchronising reset that follows unfreeze (R138) -/
  thawed : Bool := false
  /-- alignment phase in 2^-32 cycle, acquisition in progress, accepted cycles (R134–R136) -/
  theta : Nat := 0
  phAcq : Bool := false
  phN : Nat := 0
  lock : Bool := false
  lockN : Nat := 0
  reacq : Bool := false
  /-- entered COARSE from OFF; the sums run over a whole cycle; Â has been set since OFF (R138, R139, R167) -/
  fromOff : Bool := false
  whole : Bool := false
  ampSet : Bool := false
  ss : Int := 0
  sc : Int := 0
  sw : Int := 0
  sn : Nat := 0
  /-- sums of the carrier cycle (R134), and what has happened in it (R135): ran whole, a bad hand-off, Â low, V high,
  overload hand-offs (R167) -/
  qa : Int := 0
  ia : Int := 0
  cycWhole : Bool := false
  cycBad : Bool := false
  cycLow : Bool := false
  cycFast : Bool := false
  cycOvl : Nat := 0
  /-- last published result, and whether the converter publishes -/
  pub : Pub := {}
  live : Bool := false
  /-- dwell counts of the six monitors, and a transition due (R167) -/
  cnt : Vector Nat 6 := Vector.replicate 6 0
  due : Vector Bool 6 := Vector.replicate 6 false
  /-- elapsed time since which the LOT condition, or its release, has held -/
  lotAt : Option Nat := none
  /-- the angle-frozen test (R168): start of the window as elapsed time, its first ANGLE, extremes of ANGLE − first, the
  generator and effort conditions so far, and the outcome -/
  winAt : Option Nat := none
  winA : Nat := 0
  winLo : Int := 0
  winHi : Int := 0
  winHeld : Bool := true
  frozenAng : Bool := false
  deriving DecidableEq, Repr, Inhabited

/-- A boundary of the 320 ns grid: network time in ns, elapsed time in 2^-28 ns, its place modulo 8 (the auxiliary input sampled
there), and the phases of the generators, in cycles, as they ran (R101, R109, R111). -/
structure FrameRec where
  t : Nat
  el : Nat
  ix : Nat
  ph : Vector Rat 16
  deriving DecidableEq, Repr

/-- An auxiliary sample at its decimation tick (R99, R111): its instant and the one before it, its flags, whether it is the first
of its lane, and the held copy of the third integrator once the bits have run through. -/
structure AuxTick where
  t : Nat
  t0 : Nat
  inv : Bool
  ovl : Bool
  first : Bool
  held : Option Nat := none
  deriving DecidableEq, Repr, Inhabited

/-- An auxiliary slot of a schedule (R104, R105): its start in elapsed time, its input, and whether a synchronising reset has
come since the schedule started (R116). -/
structure AuxDue where
  start : Nat
  input : Fin 8
  old : Bool := false
  deriving DecidableEq, Repr, Inhabited

/-- An auxiliary input beside its registers (R107, R111–R115): the spike window, the peak hold, the RMS sums, whether the
window test is armed, and the live instants and mean. -/
structure AiSt where
  win : List Samp := []
  /-- the sample whose tick has come, to be combed in its slot, and the bits its lane brings (R104, R111) -/
  tick : Option AuxTick := none
  bits : List Bool := []
  /-- the rest, in the order named above -/
  hold : Nat := 0
  sx : Int := 0
  sxx : Int := 0
  cnt : Nat := 0
  rmsT : Nat := 0
  armed : Bool := true
  valT : Nat := 0
  mean : Int := 0
  meanT : Nat := 0
  deriving DecidableEq, Repr, Inhabited

/-- A revolution seen by Lens (R157, R158): first position (2^-32 electrical rev) and sample instant, bins as sums of
movement, of time and of counts, the reasons of rejection met, the extremes of the velocity, epoch and gains at its
start, gains as the registers held them then, and position and instant of its end. -/
structure Rev where
  fwd : Bool := true
  pos0 : Int := 0
  t0 : Int := 0
  bins : List (Int × Int × Nat) := []
  why : Nat := 0
  vLo : Int := 0
  vHi : Int := 0
  epoch : Nat := 0
  k1 : Nat := 0
  k2 : Nat := 0
  kReg : Nat × Nat := (0, 0)
  pos1 : Int := 0
  t1 : Int := 0
  deriving DecidableEq, Repr, Inhabited

/-- A Lens block beside its registers and tables: the state in force, which follows LENSn_CTRL.STATE at a publish, the last
publish's position, the revolution in progress of either direction, one that has ended, one in processing, the directions' sums
in 2^-48 electrical rev and their counts, a commit requested, the FRDIFF of the checks that formed the two banks, and the
applied words that an ECC error makes read as 0 (R156–R164). -/
structure LensSt where
  state : Nat := 0
  last : Option Int := none
  revF : Option Rev := none
  revR : Option Rev := none
  ended : Option Rev := none
  proc : Option Rev := none
  accF : List Int := []
  accR : List Int := []
  nF : Nat := 0
  nR : Nat := 0
  commit : Bool := false
  frA : Nat := 0
  frC : Nat := 0
  zeroed : List Nat := []
  deriving DecidableEq, Repr, Inhabited

/-- The filter engine beside its registers: sample instant of the last schedule in elapsed time, a step waits for its
synchronising reset (R117), served mask of RESCUE (R120), and the served mask taken at the next reset. -/
structure FeSt where
  lastEl : Option Nat := none
  /-- elapsed time of the synchronising reset that brought the present frame (R117, R120) -/
  from_ : Nat := 0
  stepped : Bool := false
  served : Nat := 0xFFFF
  nextServed : Option Nat := none
  /-- boundaries recorded, newest first; what the grid of the lanes stands ahead of network time until the synchronising reset
  that a step brings, in 2^-28 ns (R67, R116) -/
  frames : List FrameRec := []
  gridOff : Nat := 0
  /-- auxiliary slots to come of the schedules started -/
  auxDue : List AuxDue := []
  /-- core cycles to the next edge of the modulator clock, and modulator clocks since its last adjusted period, at most 32
  (R39) -/
  mcLeft : Nat := 8
  mcSince : Nat := 32
  deriving DecidableEq, Repr, Inhabited

/-- The commands that a loop took in a fabric cycle (R238): the cycle, their codes in order, and the loop as the first of them met
it: state, CMDREJ, ISAT, SATEV, SAFEEV, CLOSEDEV, U, UMAN and what a command changes beside the registers. -/
structure LpCmd where
  cyc : Nat
  codes : List Nat
  st : Nat
  rej : Nat
  isat : Nat
  satEv : Nat
  safeEv : Nat
  closedEv : Nat
  u : Nat
  uman : Nat
  r : Int
  yc : Int
  q : Int
  i : Int
  rrPrev : Int
  seen : Int
  d : Rat
  loadHist : Bool
  deriving DecidableEq, Repr, Inhabited

/-- A loop beside its registers (R232–R240). -/
structure LpSt where
  /-- integrator, in units of 2^-24 output unit (R232) -/
  i : Int := 0
  d : Rat := 0
  dsPrev : Rat := 0
  rrPrev : Int := 0
  yc : Int := 0
  r : Int := 0
  q : Int := 0
  /-- measured value and error of the latest evaluation -/
  y : Int := 0
  e : Int := 0
  /-- round(v + I) and the injection of the latest evaluation, and its group instant as TIME_NS (R247, R259) -/
  upre : Int := 0
  inj : Int := 0
  inst : Nat := 0
  /-- direction of the clamp of the last evaluation: 1 above, -1 below, 0 none (R234) -/
  clampDir : Int := 0
  /-- integrated at its latest evaluation (R234) -/
  integ : Bool := false
  /-- the histories are loaded at the next evaluation (R237) -/
  loadHist : Bool := false
  /-- state remembered in HOLDOVER: 1 RAMP, 2 CLOSED as coded in LPn_STATUS (R237) -/
  remembered : Nat := 0
  /-- committed target (R247) -/
  target : Int := 0
  /-- target at the last evaluation, to see a change (R237) -/
  seenTarget : Int := 0
  /-- the integrator and the reference as its latest evaluation left them (R247) -/
  iEval : Int := 0
  rEval : Int := 0
  /-- the last commands taken, and the cycle of the last end of a ramp with CLOSEDEV before it (R238) -/
  cmd : Option LpCmd := none
  ramp : Option (Nat × Nat) := none
  deriving DecidableEq, Repr, Inhabited

/-- A delivery of an axis (R182, R228): position, velocity, sample instant as network time
and as elapsed time in ns, its epoch and DISC,
validity (0 VALID, 1 EXTRAP, 2 HELD), the source status byte, and the elapsed time at which it was made. -/
structure Delivery where
  pos : Int := 0
  vel : Int := 0
  t : Nat := 0
  te : Int := 0
  epoch : Nat := 0
  disc : Bool := false
  validity : Nat := 2
  status : Nat := 0
  at_ : Nat := 0
  /-- as a lane holds it: a step that moved the frame grid came after its sample instant (R209, R465) -/
  moved : Bool := false
  deriving DecidableEq, Repr, Inhabited

/-- The accumulator of one source of an axis (R224, R225). -/
structure SrcAcc where
  eacc : Int := 0
  ePrev : Int := 0
  init : Bool := false
  /-- count of the last publish taken in (R224), and whether the source was publishing then -/
  seen : Nat := 0
  live : Bool := false
  /-- last result: position, velocity, sample instant (network time, ns), epoch and status byte -/
  pos : Int := 0
  vel : Int := 0
  t : Nat := 0
  te : Int := 0
  epoch : Nat := 0
  status : Nat := 0
  /-- last result with LOCK = 1 and EXTRAP, REACQ and OVL at 0 (R177) -/
  gPos : Int := 0
  gVel : Int := 0
  gTe : Int := 0
  gHas : Bool := false
  deriving DecidableEq, Repr, Inhabited

/-- The encoder input of an axis (R227): count, present lines, and the edges of the last millisecond as pairs of
network time in units of 2.5 ns and the count after the edge, newest first. -/
structure EncSt where
  c : Int := 0
  a : Bool := true
  b : Bool := true
  edges : List (Nat × Int) := []
  /-- the published sample: its count of publishes, count, velocity, instant (network time, ns), epoch -/
  no : Nat := 0
  pubC : Int := 0
  pubV : Int := 0
  pubT : Nat := 0
  pubTe : Int := 0
  pubEp : Nat := 0
  /-- the status byte it was published with, and the levels at the last 2.5 ns sample (R227) -/
  pubSt : Nat := 0
  rawA : Bool := true
  rawB : Bool := true
  deriving DecidableEq, Repr, Inhabited

/-- An axis beside its registers (R172–R179, R224–R228). -/
structure AxSt where
  prim : SrcAcc := {}
  sec : SrcAcc := {}
  enc : EncSt := {}
  /-- last delivery, and the deliveries before it, newest first, at most seven (R182, R196) -/
  del : Delivery := {}
  hist : List Delivery := []
  /-- the result FB_HOLDOVER extrapolates from (R177) -/
  good : Delivery := {}
  /-- the switch offset is due at the secondary's next result (R176); a delivery is on its way to the port (R182) -/
  fbPend : Bool := false
  toPort : Bool := false
  /-- elapsed time at which the holdover timer started, and the HOLDT it runs to, which no write extends (R176, R178) -/
  holdAt : Nat := 0
  holdT : Nat := 0
  /-- elapsed time since which the cross-check difference has exceeded THR, or stayed within THR / 2 (R173) -/
  xcAt : Option Nat := none
  xcClrAt : Option Nat := none
  xcFault : Bool := false
  /-- TEN.ARM was written since the last entry to FB_SAFE (R179) -/
  armed : Bool := false
  /-- offset in use, and a commit due at the next delivery (R226) -/
  ofs : Int := 0
  ofsPend : Option Int := none
  /-- the source in use is the secondary (R174, R177) -/
  useSec : Bool := false
  deriving DecidableEq, Repr, Inhabited

/-- The chip error controller and the debug port beside their registers (R27, R28, R430–R440, R458). -/
structure EcSt where
  /-- freeze held by FREEZE_N, and by software (R436) -/
  frzPin : Bool := false
  frzSw : Bool := false
  frzTimeout : Nat := 0
  /-- AON periods at entry to the freeze (R438, R440) -/
  frzAt : Nat := 0
  /-- level of FREEZE_N low; SAFE_N counts as low, from power-good until it has been high for 1 µs; elapsed time at which SAFE_N went
  high (R432) -/
  freezeLow : Bool := false
  safeLow : Bool := true
  /-- SAFE_N is low at the ball: an open pin is (R432, R455); the condition of 0x1005 has been reported (R429); an entry to the chip
  safe state waits for the clocks with what it does to the axes (R433) -/
  safePin : Bool := true
  safeTold : Bool := false
  safeDue : Bool := false
  safeHighAt : Nat := 0
  /-- another device pulls ALARM_N (R444) -/
  almIn : Bool := false
  /-- regions under reset and when their reset began -/
  rstAt : Vector (Option Nat) 4 := Vector.replicate 4 none
  /-- accesses to a region under reset, reported as ISO when it returns: the block, and for a write the agent's code and the
  offset (R26, R28) -/
  isoPend : List (Blk × Option (Nat × Nat)) := []
  /-- DAP_ADDR and SNAPEN of the debug port (R439) -/
  dapAddr : Word := 0
  snapEn : Bool := false
  /-- instruction register, boundary register, captured cells and DAP register of the TAP (R439, R458) -/
  jtagIr : BitVec 5 := 1
  boundary : BitVec 513 := 0
  sampled : BitVec 513 := 0
  dapOut : BitVec 34 := 0
  deriving DecidableEq, Repr, Inhabited

/-- One sentinel channel in DORMANT (R420): its channel, whether a reference has been taken, whether the present burst's angle
has, consecutive creeps and faults. -/
structure SentCh where
  ch : Nat := 0
  used : Bool := false
  seen : Bool := false
  got : Bool := false
  creeps : Nat := 0
  faults : Nat := 0
  deriving DecidableEq, Repr, Inhabited

/-- Power, bring-up and modes beside their registers (R405–R423). -/
structure PwrSt where
  /-- bring-up stage 1–7; 8 once stage 7 is over (R410) -/
  stage : Nat := 1
  vinOk : Bool := true
  resetLow : Bool := false
  strap : Bool := false
  /-- VCORE is in its window: power-good has been reached (R405) -/
  good : Bool := false
  /-- HOLD_BEACON in force (R411) -/
  hold : Bool := false
  /-- VEXC has fallen below 7.5 V and not risen above 7.8 V since (R77) -/
  vexcLow : Bool := false
  /-- the PLL has lost its lock or its reference (R408, R430) -/
  pllDead : Bool := false
  /-- channel mask of the pending mode, the mode pending being PWR_MODE.TARGET (R416) -/
  pendMask : Nat := 0
  /-- elapsed time of the request (R416), AON periods at entry to DORMANT and at the last sentinel wake (R420) -/
  pendAt : Nat := 0
  dormAt : Nat := 0
  wakeAt : Nat := 0
  /-- a wake of DORMANT is due (R420, R421) -/
  waking : Bool := false
  /-- sentinel wake in DORMANT (R420): 0 none, 1 VCORE and PLL starting, 2 burst running, 3 burst over -/
  phase : Nat := 0
  sent : Vector SentCh 4 := Vector.replicate 4 {}
  /-- RESCUE was entered by R418 and its alarm is kept -/
  autoRsc : Bool := false
  /-- no slot passed verification: ROM service only (R398) -/
  romOnly : Bool := false
  /-- BEACON settings taken at bring-up, and those whose sentinel fields the last entry to DORMANT took; empty where none
  were valid (R414) -/
  beacon : List Byte := []
  sentSet : List Byte := []
  deriving DecidableEq, Repr, Inhabited

/-- What the host port drives in answer to the last frame (R354, R359): the response with the wait bytes before it, wait bytes
alone, or nothing. -/
inductive HpOut where
  | response | waits | undriven
  deriving DecidableEq, Repr, Inhabited

/-- The host port and the mailbox beside their registers (R357, R358, R361). -/
structure HpSt where
  /-- posted words: address and word -/
  posted : List (Nat × Word) := []
  /-- the kept response: status byte, data words (R358) -/
  kept : Option (List Nat) := none
  /-- the response of the last frame, as sent, and what the port drives -/
  sent : List Nat := []
  out : HpOut := .undriven
  /-- width code of that frame, by which its response is driven (R350, R354) -/
  width : Nat := 0
  /-- result of the mailbox command that completes next: SEQ, RESULT, result words (R361) -/
  mbRes : Option (Nat × Nat × List Word) := none
  /-- SEQ of a SET_MODE that completes when its mode is in force (R415) -/
  mbMode : Option Nat := none
  /-- readable result words -/
  mbWords : List Word := []
  /-- network time of the last advance of HP_ALIVE.MS (R364) -/
  msAt : Nat := 0
  deriving DecidableEq, Repr, Inhabited

/-- An answer of the Keeper's network stack (R50, R365): an ARP or an ICMP echo reply for an address, the answer to a GET of a
data set, or the refusal of a SET. -/
inductive NetAnswer where
  | arp (ip : Nat) | echo (ip : Nat) | ptpData (d : PtpData) | ptpRefused
  deriving DecidableEq, Repr, Inhabited

/-- A MAC beside its registers (R366): live seconds of the stamps, and the last one-step originTimestamp (R367). -/
structure EthSt where
  rxSec : Nat := 0
  txSec : Nat := 0
  rxEp : Nat := 0
  txEp : Nat := 0
  origin : Option (Nat × Nat) := none
  /-- 802.1Q VID of the last frame sent, where it was tagged (R369) -/
  tag : Option Nat := none
  /-- the last one-step Sync was sent over UDP/IPv4, with a UDP checksum of 0 (R367) -/
  sum0 : Bool := false
  /-- the last answers of the Keeper's stack on this port, newest first (R50, R365) -/
  answers : List NetAnswer := []
  /-- the address, mask and gateway that ETH_SET gives (R365, R380) -/
  ip : Nat := 0
  mask : Nat := 0
  gateway : Nat := 0
  deriving DecidableEq, Repr, Inhabited

/-- A peer of the group (R372–R374). -/
structure Peer where
  node : Nat
  chip : Nat
  flevel : Nat := 0
  /-- advertised interval in ms, and elapsed time of the last HEARTBEAT accepted -/
  interval : Nat := 100
  seenAt : Nat := 0
  lost : Bool := false
  /-- 0x0F02 has been raised for this sender (R372) -/
  reported : Bool := false
  /-- acknowledged the last ACTIVATE (R397) -/
  acked : Bool := false
  deriving DecidableEq, Repr, Inhabited

/-- A message that was sent, with the fields of its header (R370). -/
structure EnvenOut where
  type : Nat
  flevel : Nat
  mlevel : Nat
  flags : Nat
  group : Nat
  node : Nat
  chip : Nat
  role : Nat
  seq : Nat
  epoch : Nat
  tsec : Nat
  tsub : Nat
  payload : List Nat
  deriving DecidableEq, Repr, Inhabited

/-- Enven (R370–R374, R399). -/
structure EnvenSt where
  on : Bool := false
  group : Nat := 0
  node : Nat := 0
  chip : Nat := 0
  port : Nat := 48840
  mcast : Nat := 0xEFC03028
  interval : Nat := 100
  fwd : Nat := 0
  rxQ : Nat := 0
  seq : Nat := 0
  /-- messages discarded and counted (R371, R372) -/
  discarded : Nat := 0
  peers : List Peer := []
  /-- messages accepted in the last 2 s: group, node, chip, SEQ and elapsed time (R372) -/
  recent : List (Nat × Nat × Nat × Nat × Nat) := []
  /-- messages sent, newest first -/
  sent : List EnvenOut := []
  /-- elapsed time of the last HEARTBEAT sent, and since when a higher minimum has held, with its level (R374, R399) -/
  hbAt : Nat := 0
  /-- the firmware has started and not yet sent a HEARTBEAT (R395) -/
  hbFirst : Bool := false
  riseAt : Option (Nat × Nat) := none
  /-- an ACTIVATE still to be acknowledged: its payload, resends made, elapsed time of the last sending, SEQ (R397) -/
  activate : Option (List Nat × Nat × Nat × Nat) := none
  deriving DecidableEq, Repr, Inhabited

/-- A schedule of Tender (R394): target in ns of network time, STRICT, LATEMAX in s, and the slot it uses. -/
structure Sched where
  target : Nat
  strict : Bool
  lateMax : Nat
  slot : Nat
  armed : Bool := false
  deriving DecidableEq, Repr, Inhabited

/-- The Keeper's services (R380–R402). -/
structure KeeperSt where
  /-- ARG0 to ARG2 of PTP_SET; announceReceiptTimeout is 3 by default (R50, R380) -/
  ptpCfg : Vector Nat 3 := #v[0, 0x03000000, 0]
  traceCap : Nat := 0
  /-- thresholds: Tj lower and upper in 1/16 °C, VIN lower and upper in mV (R384) -/
  tLo : Nat := 1760
  tHi : Nat := 2000
  vLo : Nat := 7000
  vHi : Nat := 41000
  /-- consecutive samples beyond, and back inside, per condition in the order twarn, thigh, tcrit, vinlo, vinhi, rail -/
  beyond : Vector Nat 6 := Vector.replicate 6 0
  inside : Vector Nat 6 := Vector.replicate 6 0
  /-- live sensor words in the order of SNS_TJ to SNS_TMAX (R385), and elapsed time of the newest sample -/
  sample : Vector Nat 13 := Vector.replicate 13 0
  sampleAt : Nat := 0
  sampleT : Nat := 0
  sampled : Bool := false
  /-- next incident number (R388) -/
  incNo : Nat := 1
  /-- slot states: 0 EMPTY, 1 WRITING, 2 VALID, 3 FAILED, 4 TRIAL, 5 ACTIVE (R393) -/
  slotA : Nat := 0
  slotB : Nat := 0
  imgLen : Nat := 0
  failCheck : Nat := 0
  lastRes : Nat := 0
  lastLate : Nat := 0
  acks : Nat := 0
  sched : Option Sched := none
  /-- boots made on the present trial, elapsed time of the last second counted and of the last save (R386, R393) -/
  boots : Nat := 0
  trialAt : Nat := 0
  bootSeq : Nat := 0
  /-- engines the Keeper started from the image on trial (R396) -/
  keptEngines : List (Fin 8) := []
  /-- engines whose hand-over waits for the release of HOLD_BEACON (R22) -/
  handDue : List (Fin 8) := []
  /-- key slots: empty, or the fused hash and whether it is revoked (R391) -/
  keys : Vector (Option (BitVec 256 × Bool)) 4 := Vector.replicate 4 none
  /-- the nonce in force and the elapsed time of its issue (R402) -/
  nonce : Option (BitVec 256 × Nat) := none
  failures : Nat := 0
  lockAt : Option Nat := none
  /-- elapsed time of the last count of KS_DBG.REMAIN; the rights granted by response (R401) -/
  grantAt : Nat := 0
  grant : Nat := 0
  /-- seconds of the grant left; none until reset -/
  grantLeft : Option Nat := some 0
  /-- the Keeper runs (it restarts with the System region, R29); network time of KCNT's last advance (R364) -/
  aliveAt : Nat := 0
  /-- alarm messages sent in the present second and the trace bits sent in it (R348) -/
  fwdAt : Nat := 0
  fwdAlarms : Nat := 0
  fwdBits : Nat := 0
  deriving DecidableEq, Repr, Inhabited

/-- An emulator beside its registers (R185–R193). -/
structure EmSt where
  e : Int := 0
  /-- the edges emitted, which the lines A and B follow, and E at the last of them, which Z follows (R187–R189) -/
  q : Int := 0
  ez : Int := 0
  /-- instant of the last edge on the 2.5 ns grid, two to a fabric cycle -/
  tLast : Nat := 0
  del : Delivery := {}
  lostAlarm : Bool := false
  /-- LAT and GAP in use since the last delivery (R194) -/
  lat : Nat := 0
  gap : Nat := 10
  /-- the direction line and the grid instant of its last change, and whether the step line pulses -/
  dir : Bool := false
  dirAt : Nat := 0
  pulse : Bool := false
  /-- SSI: the word with its error and parity bits, its bits, bits left to drive, a transfer runs, the low bit after the word was
  driven, the last edge of the running monoflop, elapsed time of the last clock edge, data line -/
  word : Nat := 0
  wbits : Nat := 0
  left : Nat := 0
  run : Bool := false
  low : Bool := false
  mono : Option Nat := none
  lastEdge : Nat := 0
  data : Bool := true
  /-- level last seen at the clock input, and whether the cell drove it (R183) -/
  clk : Bool := true
  drv : Bool := false
  deriving DecidableEq, Repr, Inhabited

/-- A port cell beside its registers: the levels its receivers read while nothing drives the cell (R183, R184). -/
structure PtSt where
  /-- the level of PTn_P: 1 where nothing drives the line (R454) -/
  inP : Bool := true
  /-- the level of PTn_N, which in MODE 0 is the other of PTn_P -/
  inN : Bool := false
  deriving DecidableEq, Repr, Inhabited

/-- An edge awaiting its record (R195–R197): instant in half ns of network time and of elapsed time, edge bit, whether software made it,
epoch and DISC at the edge, and the latest delivery arrived before detection. -/
structure PendEdge where
  te2 : Int
  el2 : Int
  edge : Bool
  epoch : Nat
  disc : Bool
  seen : Delivery
  deriving DecidableEq, Repr, Inhabited

/-- A latch unit beside its registers (R195–R198). -/
structure LuSt where
  edges : List PendEdge := []
  lost : Bool := false
  alarmed : Bool := false
  /-- the last record: position and word 0 (its time is LU_TIME) -/
  recPos : Nat := 0
  recW0 : Nat := 0
  /-- level of the input that the filter has let through, whether the cell drove it, and the instant on the 2.5 ns grid and
  the elapsed time of the first sample of a new one (R183, R195) -/
  lvl : Bool := false
  drv : Bool := false
  cand : Option (Nat × Nat) := none
  deriving DecidableEq, Repr, Inhabited

/-- A sector comparator beside its registers (R199–R202): the window in use, a commit pending, the first test done, the
last position. -/
structure SecSt where
  loL : Nat := 0
  loH : Nat := 0
  hiL : Nat := 0
  hiH : Nat := 0
  commit : Option (Nat × Nat × Nat × Nat) := none
  tested : Bool := false
  last : Int := 0
  deriving DecidableEq, Repr, Inhabited

/-- The evaluation in progress in the loop engine (R241–R243): its group and loop, its start as elapsed time and the time it takes in
ns, the group instant, the measured value it started with and whether no lane matched, the words of its bank, what each generator
injected at its instant (R250); `old`: its batch was overrun meanwhile. -/
structure LpEval where
  grp : Fin 4
  loop : Fin 64
  start : Nat
  ns : Nat
  inst : Nat
  y : Int
  noLane : Bool
  co : List Int
  inj : Vector Int 4 := Vector.replicate 4 0
  old : Bool
  deriving DecidableEq, Repr

/-- A rate group beside its registers (R242–R244): loops of the batch not yet evaluated, the batch's instant (network
time, ns), the batch was overrun and the next has not started, the overrun alarm raised, elapsed time of the last instant, and
a step since it (R45). -/
structure RgSt where
  batch : List Nat := []
  inst : Nat := 0
  overrun : Bool := false
  alarmed : Bool := false
  lastAt : Option Nat := none
  stepped : Bool := false
  deriving DecidableEq, Repr, Inhabited

/-- Histories of one bank of a shaping filter: x1, x2, y1, y2 of its four sections (R217). -/
structure ShBank where
  x1 : Vector Int 4 := Vector.replicate 4 0
  x2 : Vector Int 4 := Vector.replicate 4 0
  y1 : Vector Int 4 := Vector.replicate 4 0
  y2 : Vector Int 4 := Vector.replicate 4 0
  deriving DecidableEq, Repr, Inhabited

/-- A resampler and shaping lane beside its registers (R205–R221): deliveries received, newest first, at most eight;
elapsed time and network time of the last servo instant handled; GB due; the live output set; the shaping histories, a
seeding due, the fade's counter and length, and whether a fade starts or the bank changes at the next instant. -/
structure RsSt where
  win : List Delivery := []
  lastAt : Option Nat := none
  lastTs : Nat := 0
  gb : Bool := false
  gbEnable : Bool := false
  stepped : Bool := false
  prevRec : Nat := 0
  posOut : Int := 0
  velOut : Int := 0
  w0 : Nat := 0
  shOut : Int := 0
  epochOut : Nat := 0
  leadOut : Nat := 0
  tsOut : Nat := 0
  banks : Vector ShBank 2 := Vector.replicate 2 {}
  seed : Bool := false
  fadeJ : Nat := 0
  fadeF : Nat := 0
  startFade : Bool := false
  /-- target of the fade that runs or starts; the bank that becomes active at the next servo instant -/
  fadeTgt : Nat := 0
  switchTo : Option Nat := none
  /-- the latched request waits for the next servo instant: SHEN was written 0 (R221) -/
  reqDue : Bool := false
  /-- the last end of a fade (R221): its cycle, whether a request was latched, NOP before it -/
  ended : Option (Nat × Bool × Nat) := none
  /-- the last cycle in which RS_SH_IN was written, and its value before (R218) -/
  shPrev : Option (Nat × Int) := none
  deriving DecidableEq, Repr, Inhabited

/-- An injection generator beside its registers (R252–R256): instant counter, the injected value, phase, LFSR and its shift count, samples
held, instants done in a taper and the factor it starts from; the loop's owner when the generator was armed (R249); the
elapsed time of the START, and the instant j = 0 as network time once it has come. -/
structure InjSt where
  j : Nat := 0
  out : Int := 0
  phase : Nat := 0
  lfsr : Nat := 1
  shiftCnt : Nat := 0
  samples : List Word := []
  taper : Nat := 0
  w : Rat := 0
  owner : Nat := 0
  startAt : Nat := 0
  firstInst : Option Nat := none
  deriving DecidableEq, Repr, Inhabited

/-- The capture unit beside its registers (R257–R264): live read index, overwritten count, wraps, staged LEN and PRE and a
commit due; samples taken since ARM; the condition has been met, samples left to the trigger sample, samples taken from it
on and its epoch; the trigger channel's previous sample, a trigger waiting, the injection start known before; a grid break
that the next sample shows, and what the capture has met so far; batches to sample (instant, overrun), elapsed time of the
last lane output or frame boundary sampled; and the capture memory, by sample index, a key that nothing has written since
its contents became undefined reading the free value of `undef` plus its index (log 4, log 70). -/
structure CapSt where
  rp : Nat := 0
  /-- the old length, at which the read index wraps for the rest of its pass (R262, R330) -/
  rpLen : Option Nat := none
  /-- the rest, in the order named above -/
  ovr : Nat := 0
  wraps : Nat := 0
  staged : Option (Nat × Nat) := none
  commitDue : Bool := false
  taken : Nat := 0
  met : Bool := false
  dly : Nat := 0
  post : Nat := 0
  trigEpoch : Nat := 0
  prev : Option Int := none
  trigReq : Bool := false
  injSeen : Option Nat := none
  gbDue : Bool := false
  gbIn : Bool := false
  skipIn : Bool := false
  shortIn : Bool := false
  due : List (Nat × Bool) := []
  lastAt : Option Nat := none
  mem : List (Nat × Word) := []
  undef : Option Nat := none
  deriving DecidableEq, Repr, Inhabited

/-- The whole state of the device. -/
structure State where
  /-- register fields, keyed by 32 × byte address + low bit, sorted, none at its reset value -/
  regs : List (Nat × Nat) := []
  /-- pool SRAM, engine RAMs, Lens tables and capture memory: sorted, none at the value 0 an unlisted byte reads as -/
  mem : List Host.Cell := []
  /-- SRAM words struck by an ECC error that nothing has met, by word address: true where it is uncorrectable (R280) -/
  ecc : List (Nat × Bool) := []
  /-- the boot flash, likewise, an unlisted byte reading 0xFF -/
  flash : List Host.Cell := []
  /-- words of isolated blocks as they stood when isolation completed, by address (R27) -/
  held : List (Nat × Word) := []
  /-- elapsed time in 2^-28 ns: the sum of the effective increments (R465); fabric cycles; AON clock periods -/
  elapsed : Nat := 0
  cycle : Nat := 0
  aon : Nat := 0
  /-- field keys hardware has set in this fabric cycle (R9), and sources that occurred in it for the counters (R441) -/
  fresh : List Nat := []
  occ : List Nat := []
  /-- levels of the RO bits the event counters watched in the last cycle (R442) -/
  evcPrev : Vector Bool 32 := Vector.replicate 32 false
  /-- live event counts (R441) -/
  evc : Vector Nat 32 := Vector.replicate 32 0
  /-- word returned by the last read command: the model's own, for the sender of the command (log 104) -/
  answer : Word := 0
  /-- the model's own counter the free values are applied to (log 1) -/
  free : Nat := 0
  /-- the time unit -/
  time : TimeSt := {}
  /-- a slot whose passed one-shot target fires late at the next tick (R64) -/
  slotLate : Vector Bool 64 := Vector.replicate 64 false
  /-- a slot that a DISARM of its fire tick disarms after the firing (R66) -/
  slotOff : Vector Bool 64 := Vector.replicate 64 false
  /-- sequence numbers of the record sources and of the fence requesters (R325, R335), by class and index -/
  seqs : List (Nat × Nat) := []
  /-- the queue controller's input buffer, oldest first (R347) -/
  inbuf : List InRec := []
  /-- writes of this fabric cycle, in the order of R329: they are made with its end, after its removals -/
  qWait : List InRec := []
  /-- fence requests accepted and not yet placed, oldest first (R339) -/
  fences : List FenceRec := []
  /-- the queues beside their registers (R330, R346) -/
  qs : Vector QSt 16 := Vector.replicate 16 {}
  /-- staged commits due at the queues (R330) -/
  qCommit : Vector Bool 16 := Vector.replicate 16 false
  /-- staging words of Q_PUSH0 to Q_PUSH3, by owner code (R326) -/
  staging : Vector QEntry 16 := Vector.replicate 16 {}
  /-- source mask of the fence command, by owner code (R339) -/
  fenceSrc : Vector Word 16 := Vector.replicate 16 0
  /-- the alarm table: 128 entries, and the overflow entry of each grade (R341) -/
  alarms : Vector AlarmEntry 132 := Vector.replicate 132 {}
  /-- entries that an acknowledgement or the end of a condition freed in this fabric cycle, with their indices: a raise of the
  cycle keeps them (R342) -/
  alarmEnds : List (Nat × AlarmEntry) := []
  /-- raises of this fabric cycle, by ascending source, then code: they act after everything else it brings the table (R342) -/
  alarmRaises : List AlarmRaise := []
  /-- alarm records on the Keeper's private path (R344), and the entries whose changes it could not hold (R348) -/
  keeperPath : List AlarmRec := []
  keeperMiss : List Nat := []
  /-- the incident being recorded (R349) -/
  incident : Incident := {}
  /-- the engines -/
  le : Vector LeSt 8 := Vector.replicate 8 {}
  /-- the excitation generators -/
  exg : Vector ExgSt 16 := Vector.replicate 16 {}
  /-- the analogue outputs -/
  ao : Vector AoSt 8 := Vector.replicate 8 {}
  /-- the axes -/
  ax : Vector AxSt 16 := Vector.replicate 16 {}
  /-- the loops -/
  lp : Vector LpSt 64 := Vector.replicate 64 {}
  /-- the rate groups -/
  rg : Vector RgSt 4 := Vector.replicate 4 {}
  /-- the evaluation in progress (R241, R243) -/
  lpEval : Option LpEval := none
  /-- the resampler lanes -/
  rs : Vector RsSt 16 := Vector.replicate 16 {}
  /-- the injection generators -/
  inj : Vector InjSt 4 := Vector.replicate 4 {}
  /-- the capture unit -/
  cap : CapSt := {}
  /-- the emulators -/
  em : Vector EmSt 16 := Vector.replicate 16 {}
  /-- the port cells -/
  pt : Vector PtSt 64 := Vector.replicate 64 {}
  /-- the latch units -/
  lu : Vector LuSt 32 := Vector.replicate 32 {}
  /-- the sector comparators -/
  sec : Vector SecSt 64 := Vector.replicate 64 {}
  /-- the chip error controller and the debug ports -/
  ec : EcSt := {}
  /-- power, clocks and bring-up -/
  pwr : PwrSt := {}
  /-- the host port and its mailbox -/
  hp : HpSt := {}
  /-- the Ethernet MACs -/
  eth : Vector EthSt 2 := Vector.replicate 2 {}
  /-- Enven -/
  enven : EnvenSt := {}
  /-- the Keeper -/
  keeper : KeeperSt := {}
  /-- the lanes of the acquisition chain -/
  lanes : Vector LaneSt 40 := Vector.replicate 40 {}
  /-- the front end -/
  fe : FeSt := {}
  /-- the resolver channels -/
  rc : Vector RcSt 16 := Vector.replicate 16 {}
  /-- the auxiliary inputs -/
  ai : Vector AiSt 8 := Vector.replicate 8 {}
  /-- the Lens blocks -/
  lens : Vector LensSt 16 := Vector.replicate 16 {}
  /-- commands waiting, first in, first out: the model's own queue -/
  pending : List Instr := []
  deriving DecidableEq, Repr, Inhabited

/-- The device right after reset: stage 1 of bring-up, every register at its reset value, no memory listed, no command
waiting (R410, R435). -/
def State.reset : State := {}

end Sys2Proof.Machine
end

