-- ==== Sys2Proof/Machine/Ops.lean ====
section
/-!
DEFINITION. The named operations over the state: register fields, memory bytes, the views of network time, the running
state of a block (R26), the elapsed time of R465 and the sequence numbers of R325.
-/

namespace Sys2Proof.Machine

/-- The outcome of a command. -/
abbrev Outcome := Host.Outcome State Fault Refusal

/-! ### Sorted association lists -/

/-- The value at a key. -/
def assocGet {α : Type} (k : Nat) : List (Nat × α) → Option α
  | [] => none
  | (k', v) :: t => if k = k' then some v else assocGet k t

/-- The list with the value at a key replaced or inserted in order. -/
def assocPut {α : Type} (k : Nat) (v : α) : List (Nat × α) → List (Nat × α)
  | [] => [(k, v)]
  | (k', v') :: t =>
    if k < k' then (k, v) :: (k', v') :: t
    else if k = k' then (k, v) :: t
    else (k', v') :: assocPut k v t

/-- The list without a key. -/
def assocErase {α : Type} (k : Nat) (l : List (Nat × α)) : List (Nat × α) := l.filter (fun p => p.1 != k)

/-- A map with a default: the default's key is erased, so that equal maps are equal lists. -/
def assocSet {α : Type} [DecidableEq α] (d : α) (k : Nat) (v : α) (l : List (Nat × α)) : List (Nat × α) :=
  if v = d then assocErase k l else assocPut k v l

/-- Keys strictly rising and no value equal to its default. -/
def assocWf {α : Type} [DecidableEq α] (d : Nat → α) : List (Nat × α) → Bool
  | [] => true
  | [(k, v)] => v != d k
  | (k, v) :: (k', v') :: t => decide (k < k') && v != d k && assocWf d ((k', v') :: t)

/-! ### Register fields -/

/-- Key of a field of a block in `State.regs`. -/
def fkey (b : Blk) (f : Fld) : Nat := 32 * (blkBase b + f.off) + f.lo

/-- Value of a field. -/
def getF (s : State) (b : Blk) (f : Fld) : Nat :=
  ((assocGet (fkey b f) s.regs).getD (f.rst (blkIndex b))) % 2 ^ f.width

/-- A field set to a value, cut to the field's width. -/
def setF (b : Blk) (f : Fld) (v : Nat) (s : State) : State :=
  { s with regs := assocSet (f.rst (blkIndex b) % 2 ^ f.width) (fkey b f) (v % 2 ^ f.width) s.regs }

/-- A field read as a signed number (R6). -/
def getI (s : State) (b : Blk) (f : Fld) : Int := toSigned f.width (getF s b f)

/-- A field set to a signed number modulo its width. -/
def setI (b : Blk) (f : Fld) (i : Int) (s : State) : State := setF b f (ofSigned f.width i) s

/-- A one-bit field is 1. -/
def flag (s : State) (b : Blk) (f : Fld) : Bool := getF s b f == 1

/-- Hardware sets a bit; it stays set against a clear by software in the same fabric cycle (R9). -/
def raiseF (b : Blk) (f : Fld) (s : State) : State :=
  let s := setF b f 1 s
  if s.fresh.contains (fkey b f) then s else { s with fresh := fkey b f :: s.fresh }

/-- A bit set when the condition holds. -/
def raiseIf (c : Bool) (b : Blk) (f : Fld) (s : State) : State := if c then raiseF b f s else s

/-- A counting field incremented, saturating at its largest value. -/
def incF (b : Blk) (f : Fld) (s : State) : State := setF b f (incSat f.width (getF s b f)) s

/-- A source of the event counters occurs in this fabric cycle (R441): code and index of R442. -/
def occurs (code idx : Nat) (s : State) : State :=
  if s.occ.contains (code * 256 + idx) then s else { s with occ := (code * 256 + idx) :: s.occ }

/-! ### Memory -/

/-- A byte of the pool, the engine RAMs, the Lens tables or the capture memory; unlisted bytes read 0 (log 4). -/
def memByte (s : State) (a : Nat) : Byte := (assocGet a s.mem).getD 0

/-- A byte of memory written: a write ends an ECC error of its word (R280). -/
def setByte (a : Nat) (v : Byte) (s : State) : State :=
  { s with mem := assocSet 0 a v s.mem, ecc := assocErase (a / 4 * 4) s.ecc }

/-- The ECC error that waits in the word of an address: true where it is uncorrectable (R280). -/
def eccAt (s : State) (a : Nat) : Option Bool := assocGet (a / 4 * 4) s.ecc

/-- A read of the word at an address meets an uncorrectable error (R280). -/
def eccBad (s : State) (a : Nat) : Bool := eccAt s a == some true

/-- The little-endian word at an address (R12). -/
def memWord (s : State) (a : Nat) : Word :=
  BitVec.ofNat 32 ((memByte s a).toNat + 256 * (memByte s (a + 1)).toNat + 65536 * (memByte s (a + 2)).toNat
    + 16777216 * (memByte s (a + 3)).toNat)

/-- A word written, least significant byte lowest (R12). -/
def setWord (a : Nat) (w : Word) (s : State) : State :=
  setByte (a + 3) (BitVec.ofNat 8 (w.toNat / 16777216))
    (setByte (a + 2) (BitVec.ofNat 8 (w.toNat / 65536))
      (setByte (a + 1) (BitVec.ofNat 8 (w.toNat / 256)) (setByte a (BitVec.ofNat 8 w.toNat) s)))

/-- Consecutive words written. -/
def setWords (a : Nat) : List Word → State → State
  | [], s => s
  | w :: t, s => setWords (a + 4) t (setWord a w s)

/-- The 64-bit word at an address. -/
def memDouble (s : State) (a : Nat) : Nat := (memWord s a).toNat + 2 ^ 32 * (memWord s (a + 4)).toNat

/-- The bytes of memory from an address. -/
def memBytes (s : State) (a n : Nat) : List Byte := (List.range n).map (fun i => memByte s (a + i))

/-- A byte of the boot flash; an erased byte reads 0xFF (log 5). -/
def flashByte (s : State) (a : Nat) : Byte := (assocGet a s.flash).getD 0xFF

/-- A byte of the boot flash written. -/
def setFlash (a : Nat) (v : Byte) (s : State) : State := { s with flash := assocSet 0xFF a v s.flash }

/-- Bytes of the boot flash written from an address. -/
def setFlashBytes (a : Nat) : List Byte → State → State
  | [], s => s
  | v :: t, s => setFlashBytes (a + 1) t (setFlash a v s)

/-- The bytes of the boot flash from an address. -/
def flashBytes (s : State) (a n : Nat) : List Byte := (List.range n).map (fun i => flashByte s (a + i))

/-- Little-endian word of four bytes of the boot flash. -/
def flashWord (s : State) (a : Nat) : Nat :=
  (flashByte s a).toNat + 256 * (flashByte s (a + 1)).toNat + 65536 * (flashByte s (a + 2)).toNat
    + 16777216 * (flashByte s (a + 3)).toNat

/-- The bytes of a word, least significant first (R12). -/
def wordBytes (w : Nat) : List Byte :=
  [BitVec.ofNat 8 w, BitVec.ofNat 8 (w / 256), BitVec.ofNat 8 (w / 65536), BitVec.ofNat 8 (w / 16777216)]

/-- Erase `n` bytes of the boot flash. -/
def eraseFlash (a n : Nat) (s : State) : State :=
  { s with flash := s.flash.filter (fun p => decide (p.1 < a) || decide (a + n ≤ p.1)) }

/-- Base of pool SRAM (R375). -/
def poolBase : Nat := 0x28000000

/-! ### Free values -/

/-- A value the spec leaves open: the free value of the count, which then advances (log 1). -/
def freeVal (s : State) : Nat := Config.freeValue s.free
def freeNext (s : State) : State := { s with free := s.free + 1 }

/-! ### Time -/

/-- TIME_NS (R34). -/
def timeNs (s : State) : Nat := s.time.now % 2 ^ 32
/-- TIME_SUB (R34). -/
def timeSub (s : State) : Nat := s.time.now % 1000000000
/-- TIME_SEC (R34). -/
def timeSec (s : State) : Nat := s.time.now / 1000000000 % 2 ^ 48
/-- TIME_EPOCH (R44). -/
def timeEpoch (s : State) : Nat := s.time.epoch % 2 ^ 16
/-- Elapsed time in ns: the sum of the effective increments, steps left out (R465). -/
def elapsedNs (s : State) : Nat := s.elapsed / 2 ^ 28
/-- Nanoseconds elapsed since an elapsed time. -/
def sinceNs (s : State) (t : Nat) : Nat := (s.elapsed - t) / 2 ^ 28


/-- Network time in 2^-28 ns (R35). -/
def timeUnits (s : State) : Nat := s.time.now * 2 ^ 28 + s.time.frac

/-- The present tick is the first at or after an instant that lies `d` units of 2^-28 ns back (R63). -/
def firstTick (s : State) (d : Nat) : Bool := decide (d < s.time.inc)

/-- A target is passed when it lies in [TIME_NS − 2^31, TIME_NS] modulo 2^32 (R63). -/
def passed (s : State) (t : Nat) : Bool := decide ((timeNs s + 2 ^ 32 - t % 2 ^ 32) % 2 ^ 32 ≤ 2 ^ 31)

/-! ### Clocks, modes and the blocks in service -/

/-- The device is frozen (R436). -/
def frozen (s : State) : Bool := s.ec.frzPin || s.ec.frzSw

/-- Mode in force (R423): 0 FULL, 1 BALANCED, 2 RESCUE, 3 BEACON, 4 DORMANT. -/
def mode (s : State) : Nat := getF s .pwr Pwr.MODE_MODE
def dormant (s : State) : Bool := mode s == 4

/-- Register accesses are made: the device is neither frozen nor in DORMANT (R438, R419). -/
def awake (s : State) : Bool := !frozen s && !dormant s

/-- The fast clocks of a region run: the PLL has locked (R410), the device is awake, and after loss of the PLL only the
System region runs (R430). -/
def clocked (s : State) (r : Region) : Bool :=
  decide (4 ≤ s.pwr.stage) && awake s && (flag s .pwr Pwr.CLK_PLLLOCK || r == .system)

/-- A region is under reset (R434). -/
def regionReset (s : State) (r : Region) : Bool := flag s .ec (Ec.RERR_RSTBUSY (regionNum r))

/-- Blocks of the System region that its reset leaves running (R29, R435, log 79). -/
def resetKeeps : Blk → Bool
  | .time | .slot _ | .ec | .evc | .chip | .pwr => true
  | _ => false

/-- A block's region is under reset, and the reset reaches the block. -/
def underReset (s : State) (b : Blk) : Bool := regionReset s (blkRegion b) && !resetKeeps b

def isolated (s : State) (b : Blk) : Bool := flag s b Hdr.ISOLATED
def owner (s : State) (b : Blk) : Nat := getF s b (Hdr.OWNER b)

/-- The block processes: its clock runs, it is not isolated and its region is not under reset (R27, R28). -/
def live (s : State) (b : Blk) : Bool :=
  clocked s (blkRegion b) && !isolated s b && !underReset s b

/-- Loop states of LPn_STATUS (R237): the loop is closed. -/
def lpClosed (s : State) (n : Fin 64) : Bool :=
  let st := getF s (.lp n) Lp.STATUS_STATE
  st == 3 || st == 4 || st == 5

/-- The axis a loop is bound to. -/
def lpAxis (s : State) (n : Fin 64) : Fin 16 := ⟨getF s (.lp n) Lp.CFG_AXIS % 16, Nat.mod_lt _ (by decide)⟩

/-- Loops bound to an axis, in ascending order. -/
def axLoops (s : State) (n : Fin 16) : List (Fin 64) := (List.finRange 64).filter (fun l => lpAxis s l == n)

/-- BLK_CTRL.RUNNING (R26): the running state each chapter gives its block; a block whose chapter names none reads 0
(log 25). -/
def running (s : State) : Blk → Bool
  | .q n => flag s (.q n) Q.CFG_EN
  | .exg n => let st := getF s (.exg n) Exg.STATUS_STATE; st == 1 || st == 2 || st == 3 || st == 4
  | .ao n => let st := getF s (.ao n) Ao.STATUS_STATE; st == 1 || st == 2 || st == 3 || st == 4
  | .slot n => getF s (.slot n) Slot.STATUS_STATE == 1
  | .fe => getF s .fe Fe.STATUS_SCHED != 7
  | .ai n => flag s (.ai n) Ai.CTRL_EN
  | .rc n => getF s (.rc n) Rc.TRK_STATUS_STATE != 0
  | .lens n => (s.lens[n]).state != 0
  | .em n => getF s (.em n) Em.STATUS_STATE != 0
  | .lu n => flag s (.lu n) Lu.CFG_EN
  | .sec n => flag s (.sec n) Sec.CFG_EN
  | .rs n => getF s (.rs n) Rs.STATUS_STATE != 0
  | .lp n => lpClosed s n
  | .ax n => (axLoops s n).any (lpClosed s)
  | .inj n => let st := getF s (.inj n) Inj.STATUS_STATE; st == 1 || st == 2 || st == 3
  | .cap => let st := getF s .cap Cap.STATUS_STATE; st == 1 || st == 2 || st == 4
  | .le k => let st := getF s (.le k) Le.STATUS_STATE; st == 1 || st == 2 || st == 6
  | .pt _ | .lc | .lpe | .qc | .evc | .chip | .time | .eth _ | .hp | .pwr | .mb | .ec | .sns => false

/-! ### Every block, in address order of R375 -/

/-- The blocks of a region. -/
def regionBlks : Region → List Blk
  | .acquisition => List.flatten [(List.finRange 16).map Blk.rc, [Blk.fe], (List.finRange 16).map Blk.lens,
      (List.finRange 8).map Blk.ai]
  | .control => List.flatten [(List.finRange 64).map Blk.lp, [Blk.lpe], (List.finRange 16).map Blk.ax,
      (List.finRange 16).map Blk.rs, [Blk.cap], (List.finRange 4).map Blk.inj, (List.finRange 8).map Blk.le,
      [Blk.qc], (List.finRange 16).map Blk.q]
  | .port => List.flatten [(List.finRange 64).map Blk.pt, (List.finRange 16).map Blk.em, (List.finRange 64).map Blk.sec,
      (List.finRange 8).map Blk.ao, (List.finRange 16).map Blk.exg, [Blk.lc], (List.finRange 32).map Blk.lu]
  | .system => List.flatten [[Blk.chip, Blk.time], (List.finRange 64).map Blk.slot, (List.finRange 2).map Blk.eth,
      [Blk.hp, Blk.pwr, Blk.mb, Blk.evc, Blk.ec, Blk.sns]]

def allRegions : List Region := [.acquisition, .control, .port, .system]

def allBlks : List Blk := allRegions.flatMap regionBlks

/-! ### Words of a register -/

/-- The word of a register's stored fields. -/
def fieldsWord (s : State) (b : Blk) (fs : List Fld) : Nat :=
  fs.foldl (fun acc f => acc + (match f.acc with | .wo => 0 | _ => getF s b f) * 2 ^ f.lo) 0

/-- Bits of a written word that belong to a field (R10). -/
def fieldOf (w : Word) (f : Fld) : Nat := bits w.toNat f.hi f.lo

/-- A field is written with the value (R463): the word carries it and the field does not hold it yet. -/
def becomes (s : State) (b : Blk) (f : Fld) (w : Word) (v : Nat) : Bool :=
  f.fit (fieldOf w f) == v && getF s b f != v

/-! ### Sequence numbers (R325) -/

/-- Sequence number of a source, by class and index. -/
def seqOf (s : State) (cls idx : Nat) : Nat := (assocGet (cls * 64 + idx) s.seqs).getD 0

/-- The number advances, modulo 2^32 for a requester's count and modulo 64 in the records. -/
def seqNext (cls idx : Nat) (s : State) : State :=
  { s with seqs := assocSet 0 (cls * 64 + idx) ((seqOf s cls idx + 1) % 64) s.seqs }

/-- Classes of sources with a sequence number of their own. -/
def clsLatch : Nat := 1
def clsSector : Nat := 2
def clsLane : Nat := 3
def clsSlot : Nat := 4
def clsAxis : Nat := 5
def clsAi : Nat := 6
def clsCap : Nat := 7
def clsTime : Nat := 8
def clsAlarm : Nat := 9
def clsGap : Nat := 10
def clsFence : Nat := 11

/-- Fin indexes from numbers. -/
def fin64 (n : Nat) : Fin 64 := ⟨n % 64, Nat.mod_lt _ (by decide)⟩
def fin32 (n : Nat) : Fin 32 := ⟨n % 32, Nat.mod_lt _ (by decide)⟩
def fin16 (n : Nat) : Fin 16 := ⟨n % 16, Nat.mod_lt _ (by decide)⟩
def fin8 (n : Nat) : Fin 8 := ⟨n % 8, Nat.mod_lt _ (by decide)⟩
def fin4 (n : Nat) : Fin 4 := ⟨n % 4, Nat.mod_lt _ (by decide)⟩

/-- An operation repeated over a list, in order. -/
def forAll {α : Type} (l : List α) (f : α → State → State) (s : State) : State := l.foldl (fun s a => f a s) s

/-- An operation made where the condition holds. -/
def whenOk (c : Bool) (f : State → State) (s : State) : State := if c then f s else s

end Sys2Proof.Machine
end

