-- ==== Sys2Proof/Machine/AddressMap.lean ====
section
/-!
DEFINITION. The address map (R13, R267, R294, R375, R376): what an address names.
-/

namespace Sys2Proof.Machine

/-- What a word address names. -/
inductive Target where
  /-- a register of a block at an offset from its base -/
  | reg (b : Blk) (off : Nat)
  /-- a location of the register window of an engine (R294), by its offset in the control area -/
  | window (k : Fin 8) (off : Nat)
  | iram (k : Fin 8) (off : Nat)
  | dram (k : Fin 8) (off : Nat)
  /-- word `i` of the applied or the candidate table window of a Lens block (R166) -/
  | lensTab (n : Fin 16) (cand : Bool) (i : Nat)
  | pool (off : Nat)
  | capMem (off : Nat)
  | ident (off : Nat)
  | unmapped
  deriving DecidableEq, Repr

/-- Index and offset of an address in `cnt` blocks of a stride from a base. -/
def slice (base stride cnt a : Nat) : Option (Nat × Nat) :=
  if base ≤ a ∧ a < base + stride * cnt then some ((a - base) / stride, (a - base) % stride) else none

/-- Block and offset of an address of the Acquisition region. -/
def acqAddr (a : Nat) : Option (Blk × Nat) :=
  match slice 0x10000000 0x400 16 a with
  | some (n, o) => some (.rc (fin16 n), o)
  | none =>
  match slice 0x10010000 0x400 1 a with
  | some (_, o) => some (.fe, o)
  | none =>
  match slice 0x10020000 0x400 16 a with
  | some (n, o) => some (.lens (fin16 n), o)
  | none =>
  match slice 0x10030000 0x100 8 a with
  | some (n, o) => some (.ai (fin8 n), o)
  | none => none

/-- Block and offset of an address of the Control region. -/
def ctlAddr (a : Nat) : Option (Blk × Nat) :=
  match slice 0x20000000 0x100 64 a with
  | some (n, o) => some (.lp (fin64 n), o)
  | none =>
  match slice 0x20008000 0x100 1 a with
  | some (_, o) => some (.lpe, o)
  | none =>
  match slice 0x20010000 0x100 16 a with
  | some (n, o) => some (.ax (fin16 n), o)
  | none =>
  match slice 0x20020000 0x100 16 a with
  | some (n, o) => some (.rs (fin16 n), o)
  | none =>
  match slice 0x20030000 0x400 1 a with
  | some (_, o) => some (.cap, o)
  | none =>
  match slice 0x20030400 0x40 4 a with
  | some (n, o) => some (.inj (fin4 n), o)
  | none =>
  match slice 0x21000000 0x100000 8 a with
  | some (n, o) => if 0xF0000 ≤ o ∧ o < 0xF0400 then some (.le (fin8 n), o - 0xF0000) else none
  | none =>
  match slice 0x22000000 0x100 1 a with
  | some (_, o) => some (.qc, o)
  | none =>
  match slice 0x22001000 0x100 16 a with
  | some (n, o) => some (.q (fin16 n), o)
  | none => none

/-- Block and offset of an address of the Port region. -/
def portAddr (a : Nat) : Option (Blk × Nat) :=
  match slice 0x30000000 0x80 64 a with
  | some (n, o) => some (.pt (fin64 n), o)
  | none =>
  match slice 0x30010000 0x100 16 a with
  | some (n, o) => some (.em (fin16 n), o)
  | none =>
  match slice 0x30020000 0x20 64 a with
  | some (n, o) => some (.sec (fin64 n), o)
  | none =>
  match slice 0x30030000 0x100 8 a with
  | some (n, o) => some (.ao (fin8 n), o)
  | none =>
  match slice 0x30040000 0x100 16 a with
  | some (n, o) => some (.exg (fin16 n), o)
  | none =>
  match slice 0x30050000 0x400 1 a with
  | some (_, o) => some (.lc, o)
  | none =>
  match slice 0x30050400 0x20 32 a with
  | some (n, o) => some (.lu (fin32 n), o)
  | none => none

/-- Block and offset of an address of the System region. -/
def sysAddr (a : Nat) : Option (Blk × Nat) :=
  match slice 0x40000000 0x1000 1 a with
  | some (_, o) => some (.chip, o)
  | none =>
  match slice 0x40010000 0x1000 1 a with
  | some (_, o) => some (.time, o)
  | none =>
  match slice 0x40011000 0x40 64 a with
  | some (n, o) => some (.slot (fin64 n), o)
  | none =>
  match slice 0x40020000 0x8000 2 a with
  | some (n, o) => some (.eth (if n = 0 then 0 else 1), o)
  | none =>
  match slice 0x40030000 0x1000 1 a with
  | some (_, o) => some (.hp, o)
  | none =>
  match slice 0x40040000 0x1000 1 a with
  | some (_, o) => some (.pwr, o)
  | none =>
  match slice 0x40050000 0x200 1 a with
  | some (_, o) => some (.mb, o)
  | none =>
  match slice 0x40060000 0x1000 1 a with
  | some (_, o) => some (.evc, o)
  | none =>
  match slice 0x40070000 0x10000 1 a with
  | some (_, o) => some (.ec, o)
  | none =>
  match slice 0x40080000 0x1000 1 a with
  | some (_, o) => some (.sns, o)
  | none => none

/-- Block and offset of an address. -/
def addrBlk (a : Nat) : Option (Blk × Nat) :=
  if a < 0x20000000 then acqAddr a
  else if a < 0x30000000 then ctlAddr a
  else if a < 0x40000000 then portAddr a
  else sysAddr a

/-- The offset names a register of the block (R26, R376). -/
def hasReg (b : Blk) (off : Nat) : Bool := off == 0 || off == 4 || !(fieldsAt b off).isEmpty

/-- Words of the capability list in ROM (R382, R383): one entry after another from 0x100 (log 88). -/
def capEntries : List (Nat × List Nat) :=
  [(0x0001, [0x1F, 1]), (0x0010, [0x00141810]), (0x0011, [0x00100100]), (0x0012, [0x13F]), (0x0020, [0x0810]),
   (0x0030, [0x0128]), (0x0040, [0x10041040]), (0x0050, [8, 0x20003000]), (0x0060, [0x8010]), (0x0070, [0x20401040]),
   (0x0080, [0x0340]), (0x0090, [0x12])]

/-- The list laid out: each entry's header, the address of the next, its words; the last points to the Keeper's entry. -/
def capLayout : Nat → List (Nat × List Nat) → List Nat
  | _, [] => []
  | a, (id, ws) :: t =>
    let n := ws.length + 2
    let next := if t.isEmpty then 0x40050200 else a + 4 * n
    (id * 2 ^ 16 + 2 ^ 8 + n) :: next :: (ws ++ capLayout (a + 4 * n) t)

def capRom : List Nat := capLayout 0x100 capEntries

/-- The offset lies in the register window of an engine (R294). -/
def inWindow (off : Nat) : Bool :=
  (decide (0x100 ≤ off) && decide (off < 0x1EC)) || (decide (0x1F0 ≤ off) && decide (off < 0x200)) ||
  (decide (0x200 ≤ off) && decide (off < 0x240) && off % 16 != 12) ||
  (decide (0x240 ≤ off) && decide (off < 0x278)) || (decide (0x280 ≤ off) && decide (off < 0x28C))

/-- What a word address names. The window's unused words of the accumulators and of the table of R294 name nothing. The entry for
the Keeper's services at 0x4005_0200, in the mailbox's range, belongs to no block (log 119). -/
def target (a : Nat) : Target :=
  if a % 4 ≠ 0 then .unmapped
  else if a < 0xC ∨ (0x100 ≤ a ∧ a < 0x198) then .ident a
  else if 0x40050200 ≤ a ∧ a < 0x40050214 then .ident a
  else if 0x28000000 ≤ a ∧ a < 0x28080000 then .pool (a - 0x28000000)
  else if 0x29000000 ≤ a ∧ a < 0x29010000 then .capMem (a - 0x29000000)
  else
    match slice 0x10024000 0x400 16 a with
    | some (n, o) => .lensTab (fin16 n) false (o / 4)
    | none =>
    match slice 0x10028000 0x400 16 a with
    | some (n, o) => .lensTab (fin16 n) true (o / 4)
    | none =>
    match slice 0x21000000 0x100000 8 a with
    | some (k, o) =>
      if o < 0xC000 then .iram (fin8 k) o
      else if 0x10000 ≤ o ∧ o < 0x18000 then .dram (fin8 k) (o - 0x10000)
      else if 0xF0000 ≤ o ∧ o < 0xF0400 then
        (if hasReg (.le (fin8 k)) (o - 0xF0000) then .reg (.le (fin8 k)) (o - 0xF0000)
         else if inWindow (o - 0xF0000) then .window (fin8 k) (o - 0xF0000) else .unmapped)
      else .unmapped
    | none =>
    match addrBlk a with
    | some (b, off) => if hasReg b off then .reg b off else .unmapped
    | none => .unmapped

/-- Byte addresses in `State.mem` of an engine's RAMs, of a Lens bank and of the capture memory. -/
def iramBase (k : Fin 8) : Nat := 0x21000000 + 0x100000 * k.val
def dramBase (k : Fin 8) : Nat := 0x21010000 + 0x100000 * k.val
def lensBase (n : Fin 16) (cand : Bool) : Nat := (if cand then 0x10028000 else 0x10024000) + 0x400 * n.val
def capBase : Nat := 0x29000000

/-- The block of R24 that a base names: bits [31:5] of a block's base; an engine's own base names its control area. -/
def blkOfBase (base : Nat) : Option Blk :=
  match slice 0x21000000 0x100000 8 base with
  | some (k, o) => if o = 0 ∨ o = 0xF0000 then some (.le (fin8 k)) else none
  | none =>
  match addrBlk base with
  | some (b, 0) => some b
  | _ => none

end Sys2Proof.Machine
end

