-- ==== Sys2Proof/Machine/Queues.lean ====
section
/-!
DEFINITION. The queue controller (R321–R340, R346, R347): rings in pool SRAM, posts of hardware records through the input
buffer, software writes, removals, staged lengths, gap records and fences.
-/

namespace Sys2Proof.Machine

/-! ### A ring -/

def qLevel (s : State) (q : Fin 16) : Nat := getF s (.q q) Q.LEVEL_LEVEL
def qLen (s : State) (q : Fin 16) : Nat := getF s (.q q) Q.LEN
def qEnabled (s : State) (q : Fin 16) : Bool := flag s (.q q) Q.CFG_EN

/-- Entries the ring has room for: while the read pointer still wraps at an old length, the shorter of the two, so that no
entry is lost (R330, log 26). -/
def qCap (s : State) (q : Fin 16) : Nat :=
  let rl := (s.qs[q]).rpLen
  if rl = 0 then qLen s q else min rl (qLen s q)

/-- The queue is full: one entry is reserved for fence records (R328). -/
def qFull (s : State) (q : Fin 16) : Bool := decide (qCap s q - 1 ≤ qLevel s q)

/-- The level stored with its EMPTY and FULL bits and its highest value (R332). -/
def setLevel (q : Fin 16) (n : Nat) (s : State) : State :=
  let s := setF (.q q) Q.LEVEL_LEVEL n s
  let s := setF (.q q) Q.STATUS_EMPTY (bitOf (n == 0)) s
  let s := setF (.q q) Q.STATUS_FULL (bitOf (qFull s q)) s
  if getF s (.q q) Q.LEVEL_HIGH < n then setF (.q q) Q.LEVEL_HIGH n s else s

def modQs (q : Fin 16) (f : QSt → QSt) (s : State) : State := { s with qs := s.qs.set q (f (s.qs[q])) }

/-- Address of entry `i` of a ring (R322). -/
def entryAddr (s : State) (q : Fin 16) (i : Nat) : Nat := poolBase + 16 * (getF s (.q q) Q.BASE + i)

def readEntry (s : State) (q : Fin 16) (i : Nat) : QEntry :=
  let a := entryAddr s q i
  { w0 := memWord s a, w1 := memWord s (a + 4), w2 := memWord s (a + 8), w3 := memWord s (a + 12) }

/-- Mark in `State.fresh` of a queue whose counters CNTCLR cleared in this fabric cycle (R331). -/
def clearKey (b : Blk) : Nat := 2 ^ 53 + blkBase b

/-- A counter of the queue incremented by hardware: a CNTCLR of the same cycle leaves it at 1 (R331). -/
def countF (b : Blk) (f : Fld) (n : Nat) (s : State) : State :=
  if n = 0 then s
  else
    let s := setF b f (if s.fresh.contains (clearKey b) then 1 else satU f.width (getF s b f + n)) s
    if s.fresh.contains (fkey b f) then s else { s with fresh := fkey b f :: s.fresh }

/-- A staged length commits (R330). -/
def lenCommit (q : Fin 16) (s : State) : State :=
  if s.qCommit[q] && flag s (.q q) Q.STATUS_LENPEND then
    let new := getF s (.q q) Q.LENSTG
    let old := qLen s q
    let rp := getF s (.q q) Q.PTR_RP
    let s := setF (.q q) Q.STATUS_LENPEND 0 (setF (.q q) Q.LENSTG 0 (setF (.q q) Q.LEN new s))
    let s := { s with qCommit := s.qCommit.set q false }
    if new ≤ rp then
      let lost := min (old - rp) (qLevel s q)
      let s := countF (.q q) Q.SKIPCNT lost s
      let s := raiseF (.q q) Q.STATUS_SKIPEV (setF (.q q) Q.PTR_RP 0 s)
      setLevel q (qLevel s q - lost) s
    else
      let s := modQs q (fun x => { x with rpLen := if qLevel s q = 0 then 0 else old }) s
      setLevel q (qLevel s q) s
  else { s with qCommit := s.qCommit.set q false }

/-- One entry written at the write index (R322): LEVEL reaching THR sets THREV. A staged length falls due where the index
passes 0 (R330). -/
def pushEntry (q : Fin 16) (e : QEntry) (s : State) : State :=
  let wp := getF s (.q q) Q.PTR_WP
  let s := setWords (entryAddr s q wp) [e.w0, e.w1, e.w2, e.w3] s
  let wp' := if qLen s q ≤ wp + 1 then 0 else wp + 1
  let lv := qLevel s q
  let s := setLevel q (lv + 1) (setF (.q q) Q.PTR_WP wp' s)
  let thr := getF s (.q q) Q.THR
  let s := raiseIf (decide (lv < thr) && decide (thr ≤ lv + 1)) (.q q) Q.STATUS_THREV s
  if wp' = 0 ∧ flag s (.q q) Q.STATUS_LENPEND then { s with qCommit := s.qCommit.set q true } else s

/-- The oldest entry leaves the queue; the read index wraps at the length of its pass (R330). -/
def dropOldest (q : Fin 16) (s : State) : State :=
  let rp := getF s (.q q) Q.PTR_RP
  let rl := (s.qs[q]).rpLen
  let len := if rl = 0 then qLen s q else rl
  let lv := qLevel s q
  if lv = 0 then s
  else if len ≤ rp + 1 then setLevel q (lv - 1) (modQs q (fun x => { x with rpLen := 0 }) (setF (.q q) Q.PTR_RP 0 s))
  else setLevel q (lv - 1) (setF (.q q) Q.PTR_RP (rp + 1) s)

/-- The oldest entry. -/
def oldest (s : State) (q : Fin 16) : QEntry := readEntry s q (getF s (.q q) Q.PTR_RP)

/-- Entries dropped from a record (R328), and, in a trace queue, a gap that opens or grows (R346). An isolated queue counts
nothing (R322). -/
def dropRec (q : Fin 16) (n : Nat) (s : State) : State :=
  if isolated s (.q q) then s
  else
    let s := raiseF (.q q) Q.STATUS_DROP (countF (.q q) Q.DROPCNT n s)
    let s := occurs 5 0 (occurs 4 q s)
    if getF s (.q q) Q.CFG_CLASS = 1 then
      let t := timeNs s
      setF (.q q) Q.STATUS_GAPPEND 1
        (modQs q (fun x => { x with gapCount := satU 32 (x.gapCount + 1),
                                    gapTime := if x.gapCount = 0 then t else x.gapTime }) s)
    else s

/-- Word 0 of a hardware record (R324): TYPE, sequence number, epoch and the low bits. -/
def word0 (type seq epoch low : Nat) : Word :=
  BitVec.ofNat 32 (type % 256 * 2 ^ 24 + seq % 64 * 2 ^ 18 + epoch % 16 * 2 ^ 14 + low % 2 ^ 14)

def wordOf (n : Nat) : Word := BitVec.ofNat 32 n

/-- A gap waits in the queue (R346). -/
def gapPending (s : State) (q : Fin 16) : Bool := flag s (.q q) Q.STATUS_GAPPEND

/-- The gap record of R335 written before the next accepted record (R346). -/
def pushGap (q : Fin 16) (s : State) : State :=
  let g := s.qs[q]
  let e : QEntry := { w0 := word0 0x0E (seqOf s clsGap q) (timeEpoch s) 0, w1 := wordOf g.gapTime,
                      w2 := wordOf (timeNs s), w3 := wordOf g.gapCount }
  let s := seqNext clsGap q (pushEntry q e s)
  setF (.q q) Q.STATUS_GAPPEND 0 (modQs q (fun x => { x with gapCount := 0, gapTime := 0 }) s)

/-- Entries removed to make room for `k` more (OVERWRITE_OLD, R328). -/
def makeRoom (q : Fin 16) (k : Nat) (s : State) : State :=
  let excess := qLevel s q + k - (qCap s q - 1)
  if excess = 0 then s
  else
    let s := (List.range excess).foldl (fun s _ => dropOldest q s) s
    raiseF (.q q) Q.STATUS_OWR (countF (.q q) Q.OWRCNT excess s)

/-- A record reaches an enabled queue and is written whole, dropped whole, or displaces the oldest entries (R328, R346).
The answer says whether it was written and whether others were overwritten. -/
def writeRecord (q : Fin 16) (es : List QEntry) (s : State) : Bool × Bool × State :=
  let s := lenCommit q s
  let gap := gapPending s q
  let k := es.length + (if gap then 1 else 0)
  let put := fun (s : State) => es.foldl (fun s e => pushEntry q e s) (if gap then pushGap q s else s)
  if qLevel s q + k ≤ qCap s q - 1 then (true, false, put s)
  else if getF s (.q q) Q.CFG_POLICY = 1 ∧ k ≤ qCap s q - 1 then (true, true, put (makeRoom q k s))
  else (false, false, dropRec q es.length s)

/-! ### Hardware records (R325, R347) -/

/-- Source bits of R339. -/
def srcSlot : Nat := 10
def srcTime : Nat := 11
def srcAxis : Nat := 12
def srcAi : Nat := 13
def srcLatch : Nat := 14
def srcSector : Nat := 15
def srcLane : Nat := 16
def srcCap : Nat := 17
def srcAlarm : Nat := 18

/-- Records the controller holds: its input buffer and the fences waiting in it (R347). -/
def inbufHeld (s : State) : Nat := s.inbuf.length + s.fences.length

/-- A dropped resampler record sets DROPEV of its lane, whose number the record carries in word 0 (R214). -/
def recDropped (src : Nat) (es : List QEntry) (s : State) : State :=
  match es with
  | e :: _ =>
    if src = srcLane then raiseF (.rs (fin16 (bits e.w0.toNat 13 10))) Rs.STATUS_DROPEV s else s
  | [] => s

/-- A record joins the input buffer: behind those it holds, but before those of the same fabric cycle whose sources stand
later in the table of R339 (R329). -/
def postInsert (r : InRec) : List InRec → List InRec
  | [] => [r]
  | x :: t => if x.cyc = r.cyc ∧ r.src < x.src then r :: x :: t else x :: postInsert r t

/-- A hardware source posts a record for a queue: it enters the input buffer, or is dropped there under R347. A fence accepted
earlier in the same fabric cycle waits for it too (R339). -/
def postRecord (q : Fin 16) (src : Nat) (es : List QEntry) (s : State) : State :=
  let held := inbufHeld s
  let alarm := src == srcAlarm
  let trace := getF s (.q q) Q.CFG_CLASS == 1
  let ok := decide (held < 24) || (decide (held < 28) && !trace) || (decide (held < 32) && alarm)
  let s := occurs 11 0 s
  if ok then
    { s with inbuf := postInsert { queue := q, src := src, entries := es, cyc := s.cycle } s.inbuf,
             fences := s.fences.map (fun f => if f.cyc = s.cycle ∧ f.mask / 2 ^ src % 2 = 1
               then { f with before := f.before + 1 } else f) }
  else recDropped src es (dropRec q es.length s)

/-- Entry types software may write (R324). -/
def softType (w0 : Word) : Bool :=
  let t := bits w0.toNat 31 24
  t == 0x51 || t == 0x52 || decide (0x80 ≤ t)

/-! ### Writes (R328, R329) -/

/-- The queue controller serves the queues: it is not isolated (R27, log 154). -/
def qcServes (s : State) : Bool := !isolated s .qc

/-- A fence record is dropped (R340). -/
def fenceDrop (q : Fin 16) (s : State) : State :=
  raiseF (.q q) Q.STATUS_FDROP (occurs 5 0 (occurs 4 q (countF (.q q) Q.DROPCNT 1 s)))

/-- A write fits without the loss of an entry: a fence record may take the reserved entry (R328, R340, R346). -/
def writeFits (q : Fin 16) (r : InRec) (s : State) : Bool :=
  if r.src = 0 then decide (qLevel s q < qCap s q)
  else decide (qLevel s q + r.entries.length + (if gapPending s q then 1 else 0) ≤ qCap s q - 1)

/-- A fence record written, with the gap record that fits before it, or dropped (R340, R346). -/
def fenceWrite (q : Fin 16) (es : List QEntry) (s : State) : State :=
  let s := if gapPending s q && decide (qLevel s q + 1 ≤ qCap s q - 1) then pushGap q s else s
  if qLevel s q < qCap s q then es.foldl (fun s e => pushEntry q e s) s else fenceDrop q s

/-- A write made now, whatever the queue holds (R322, R328, R340). -/
def writeNow (q : Fin 16) (r : InRec) (s : State) : State :=
  if isolated s (.q q) || regionReset s .control then recDropped r.src r.entries s
  else if !qEnabled s q then
    (if r.src = 0 then fenceDrop q s else recDropped r.src r.entries (dropRec q r.entries.length s))
  else if r.src = 0 then fenceWrite q r.entries (lenCommit q s)
  else
    let (ok, _, s') := writeRecord q r.entries s
    if ok then s' else recDropped r.src r.entries s'

/-- A write joins those of its fabric cycle in the order of R329: fence records, hardware posts by ascending source, software writes
by ascending owner code. -/
def waitInsert (r : InRec) : List InRec → List InRec
  | [] => [r]
  | x :: t => if r.src < x.src then r :: x :: t else x :: waitInsert r t

/-- A write reaches the controller: it is made with the end of the fabric cycle, after every removal of the cycle (R329). -/
def offer (r : InRec) (s : State) : State := { s with qWait := waitInsert r s.qWait }

/-- The oldest record of the input buffer reaches its queue (R328). With the end of the fabric cycle it is written, dropped, or
overwrites the oldest entries; a record for a disabled queue is dropped and counted, one for an isolated queue is dropped and
counted nowhere (R322). -/
def recordPost (s : State) : State :=
  match s.inbuf with
  | [] => s
  | r :: rest =>
    let s := { s with inbuf := rest, fences := s.fences.map (fun f =>
      if f.mask / 2 ^ r.src % 2 = 1 then { f with before := f.before - 1 } else f) }
    offer r s

/-! ### Fences (R339, R340) -/

/-- A fence request is accepted: it waits behind every record of the masked sources that the controller holds. A request
that finds the reserved places taken is dropped in each of its targets (log 27). -/
def fenceRequest (req mask id targets : Nat) (s : State) : State :=
  let seq := seqOf s clsFence req
  let s := seqNext clsFence req s
  if 32 ≤ inbufHeld s then
    forAll (List.finRange 16) (fun q s =>
      if targets / 2 ^ q.val % 2 = 1 ∧ ¬ isolated s (.q q) then fenceDrop q s else s) s
  else
    let m := mask % 2 ^ 19
    let f : FenceRec := { req := req, seq := seq, time := timeNs s, epoch := timeEpoch s, mask := mask, id := id,
                          targets := targets,
                          before := (s.inbuf.filter (fun r => m / 2 ^ r.src % 2 == 1)).length, cyc := s.cycle }
    { s with fences := s.fences ++ [f] }

/-- The fence record of R335. -/
def fenceEntry (f : FenceRec) : QEntry :=
  { w0 := word0 0x0F f.seq f.epoch (f.req * 2 ^ 10), w1 := wordOf f.time, w2 := wordOf f.mask,
    w3 := wordOf (f.id * 2 ^ 16 + f.targets) }

/-- A fence record goes to one target queue (R340, R346); an isolated queue receives none. -/
def fenceInto (f : FenceRec) (q : Fin 16) (s : State) : State :=
  offer { queue := q, src := 0, entries := [fenceEntry f], cyc := s.cycle } s

/-- The fabric cycle of a fence's acceptance is over, and no earlier record of the sources it masks is left, in the input buffer or
among the writes of the cycle (R339). -/
def fenceReady (s : State) (f : FenceRec) : Bool :=
  f.cyc != s.cycle && f.before == 0 && !s.qWait.any (fun r => r.src != 0 && f.mask / 2 ^ (r.src % 32) % 2 == 1)

/-- The first fence with no earlier record left is placed in every target queue. -/
def fencePlace (s : State) : State :=
  match s.fences.find? (fenceReady s) with
  | none => s
  | some f =>
    let s := { s with fences := s.fences.erase f }
    forAll (List.finRange 16) (fun q s => if f.targets / 2 ^ q.val % 2 = 1 then fenceInto f q s else s) s

/-! ### Software writes -/

/-- How a software write that reaches the controller is taken (R326, R347). -/
inductive PushRes where
  | refused | dropped
  /-- made with the end of the fabric cycle (R329) -/
  | taken
  deriving DecidableEq, Repr

/-- A software write is refused: the queue is isolated or disabled, its writers leave the agent out, or the type is not one that
software may write (R324, R326). -/
def pushRefused (ag : Agent) (q : Fin 16) (e : QEntry) (s : State) : Bool :=
  isolated s (.q q) || !qEnabled s q || bitAt (getF s (.q q) Q.CFG_WRMASK) ag.code == 0 || !softType e.w0

/-- WREFUSED of a refused write; an isolated queue shows nothing (R27, R326). -/
def pushRefuse (q : Fin 16) (s : State) : State :=
  if isolated s (.q q) then s else raiseF (.q q) Q.STATUS_WREFUSED s

/-- A software write of one entry through Q_PUSH3, or by the Keeper (R324, R326, R328, R347). An isolated controller takes none and
counts none (log 154). -/
def softWrite (ag : Agent) (q : Fin 16) (e : QEntry) (s : State) : PushRes × State :=
  if pushRefused ag q e s then (.refused, pushRefuse q s)
  else if !qcServes s then (.dropped, s)
  else if 32 ≤ inbufHeld s then (.dropped, dropRec q 1 s)
  else (.taken, offer { queue := q, src := 32 + ag.code, entries := [e], cyc := s.cycle } s)

/-- A queue write of an engine is held back: by a full queue or a full input buffer under the policy BLOCK (R328, R347), or by an
isolated controller (log 154). -/
def qwBlocked (q : Fin 16) (r : InRec) (s : State) : Bool :=
  !qcServes s ||
  (getF s (.q q) Q.CFG_POLICY == 2 && (decide (32 ≤ inbufHeld s) || !writeFits q r (lenCommit q s)))

/-! ### Configuration (R322, R330, R331) -/

/-- Length of a ring that another ring must not overlap: the length in force, or a longer staged one. -/
def ringLen (s : State) (q : Fin 16) : Nat :=
  if flag s (.q q) Q.STATUS_LENPEND then max (qLen s q) (getF s (.q q) Q.LENSTG) else qLen s q

/-- A ring of `len` entries of queue `q` overlaps the ring of another enabled queue or leaves the pool (R322). -/
def ringBad (s : State) (q : Fin 16) (len : Nat) : Bool :=
  let b := getF s (.q q) Q.BASE
  decide (0x80000 < 16 * (b + len)) ||
  (List.finRange 16).any (fun p => p != q && qEnabled s p &&
    decide (b < getF s (.q p) Q.BASE + ringLen s p) && decide (getF s (.q p) Q.BASE < b + len))

/-- The enabled queue whose ring holds a byte offset of the pool, with the ring's first byte (R322): the ring as long as the
longer of its length and the old length of the present pass. -/
def ringAt (s : State) (off : Nat) : Option (Fin 16 × Nat) :=
  ((List.finRange 16).find? (fun q =>
    let b := 16 * getF s (.q q) Q.BASE
    qEnabled s q && decide (b ≤ off) && decide (off < b + 16 * max (qLen s q) (s.qs[q]).rpLen))).map
      (fun q => (q, 16 * getF s (.q q) Q.BASE))

/-- EN written 1 (R322): both pointers 0 and the queue empty, or CFGERR. -/
def queueEnable (q : Fin 16) (s : State) : State :=
  if ringBad s q (qLen s q) then raiseF (.q q) Q.STATUS_CFGERR s
  else
    let s := setF (.q q) Q.CFG_EN 1 (setF (.q q) Q.PTR_WP 0 (setF (.q q) Q.PTR_RP 0 s))
    setLevel q 0 (modQs q (fun x => { x with rpLen := 0 }) s)

/-- A write of Q_LEN (R322, R330): a length that has fallen due comes into force before it. -/
def queueLenWrite (q : Fin 16) (len : Nat) (s : State) : State :=
  let s := lenCommit q s
  if !qEnabled s q then
    let s := setF (.q q) Q.STATUS_LENPEND 0 (setF (.q q) Q.LENSTG 0 (setF (.q q) Q.LEN len s))
    setLevel q (qLevel s q) { s with qCommit := s.qCommit.set q false }
  else if ringBad s q len then raiseF (.q q) Q.STATUS_CFGERR s
  else if qLevel s q = 0 then
    let s := setF (.q q) Q.PTR_WP 0 (setF (.q q) Q.PTR_RP 0 (setF (.q q) Q.LEN len s))
    let s := setF (.q q) Q.STATUS_LENPEND 0 (setF (.q q) Q.LENSTG 0 s)
    setLevel q 0 (modQs q (fun x => { x with rpLen := 0 }) { s with qCommit := s.qCommit.set q false })
  else setF (.q q) Q.STATUS_LENPEND 1 (setF (.q q) Q.LENSTG len s)

/-- Q_CMD.FLUSH (R331): a removal (R329). -/
def queueFlush (q : Fin 16) (s : State) : State :=
  let s := lenCommit q s
  let n := qLevel s q
  let s := setF (.q q) Q.PTR_RP (getF s (.q q) Q.PTR_WP) s
  let s := raiseF (.q q) Q.STATUS_SKIPEV (countF (.q q) Q.SKIPCNT n s)
  setLevel q 0 (modQs q (fun x => { x with rpLen := 0 }) s)

/-- Q_CMD.CNTCLR (R331): a counter incremented in this fabric cycle ends at 1. -/
def queueCountClear (q : Fin 16) (s : State) : State :=
  let clr := fun (f : Fld) (s : State) => setF (.q q) f (bitOf (s.fresh.contains (fkey (.q q) f))) s
  let s := clr Q.DROPCNT (clr Q.OWRCNT (clr Q.SKIPCNT (lenCommit q s)))
  let s := { s with fresh := clearKey (.q q) :: s.fresh }
  setF (.q q) Q.LEVEL_HIGH (qLevel s q) s

end Sys2Proof.Machine
end

