-- ==== Sys2Proof/Machine/LoopCommands.lean ====
section
/-!
DEFINITION. Loop states and commands, and the order of the triggers that reach a loop in one fabric cycle (R229, R230, R237, R238,
R240, R256).
-/

namespace Sys2Proof.Machine

/-! ### Loop states and the generators on a loop (R251, R256) -/

def modLp (n : Fin 64) (f : LpSt → LpSt) (s : State) : State := { s with lp := s.lp.set n (f (s.lp[n])) }
def modInj (k : Fin 4) (f : InjSt → InjSt) (s : State) : State := { s with inj := s.inj.set k (f (s.inj[k])) }

/-- inj = 0 (R256). -/
def injZero (k : Fin 4) (s : State) : State := setF (.inj k) Inj.OUT 0 (modInj k (fun x => { x with out := 0 }) s)

/-- An injection generator aborts (R256): inj = 0 at once. -/
def injAbort (k : Fin 4) (s : State) : State :=
  raiseF (.inj k) Inj.STATUS_ABORTEV (injZero k (setF (.inj k) Inj.STATUS_STATE 5 s))

/-- Loop states in which a point's injection acts (R251). -/
def injPermits (point st : Nat) : Bool := st == 3 || st == 4 || (point == 2 && st == 1)

/-- A loop changes state: a generator that is armed or runs on it aborts where the loop enters a state in which its point does
not act (R251, R256). -/
def setLpState (n : Fin 64) (st : Nat) (s : State) : State :=
  let old := getF s (.lp n) Lp.STATUS_STATE
  let s := setF (.lp n) Lp.STATUS_STATE st s
  forAll (List.finRange 4) (fun k s =>
    let g := getF s (.inj k) Inj.STATUS_STATE
    let p := getF s (.inj k) Inj.CFG_POINT
    if (g == 1 || g == 2 || g == 3) && getF s (.inj k) Inj.CFG_LOOP == n.val && st != old && !injPermits p st then
      injAbort k s
    else s) s

def lpState (s : State) (n : Fin 64) : Nat := getF s (.lp n) Lp.STATUS_STATE
def lpMeas (s : State) (n : Fin 64) : Nat := getF s (.lp n) Lp.CFG_MEAS
def lpRole (s : State) (n : Fin 64) : Nat := getF s (.lp n) Lp.CFG_ROLE
def lpGroup (s : State) (n : Fin 64) : Fin 4 := fin4 (getF s (.lp n) Lp.CFG_RG)
def axFb (s : State) (n : Fin 16) : Nat := getF s (.ax n) Ax.FB_STATUS_STATE

/-! ### Coefficients (R232, R241, R247) -/

/-- Word c of the active bank, as a signed number. -/
def coef (s : State) (n : Fin 64) (c : Nat) : Int :=
  if flag s (.lp n) Lp.CTRL_BANK then getI s (.lp n) (Lp.COEF_B c) else getI s (.lp n) (Lp.COEF_A c)

/-- The thirteen words of the active bank. -/
def coefs (s : State) (n : Fin 64) : List Int := (List.range 13).map (coef s n)

/-! ### Values of a loop -/

/-- The integrator clamped to the active bank's limits, and whether the clamp acted (R236). -/
def clampInt (s : State) (n : Fin 64) (i : Int) : Int × Bool :=
  let c := minMax (coef s n 9 * 2 ^ 24) (coef s n 10 * 2 ^ 24) i
  (c, c != i)

/-- ISAT stored; SATEV set where it becomes 1. -/
def setIsat (n : Fin 64) (b : Bool) (s : State) : State :=
  let was := flag s (.lp n) Lp.STATUS_ISAT
  raiseIf (b && !was) (.lp n) Lp.STATUS_SATEV (setF (.lp n) Lp.STATUS_ISAT (bitOf b) s)

/-- USAT likewise. -/
def setUsat (n : Fin 64) (b : Bool) (s : State) : State :=
  let was := flag s (.lp n) Lp.STATUS_USAT
  raiseIf (b && !was) (.lp n) Lp.STATUS_SATEV (setF (.lp n) Lp.STATUS_USAT (bitOf b) s)

/-- The loop's target in the unit of y (R230, R247). -/
def lpTarget (s : State) (n : Fin 64) : Int :=
  if lpMeas s n = 0 then (s.lp[n]).target
  else if flag s (.lp n) Lp.CFG_REFSRC then getI s (.lp (fin64 (getF s (.lp n) Lp.CFG_RLOOP))) Lp.U
  else getI s (.lp n) Lp.TARGET_LO

/-- Period of a rate group in ns (R242). -/
def rgPeriod (s : State) (k : Fin 4) : Nat :=
  if flag s .lpe (Lpe.RG_CFG_LOCK k) then getF s (.rs (fin16 (getF s .lpe (Lpe.RG_CFG_LANE k)))) Rs.PERIOD
  else 320 * getF s .lpe (Lpe.RG_CFG_N k)

/-! ### Commands (R237, R240) -/

/-- A loop may leave OFF: at most one MAIN, three CEIL and three FLOOR among the axis's loops that are not OFF (R229), and
no reference source with MEAS = 0 (R230). -/
def roleOk (s : State) (n : Fin 64) : Bool :=
  let r := lpRole s n
  let others := ((axLoops s (lpAxis s n)).filter (fun l => l != n && lpState s l != 0 && lpRole s l == r)).length
  (r == 3 || (r == 0 && decide (others < 1)) || ((r == 1 || r == 2) && decide (others < 3)))
  && !(flag s (.lp n) Lp.CFG_REFSRC && lpMeas s n == 0)

def cmdRej (n : Fin 64) (s : State) : State := raiseF (.lp n) Lp.STATUS_CMDREJ s

/-- From OFF to OPEN or TRACK, or to SAFE while the axis is in FB_SAFE (R237). -/
def lpFromOff (n : Fin 64) (st : Nat) (s : State) : State :=
  if !roleOk s n then cmdRej n s
  else
    let s := modLp n (fun x => { x with i := 0, d := 0, loadHist := true }) s
    if axFb s (lpAxis s n) = 3 then
      raiseF (.lp n) Lp.STATUS_SAFEEV (setF (.lp n) Lp.U (getF s (.ax (lpAxis s n)) Ax.SAFE_CMD) (setLpState n 6 s))
    else setLpState n st s

/-- To OPEN, UMAN taking an output (R237). -/
def lpOpen (n : Fin 64) (u : Nat) (s : State) : State := setLpState n 1 (setF (.lp n) Lp.UMAN u s)

/-- A CLOSE is accepted (R237, R247): the axis in NORMAL or FB_FALLBACK, its last delivery VALID, the bank's limits in
order. -/
def closeOk (s : State) (n : Fin 64) : Bool :=
  let a := lpAxis s n
  decide (axFb s a ≤ 1) && (s.ax[a]).del.validity == 0 && decide (coef s n 9 ≤ coef s n 10) && decide (coef s n 11 ≤ coef s n 12)

/-- The soft start of R240. -/
def softStart (n : Fin 64) (s : State) : State :=
  let y := (s.lp[n]).y
  let rv : Int := getF s (.lp n) Lp.RV
  let q : Int :=
    if flag s (.lp n) Lp.CTRL_RVINIT && lpMeas s n == 0 then
      let v : Rat := ((s.ax[lpAxis s n]).del.vel : Rat) * 2 ^ 16 * (rgPeriod s (lpGroup s n) : Rat) / 1000000000
      let q := v.floor + (if decide ((v.floor : Rat) < v) && Config.loopUp v then 1 else 0)
      if rv = 0 then q else clampI (-rv) rv q
    else 0
  let (i, sat) := clampInt s n (s.lp[n]).i
  let rr := if lpMeas s n = 0 then 0 else y
  let t := lpTarget s n
  let s := modLp n (fun x => { x with r := y, yc := y, q := q, i := i, rrPrev := rr, seenTarget := t }) s
  setLpState n 3 (setIsat n sat s)

/-- A write of LPn_CMD (R237). -/
def lpCommand (n : Fin 64) (cmd : Nat) (s : State) : State :=
  let st := lpState s n
  let u := getF s (.lp n) Lp.U
  match cmd with
  | 1 =>
    if st = 0 then lpFromOff n 1 s
    else if st = 2 ∨ st = 3 ∨ st = 4 ∨ st = 5 then lpOpen n u s
    else if st = 6 then
      (if axFb s (lpAxis s n) ≤ 1 then lpOpen n (getF s (.ax (lpAxis s n)) Ax.SAFE_CMD) s else cmdRej n s)
    else s
  | 2 =>
    if st = 0 then lpFromOff n 2 s
    else if st = 1 ∨ st = 3 ∨ st = 4 then setLpState n 2 s
    else if st = 5 ∨ st = 6 then cmdRej n s
    else s
  | 3 =>
    if st = 1 ∨ st = 2 then (if closeOk s n then softStart n s else cmdRej n s)
    else if st = 3 ∨ st = 4 then s
    else cmdRej n s
  | 4 => setLpState n 0 s
  | _ => s

/-! ### Triggers of one fabric cycle (R238) -/

/-- The commands that a loop has taken in this fabric cycle. -/
def lpTaken (s : State) (n : Fin 64) : Option LpCmd :=
  match (s.lp[n]).cmd with
  | some c => if c.cyc = s.cycle then some c else none
  | none => none

/-- CLOSEDEV before the end of a ramp in this fabric cycle, where the loop still stands as that end has left it. -/
def rampEnded (s : State) (n : Fin 64) : Option Nat :=
  match (s.lp[n]).ramp with
  | some (c, ev) => if c = s.cycle ∧ lpState s n = 4 then some ev else none
  | none => none

/-- The loop as it stood before a ramp ended in this fabric cycle: the end of a ramp comes after every other trigger. -/
def rampBack (n : Fin 64) (s : State) : State :=
  match rampEnded s n with
  | some ev => setF (.lp n) Lp.STATUS_CLOSEDEV ev (setF (.lp n) Lp.STATUS_STATE 3 s)
  | none => s

/-- A trigger that comes before the end of a ramp: the ramp still ends where the trigger leaves the loop in RAMP. -/
def beforeRamp (n : Fin 64) (f : State → State) (s : State) : State :=
  let ended := (rampEnded s n).isSome
  let s := f (rampBack n s)
  if ended && lpState s n == 3 then raiseF (.lp n) Lp.STATUS_CLOSEDEV (setF (.lp n) Lp.STATUS_STATE 4 s) else s

/-- What the loop is is kept at its first command of the cycle, for a change of its axis in the same cycle. -/
def lpKeep (n : Fin 64) (cmd : Nat) (s : State) : State :=
  let x := s.lp[n]
  let g := getF s (.lp n)
  let c : LpCmd :=
    match lpTaken s n with
    | some c => { c with codes := c.codes ++ [cmd] }
    | none => { cyc := s.cycle, codes := [cmd], st := lpState s n, rej := g Lp.STATUS_CMDREJ, isat := g Lp.STATUS_ISAT,
                satEv := g Lp.STATUS_SATEV, safeEv := g Lp.STATUS_SAFEEV, closedEv := g Lp.STATUS_CLOSEDEV, u := g Lp.U,
                uman := g Lp.UMAN, r := x.r, yc := x.yc, q := x.q, i := x.i, rrPrev := x.rrPrev, seen := x.seenTarget,
                d := x.d, loadHist := x.loadHist }
  modLp n (fun x => { x with cmd := some c }) s

/-- A command is taken, ahead of the end of a ramp. -/
def lpTake (n : Fin 64) (cmd : Nat) (s : State) : State :=
  beforeRamp n (fun s => lpCommand n cmd (lpKeep n cmd s)) s

/-- The loop as its commands of this fabric cycle met it. -/
def lpBefore (n : Fin 64) (c : LpCmd) (s : State) : State :=
  let s := setF (.lp n) Lp.STATUS_STATE c.st (setF (.lp n) Lp.STATUS_CMDREJ c.rej (setF (.lp n) Lp.STATUS_ISAT c.isat s))
  let s := setF (.lp n) Lp.STATUS_SATEV c.satEv (setF (.lp n) Lp.STATUS_SAFEEV c.safeEv (setF (.lp n) Lp.STATUS_CLOSEDEV c.closedEv s))
  modLp n (fun x => { x with r := c.r, yc := c.yc, q := c.q, i := c.i, rrPrev := c.rrPrev, seenTarget := c.seen, d := c.d,
                             loadHist := c.loadHist, cmd := none })
    (setF (.lp n) Lp.U c.u (setF (.lp n) Lp.UMAN c.uman s))

/-- A command after a trigger that goes before it: an isolated loop refuses all but OFF. -/
def lpAgain (n : Fin 64) (cmd : Nat) (s : State) : State :=
  if isolated s (.lp n) ∧ 1 ≤ cmd ∧ cmd ≤ 3 then cmdRej n s else lpCommand n cmd (lpKeep n cmd s)

/-- Isolation, or a change of the loop's axis, acts before the commands of its fabric cycle, which are judged against what it has
led to, and before the end of a ramp. -/
def lpTrigger (n : Fin 64) (f : State → State) (s : State) : State :=
  beforeRamp n (fun s =>
    match lpTaken s n with
    | some c => forAll c.codes (lpAgain n) (f (lpBefore n c s))
    | none => f s) s

/-- A loop enters SAFE (R237): output AXn_SAFE_CMD, D := 0, I kept, SAFEEV set. -/
def lpToSafe (n : Fin 64) (s : State) : State :=
  if lpState s n = 0 then s
  else
    let s := setF (.lp n) Lp.U (getF s (.ax (lpAxis s n)) Ax.SAFE_CMD) s
    raiseF (.lp n) Lp.STATUS_SAFEEV (setLpState n 6 (modLp n (fun x => { x with d := 0 }) s))

/-- Isolation of a loop, or its axis's entry to FB_SAFE. -/
def loopSafe (n : Fin 64) (s : State) : State := lpTrigger n (lpToSafe n) s

end Sys2Proof.Machine
end

