-- ==== Sys2Proof/Machine/Alarms.lean ====
section
/-!
DEFINITION. The alarm table (R341–R345), incidents (R349, R388), the chip safe state with what it does to outputs, axes and
loops (R79, R88, R176, R237, R430–R433), the block errors (R26, R425–R427), the ECC errors that reads meet (R280) and the
removals from a queue (R327).
-/

namespace Sys2Proof.Machine

/-! ### Bits of a W1C field that holds several -/

/-- Key of one bit of a field in `State.fresh`. -/
def bitKey (b : Blk) (f : Fld) (i : Nat) : Nat := fkey b f + i

/-- Hardware sets bit `i` of a field (R9). -/
def raiseBit (b : Blk) (f : Fld) (i : Nat) (s : State) : State :=
  let v := getF s b f
  let s := setF b f (if bitAt v i = 1 then v else v + 2 ^ i) s
  if s.fresh.contains (bitKey b f i) then s else { s with fresh := bitKey b f i :: s.fresh }

/-- Bit `i` of a field cleared. -/
def clearBit (b : Blk) (f : Fld) (i : Nat) (s : State) : State :=
  let v := getF s b f
  setF b f (if bitAt v i = 1 then v - 2 ^ i else v) s

/-- An interrupt source of the engine that owns something (R284). -/
def sigEngine (code bit : Nat) (s : State) : State :=
  if 1 ≤ code ∧ code ≤ 8 then raiseBit (.le (fin8 (code - 1))) Le.IPEND bit s else s

/-! ### Incidents (R349, R388) -/

/-- Flash address of the log sector of an incident: a ring of 1,792 sectors of 4 KB (R386, R388). -/
def incSector (number : Nat) : Nat := 0x900000 + (number + 1791) % 1792 * 0x1000

/-- KS_VERSION as a word. -/
def ksVersion (s : State) : Nat := fieldsWord s .mb [Mb.KS_VERSION_MAJOR, Mb.KS_VERSION_MINOR, Mb.KS_VERSION_BUILD]

def entryBytes (e : QEntry) : List Byte :=
  List.flatten [wordBytes e.w0.toNat, wordBytes e.w1.toNat, wordBytes e.w2.toNat, wordBytes e.w3.toNat]

/-- A record is a CLEARED record. -/
def isCleared (e : QEntry) : Bool := bits e.w0.toNat 11 10 == 2

/-- Header of an incident's sector (R388); closing time and epoch once it is closed. -/
def incHeader (s : State) (i : Incident) (closed : Bool) : List Byte :=
  let last := i.tail.filter (fun e => !isCleared e)
  let clr := min 64 (i.cleared.length + (i.tail.filter isCleared).length)
  let lost := i.lost + (i.cleared.length + (i.tail.filter isCleared).length - clr)
  let body := List.flatten [
    wordBytes 0x494E4344, wordBytes i.number, wordBytes ((if closed then 0 else 1) + (if lost = 0 then 0 else 2)),
    wordBytes i.sec, wordBytes i.sub,
    wordBytes (if closed then timeSec s else 0), wordBytes (if closed then timeSub s else 0),
    wordBytes (i.epoch % 2 ^ 16 + (if closed then timeEpoch s * 2 ^ 16 else 0)),
    wordBytes i.first.length, wordBytes last.length, wordBytes i.between, wordBytes clr, wordBytes lost,
    wordBytes (ksVersion s)]
  body ++ wordBytes (crc32 body)

/-- Every stored part of the incident written to its sector. -/
def incFlush (closed : Bool) (s : State) : State :=
  let i := s.incident
  if !i.opened then s
  else
    let a := incSector i.number
    let last := i.tail.filter (fun e => !isCleared e)
    let clr := (i.cleared ++ i.tail.filter isCleared).take 64
    let s := setFlashBytes a (incHeader s i closed) s
    let s := setFlashBytes (a + 0x240) (last.flatMap entryBytes) s
    setFlashBytes (a + 0x440) (clr.flatMap entryBytes) s

/-- Records after the first 32, trimmed to the last 32 with the CLEARED records among them: the oldest of the 33 goes, with the
CLEARED records before and right after it. -/
def trimTail (l : List QEntry) : Nat × List QEntry :=
  if 32 < (l.filter (fun e => !isCleared e)).length then (1, ((l.dropWhile isCleared).drop 1).dropWhile isCleared) else (0, l)

/-- The Keeper's private path takes an alarm record; a change it can no longer hold is to be read from the table (R348). -/
def pathTake (kind : Nat) (e : QEntry) (s : State) : State :=
  let room := decide (s.keeperPath.length < Config.keeperPathLen)
  let i := bits e.w0.toNat 7 0
  { s with keeperPath := if room then s.keeperPath ++ [{ kind := kind, entry := e }] else s.keeperPath,
           keeperMiss := if room || s.keeperMiss.contains i then s.keeperMiss else s.keeperMiss ++ [i] }

/-- An alarm record reaches the Keeper over its private path and joins the open incident, or opens one (R344, R349). -/
def incident (kind : Nat) (e : QEntry) (s : State) : State :=
  let s := pathTake kind e s
  let i := s.incident
  if kind = 2 then
    if !i.opened then s
    else if i.first.length < 32 then { s with incident := { i with cleared := i.cleared ++ [e] } }
    else { s with incident := { i with tail := i.tail ++ [e] } }
  else
    let (i, s) :=
      if i.opened then (i, s)
      else
        let n := s.keeper.incNo
        (({ opened := true, number := n, sec := timeSec s, sub := timeSub s, epoch := timeEpoch s } : Incident),
         eraseFlash (incSector n) 0x1000 { s with keeper := { s.keeper with incNo := n + 1 } })
    let i := { i with lastAt := s.elapsed }
    if i.first.length < 32 then
      let i' := { i with first := i.first ++ [e] }
      let a := incSector i.number
      setFlashBytes a (incHeader s i' false)
        (setFlashBytes (a + 0x40 + 16 * i.first.length) (entryBytes e) { s with incident := i' })
    else
      let (n, t) := trimTail (i.tail ++ [e])
      { s with incident := { i with tail := t, between := i.between + n } }

/-- 10 s pass without another record and the incident closes (R349), counted in elapsed time as R465 says (log 124). -/
def incidentClose (s : State) : State :=
  if s.incident.opened && decide (10000000000 ≤ sinceNs s s.incident.lastAt) then
    { incFlush true s with incident := {} }
  else s

/-! ### The alarm table -/

/-- Key in `State.fresh` of an alarm entry that an ACK of this fabric cycle has taken from ACTIVE: a raise of the cycle finds it
ACTIVE (R342). -/
def ackKey (i : Nat) : Nat := 2 ^ 50 + i

def setAlarm (i : Fin 132) (e : AlarmEntry) (s : State) : State := { s with alarms := s.alarms.set i e }

/-- Index of the valid entry of a key among the first 128 (R341). -/
def findAlarm (s : State) (code src : Nat) : Option (Fin 132) :=
  (List.finRange 132).find? (fun i => decide (i.val < 128) && (s.alarms[i]).valid && (s.alarms[i]).code == code
    && (s.alarms[i]).src == src)

/-- The lowest-numbered free entry (R341); one freed in this fabric cycle is not free yet (R342). -/
def freeAlarm (s : State) : Option (Fin 132) :=
  (List.finRange 132).find? (fun i => decide (i.val < 128) && !(s.alarms[i]).valid
    && !s.alarmEnds.any (fun p => p.1 == i.val))

/-- An alarm record (R335, R344): posted to Q15, and sent to the Keeper. Kinds: 0 NEW, 1 RECUR, 2 CLEARED, 3 OVERFLOW. -/
def alarmRecord (kind : Nat) (i : Fin 132) (e : AlarmEntry) (s : State) : State :=
  let r : QEntry := { w0 := word0 0x60 (seqOf s clsAlarm 0) (timeEpoch s) (e.grade * 2 ^ 12 + kind * 2 ^ 10 + i.val),
                      w1 := wordOf (e.code * 2 ^ 16 + satU 16 e.count), w2 := wordOf e.src, w3 := wordOf (timeNs s) }
  let s := seqNext clsAlarm 0 s
  let s := raiseIf (kind == 0 || kind == 1) .ec Ec.AT_STATUS_NEWEV s
  incident kind r (postRecord 15 srcAlarm [r] s)

/-- An entry is freed: the CLEARED record follows with the end of the fabric cycle, since a raise of the cycle keeps the entry
(R342). -/
def alarmEnd (i : Fin 132) (e : AlarmEntry) (s : State) : State :=
  let s := setAlarm i {} s
  { s with alarmEnds := s.alarmEnds ++ [(i.val, e)] }

/-- A raise keeps the entry of its key, or the overflow entry, that this fabric cycle freed (R342). -/
def endKeep (p : Nat × AlarmEntry → Bool) (s : State) : State :=
  match s.alarmEnds.find? p with
  | some x => setAlarm ⟨x.1 % 132, Nat.mod_lt _ (by decide)⟩ x.2 { s with alarmEnds := s.alarmEnds.erase x }
  | none => s

/-- The table's part of a raise of a key in the table as it stands (R341–R343): `keep` for a condition the block keeps. -/
def tableEnter (code src grade : Nat) (keep : Bool) (s : State) : State :=
  let t := timeNs s
  let ep := timeEpoch s
  match findAlarm s code src with
  | some i =>
    let e := s.alarms[i]
    let e' := { e with acked := false, cond := e.cond || keep, grade := max e.grade grade, last := t, lastEp := ep,
                       count := incSat 32 e.count }
    if e.acked && !s.fresh.contains (ackKey i) then alarmRecord 1 i e' (setAlarm i e' s) else setAlarm i e' s
  | none =>
    let new : AlarmEntry := { valid := true, cond := keep, grade := grade, code := code, src := src, first := t,
                              last := t, count := 1, firstEp := ep, lastEp := ep }
    match freeAlarm s with
    | some i => alarmRecord 0 i new (setAlarm i new s)
    | none =>
      let i : Fin 132 := ⟨128 + grade % 4, by omega⟩
      let s := endKeep (fun p => p.1 == i.val) s
      let e := s.alarms[i]
      if e.valid then
        setAlarm i { e with code := code, src := src, last := t, lastEp := ep, count := incSat 32 e.count } s
      else alarmRecord 3 i { new with cond := false } (setAlarm i { new with cond := false } s)

/-- A raise acts on the table (R341–R343). -/
def raiseNow (r : AlarmRaise) (s : State) : State :=
  tableEnter r.code r.src r.grade r.keep
    (endKeep (fun p => p.2.code == r.code && p.2.src == r.src && decide (p.1 < 128)) (occurs 3 r.grade s))

/-- The order of the raises of one fabric cycle (R342). -/
def AlarmRaise.before (r x : AlarmRaise) : Bool := decide (r.src < x.src) || (r.src == x.src && decide (r.code < x.code))

def raiseInsert (r : AlarmRaise) : List AlarmRaise → List AlarmRaise
  | [] => [r]
  | x :: t => if r.before x then r :: x :: t else x :: raiseInsert r t

/-- A raise reaches the table: it acts with the end of its fabric cycle, and at once where no fabric cycle runs (R342). -/
def tableRaise (code src grade : Nat) (keep : Bool) (s : State) : State :=
  let r : AlarmRaise := { code := code, src := src, grade := grade, keep := keep }
  if clocked s .system then { s with alarmRaises := raiseInsert r s.alarmRaises } else raiseNow r s

/-- The fabric cycle ends, or fabric cycles end with it: the raises of the cycle act, then the CLEARED records of the entries it freed
and no raise kept follow (R342, R344). -/
def alarmTick (s : State) : State :=
  let s := s.alarmRaises.foldl (fun s r => raiseNow r s) { s with alarmRaises := [] }
  s.alarmEnds.foldl (fun s p => alarmRecord 2 ⟨p.1 % 132, Nat.mod_lt _ (by decide)⟩ p.2 s) { s with alarmEnds := [] }

/-- A block reports a kept condition gone (R342). A raise in the same fabric cycle acts last. -/
def alarmGone (code src : Nat) (s : State) : State :=
  match findAlarm s code src with
  | none => s
  | some i =>
    let e := s.alarms[i]
    if e.acked then alarmEnd i { e with cond := false } s else setAlarm i { e with cond := false } s

/-- An acknowledgement of one valid entry (R342). A raise in the same fabric cycle acts last and leaves the entry ACTIVE. -/
def alarmAck (i : Fin 132) (s : State) : State :=
  let e := s.alarms[i]
  if !e.valid then s
  else if !e.cond then alarmEnd i e s
  else
    let s := setAlarm i { e with acked := true } s
    if e.acked || s.fresh.contains (ackKey i) then s else { s with fresh := ackKey i :: s.fresh }

/-! ### Loops and axes in the safe state -/

def modAx (n : Fin 16) (f : AxSt → AxSt) (s : State) : State := { s with ax := s.ax.set n (f (s.ax[n])) }
def modExg (n : Fin 16) (f : ExgSt → ExgSt) (s : State) : State := { s with exg := s.exg.set n (f (s.exg[n])) }
def modAo (n : Fin 8) (f : AoSt → AoSt) (s : State) : State := { s with ao := s.ao.set n (f (s.ao[n])) }

/-- INT_ACTIVE of a source code; 0 for an encoder or none. -/
def srcActive (s : State) (code : Nat) : Nat :=
  if code < 16 then getF s (.rc (fin16 code)) Rc.INT_ACTIVE else 0

/-- The feedback-loss record of an axis (R178, R335): new state, cause bits of FB_STATUS, and whether the secondary was
lost. -/
def fbRecord (n : Fin 16) (st : Nat) (secLost : Bool) (s : State) : State :=
  let cause := getF s (.ax n) Ax.FB_STATUS_MON + 2 * getF s (.ax n) Ax.FB_STATUS_SRC
    + 4 * getF s (.ax n) Ax.FB_STATUS_XCHK + 8 * bitOf secLost
  let e : QEntry := {
    w0 := word0 0x20 (seqOf s clsAxis n) (timeEpoch s) (n.val * 2 ^ 10 + st * 2 ^ 8 + cause)
    w1 := wordOf (timeNs s)
    w2 := wordOf (srcActive s (getF s (.ax n) Ax.SRC_SRC) + 2 ^ 8 * srcActive s (getF s (.ax n) Ax.FB_SRC_FBSRC))
    w3 := wordOf (getF s (.ax n) Ax.XC_DIFF) }
  postRecord (fin16 (getF s (.ax n) Ax.FB_CFG_EVQ)) srcAxis [e] (seqNext clsAxis n s)

/-- An axis leaves NORMAL: FLEV, FB_TIME and its owner's feedback-loss interrupt (R178, R181, R284). -/
def fbEntry (n : Fin 16) (s : State) : State :=
  let s := raiseF (.ax n) Ax.FB_STATUS_FLEV (setF (.ax n) Ax.FB_TIME (timeNs s) s)
  let o := owner s (.ax n)
  if 1 ≤ o ∧ o ≤ 8 then raiseBit (.le (fin8 (o - 1))) Le.FBAXES n (sigEngine o 0 s) else s

/-- The port cell signal of torque enable (R179): asserted while TEN.EN, not in FB_SAFE and armed since. -/
def tenUpdate (n : Fin 16) (s : State) : State :=
  setF (.ax n) Ax.TEN_ASSERTED
    (bitOf (flag s (.ax n) Ax.TEN_EN && getF s (.ax n) Ax.FB_STATUS_STATE != 3 && (s.ax[n]).armed)) s

/-- An axis not yet in FB_SAFE enters it, without the alarm (R176, R233, R237): loops in SAFE at SAFE_CMD, torque enable
withdrawn, the record posted. -/
def axisSafeCore (n : Fin 16) (secLost : Bool) (s : State) : State :=
  let st := getF s (.ax n) Ax.FB_STATUS_STATE
  let s := raiseF (.ax n) Ax.FB_STATUS_SAFEEV (setF (.ax n) Ax.FB_STATUS_STATE 3 s)
  let s := if st = 0 then fbEntry n s else s
  let s := forAll (axLoops s n) loopSafe s
  let s := setF (.ax n) Ax.U (getF s (.ax n) Ax.SAFE_CMD) s
  let s := tenUpdate n (modAx n (fun x => { x with armed := false }) s)
  fbRecord n 3 secLost s

/-! ### Outputs in the safe state -/

/-- The chip safe state is in force (R431). -/
def chipSafe (s : State) : Bool := flag s .ec Ec.STATE_FATAL || s.ec.safeLow

/-- Safe-state causes that generators and analogue outputs share (R82, R88), but for DORMANT: FATAL, SAFE_N, isolation, reset of the
Port region, freeze. -/
def pinCause (s : State) (b : Blk) : Bool := chipSafe s || isolated s b || regionReset s .port || frozen s

/-- The same with DORMANT (R419). -/
def outCause (s : State) (b : Blk) : Bool := pinCause s b || dormant s

def exgCause (s : State) (n : Fin 16) : Bool := outCause s (.exg n) || (s.exg[n]).vuv

/-- The causes that keep the bridge of a sentinel burst high-impedance (R82, R94, R431). -/
def burstCause (s : State) (n : Fin 16) : Bool := pinCause s (.exg n) || (s.exg[n]).vuv || s.pwr.vexcLow

/-- The trigger that a generator has taken in this fabric cycle (R79); two writes of EN never meet in one cycle. -/
def exgPrior (s : State) (n : Fin 16) (en : Bool) : Option ExgTurn :=
  match (s.exg[n]).turn with
  | some t => if t.cyc = s.cycle ∧ ¬ (t.en = true ∧ en = true) then some t else none
  | none => none

/-- The generator as it stood before the trigger of this fabric cycle. -/
def exgBefore (n : Fin 16) (en : Bool) (s : State) : State :=
  match exgPrior s n en with
  | some t => setF (.exg n) Exg.STATUS_STATE t.st (setF (.exg n) Exg.COUNT_RETRIES t.retries
      (modExg n (fun x => { x with amp := t.amp, scAt := t.scAt }) s))
  | none => s

/-- State of a generator before the trigger of this fabric cycle. -/
def exgBase (s : State) (n : Fin 16) (en : Bool) : Nat :=
  match exgPrior s n en with | some t => t.st | none => getF s (.exg n) Exg.STATUS_STATE

/-- A trigger takes its row of the table of R79, in place of a higher row that the same fabric cycle has taken; against a
lower one it has no effect. -/
def exgTake (n : Fin 16) (row : Nat) (en : Bool) (f : State → State) (s : State) : State :=
  let wins := match exgPrior s n en with | some t => decide (t.row < row) | none => true
  if wins then
    let s := exgBefore n en s
    let x := s.exg[n]
    let t : ExgTurn := { cyc := s.cycle, row := row, en := en, st := getF s (.exg n) Exg.STATUS_STATE, amp := x.amp,
                         scAt := x.scAt, retries := getF s (.exg n) Exg.COUNT_RETRIES }
    modExg n (fun x => { x with turn := some t }) (f s)
  else s

/-- The bridge goes high-impedance in a state (R79). -/
def exgOff (n : Fin 16) (st : Nat) (s : State) : State :=
  setF (.exg n) Exg.STATUS_STATE st (modExg n (fun x => { x with amp := 0, scAt := none, limited := false }) s)

/-- A generator follows its safe-state causes (R79, R82): a cause prevails over every other trigger of the cycle. -/
def exgRefresh (n : Fin 16) (s : State) : State :=
  let st := getF s (.exg n) Exg.STATUS_STATE
  if exgCause s n then
    (if st = 6 ∨ (st = 0 ∧ exgBase s n false = 0) then s else exgTake n 10 false (exgOff n 6) s)
  else if st = 6 then exgOff n (getF s (.exg n) Exg.CTRL_EN) s
  else s

/-- An analogue output starts at AO_RESET_CODE, which AO_CODE takes (R88). -/
def aoStart (n : Fin 8) (s : State) : State :=
  let c := getF s (.ao n) Ao.RESET_CODE
  let rng := getF s (.ao n) Ao.CTRL_RANGE
  let now := s.elapsed
  let s := setF (.ao n) Ao.CODE c (setF (.ao n) Ao.STATUS_APPLIED c (setF (.ao n) Ao.STATUS_STATE 1 s))
  modAo n (fun x => { x with pend := c, hold := 0, rstep := 0, rcnt := 0, rail := rng, scAt := none, cleanAt := now }) s

/-- The pin goes high-impedance with its pull-down: no code is applied (R88, log 28). -/
def aoStop (n : Fin 8) (st : Nat) (s : State) : State :=
  let s := setF (.ao n) Ao.STATUS_APPLIED 0 (setF (.ao n) Ao.STATUS_STATE st s)
  modAo n (fun x => { x with hold := 0, rstep := 0, rcnt := 0, scAt := none }) s

/-- An output follows its safe-state causes (R88). -/
def aoRefresh (n : Fin 8) (s : State) : State :=
  let st := getF s (.ao n) Ao.STATUS_STATE
  if outCause s (.ao n) then (if st = 0 ∨ st = 6 then s else aoStop n 6 s)
  else if st = 6 then (if flag s (.ao n) Ao.CTRL_EN then aoStart n s else aoStop n 0 s)
  else s

/-- Every generator and output follows its causes. -/
def refreshOutputs (s : State) : State :=
  forAll (List.finRange 8) aoRefresh (forAll (List.finRange 16) exgRefresh s)

/-! ### Raising an alarm -/

/-- The axis's block base, the source of its alarms (R178). -/
def axisSrc (n : Fin 16) : Nat := blkBase (.ax n)

/-- Entry to the chip safe state (R433): every axis not in FB_SAFE enters it and raises 0x0722; outputs go safe. -/
def safeEntry (s : State) : State :=
  let s := forAll (List.finRange 16) (fun n s =>
    if getF s (.ax n) Ax.FB_STATUS_STATE = 3 then s
    else tableRaise 0x0722 (axisSrc n) 2 false (axisSafeCore n false s)) s
  refreshOutputs s

/-- Key in `State.fresh` of a FATAL latched in this fabric cycle. -/
def fatalKey : Nat := 2 ^ 52

/-- The code and the source of the first FATAL (R430). -/
def fatalWord (code src : Nat) (s : State) : State := setF .ec Ec.FATALSRC src (setF .ec Ec.FATALCODE code s)

/-- A FATAL latches EC_STATE.FATAL with the first FATAL's code, source and time, and the chip safe state begins (R430, R431). Of the
FATALs of one fabric cycle the first is that of the lowest source, then code (R342). -/
def fatalLatch (code src : Nat) (s : State) : State :=
  if flag s .ec Ec.STATE_FATAL then
    let old := getF s .ec Ec.FATALSRC
    if s.fresh.contains fatalKey ∧ (src < old ∨ (src = old ∧ code < getF s .ec Ec.FATALCODE)) then fatalWord code src s else s
  else
    let was := chipSafe s
    let s := setF .ec Ec.FATALT (timeNs s) (fatalWord code src (setF .ec Ec.STATE_FATAL 1 s))
    let s := { s with fresh := fatalKey :: s.fresh }
    if was then s else safeEntry s

/-- An alarm is raised (R341, R428, R430). While the device is frozen it grades no event (R438). -/
def raiseAlarm (code src grade : Nat) (keep : Bool) (s : State) : State :=
  if frozen s then s
  else
    let s := tableRaise code src grade keep s
    if grade = 3 then fatalLatch code src s else s

/-- A kept condition starts or ends. -/
def alarmCond (c : Bool) (code src grade : Nat) (s : State) : State :=
  if c then raiseAlarm code src grade true s else alarmGone code src s

/-! ### Axis entries to FB_SAFE outside the chip safe state -/

/-- Holdover expiry and what acts like it (R176): 0x0722 is SEVERE (R178). -/
def axisSafe (n : Fin 16) (secLost : Bool) (s : State) : State :=
  if getF s (.ax n) Ax.FB_STATUS_STATE = 3 then s
  else raiseAlarm 0x0722 (axisSrc n) 2 false (axisSafeCore n secLost s)

/-! ### Block errors (R26, R425–R427) -/

/-- The kinds of BLK_ERR in the order of R426. -/
inductive ErrKind where
  | own | runw | eccC | eccU | cell | iso
  deriving DecidableEq, Repr

def ErrKind.num : ErrKind → Nat
  | .own => 0 | .runw => 1 | .eccC => 2 | .eccU => 3 | .cell => 4 | .iso => 5

def ErrKind.fld : ErrKind → Fld
  | .own => Hdr.OWN | .runw => Hdr.RUNW | .eccC => Hdr.ECC_C | .eccU => Hdr.ECC_U | .cell => Hdr.CELL | .iso => Hdr.ISO

/-- The grade EC_GRADE gives a kind (R426). -/
def ErrKind.grade (s : State) : ErrKind → Nat
  | .own => getF s .ec Ec.GRADE_OWN
  | .runw => getF s .ec Ec.GRADE_RUNW
  | .eccC => getF s .ec Ec.GRADE_ECC_C
  | .eccU => getF s .ec Ec.GRADE_ECC_U
  | .cell => getF s .ec Ec.GRADE_CELL
  | .iso => getF s .ec Ec.GRADE_ISO

/-- The region aggregator records an event of a kind (R427). -/
def aggregate (b : Blk) (k : ErrKind) (s : State) : State :=
  let r := regionNum (blkRegion b)
  let s := if getF s .ec (Ec.RERR_KINDS r) = 0 then
      setF .ec (Ec.RERRFTIME r) (timeNs s) (setF .ec (Ec.RERRFIRST r) (blkBase b) s) else s
  incF .ec (Ec.RERRCNT r) (raiseBit .ec (Ec.RERR_KINDS r) k.num s)

/-- Hardware sets a BLK_ERR bit: the region records it, the owning engine's BERR is set, the alarm of its kind is raised
with the grade of EC_GRADE, and the block is isolated where EC_ISOEN says so (R284, R426). -/
def blkMet (b : Blk) (k : ErrKind) (s : State) : State :=
  let s := aggregate b k (raiseF b k.fld s)
  let s := if k = .eccC then occurs 6 (regionNum (blkRegion b)) s else s
  let s := if k = .own ∨ k = .runw then occurs 7 (regionNum (blkRegion b)) s else s
  let s := sigEngine (owner s b) 3 s
  let g := k.grade s
  let iso := decide (2 ≤ g) && bitAt (getF s .ec Ec.ISOEN) k.num == 1 && !blkFixed b
  let s := if iso then setF b Hdr.ISOLATE 1 s else s
  raiseAlarm (0x0101 + k.num) (blkBase b) g false s

/-- A rejected write sets a BLK_ERR bit, with its agent and its offset (R26). -/
def blkErr (b : Blk) (k : ErrKind) (code off : Nat) (s : State) : State :=
  blkMet b k (setF b Hdr.AGENT code (setF b Hdr.OFFSET off s))

/-! ### ECC errors met (R280) -/

/-- An ECC error of an SRAM word of a block is met: a cell fault, whose detail is ECC_C or ECC_U (R280, R425). -/
def eccCell (b : Blk) (u : Bool) (s : State) : State := blkMet b .cell (blkMet b (if u then .eccU else .eccC) s)

/-- A read of a word of a block's memory meets the ECC error that waits in it: a corrected error leaves the word as it was
written, an uncorrectable one stays until the word is written (log 125). -/
def eccMeet (b : Blk) (a : Nat) (s : State) : State :=
  match eccAt s a with
  | none => s
  | some false => eccCell b false { s with ecc := assocErase (a / 4 * 4) s.ecc }
  | some true => eccCell b true s

/-- The words from an address that a read meets. -/
def eccMeets (b : Blk) (a n : Nat) (s : State) : State :=
  (List.range n).foldl (fun s i => eccMeet b (a + 4 * i) s) s

/-- The read of the oldest entry of a ring. -/
def ringMeet (q : Fin 16) (s : State) : State :=
  if qLevel s q = 0 then s else eccMeets (.q q) (entryAddr s q (getF s (.q q) Q.PTR_RP)) 4 s

/-- The block that holds a word of the pool: the queue of its ring, else the queue controller (log 125). -/
def poolBlk (s : State) (off : Nat) : Blk :=
  match ringAt s off with
  | some (q, _) => .q q
  | none => .qc

/-! ### Removals from a queue (R327) -/

/-- The oldest entry taken by the owner or by a hardware consumer; none in an empty queue. -/
def takeEntry (q : Fin 16) (s : State) : Option QEntry × State :=
  let s := ringMeet q (lenCommit q s)
  if qLevel s q = 0 then (none, s) else (some (oldest s q), dropOldest q s)

/-- A read of Q_POP (R327): word 0 of the oldest entry, words 1 to 3 captured, the entry removed by the owner alone. An isolated
controller removes nothing (log 154). -/
def queuePop (ag : Agent) (q : Fin 16) (s : State) : State :=
  if !awake s then s
  else if regionReset s .control then { s with answer := 0 }
  else if isolated s (.q q) then
    { s with answer := (assocGet (blkBase (.q q) + Q.POP.off) s.held).getD 0 }
  else
    let s := ringMeet q (lenCommit q s)
    let e : QEntry := if qLevel s q = 0 then {} else oldest s q
    let s := setF (.q q) Q.POPW1 e.w1.toNat (setF (.q q) Q.POPW2 e.w2.toNat (setF (.q q) Q.POPW3 e.w3.toNat s))
    let s := { s with answer := e.w0 }
    if ag.code = owner s (.q q) ∧ qcServes s = true then dropOldest q s else s

end Sys2Proof.Machine
end

