-- ==== Sys2Proof/Machine/Registers.lean ====
section
/-!
DEFINITION. A write to a register of a block (R7–R10, R26–R28): judged for the region's reset, isolation, ownership and RWO,
then stored field by field.
-/

namespace Sys2Proof.Machine

/-- How a write to a block is judged. -/
inductive Verdict where
  /-- accepted -/
  | ok
  /-- accepted but for an RWO field it would change while the block runs (R8) -/
  | runw
  /-- ignored: not the owner (R8) -/
  | own
  /-- ignored: the block is isolated (R27) -/
  | iso
  /-- ignored: the region is under reset (R28) -/
  | reset
  /-- no access is made: the device is frozen or in DORMANT -/
  | asleep
  deriving DecidableEq, Repr

/-- The word carries for some RWO field a value other than its present one (R8). -/
def rwoChanged (s : State) (b : Blk) (off : Nat) (w : Word) : Bool :=
  (fieldsAt b off).any (fun f => f.acc == .rwo && fieldOf w f != getF s b f)

/-- The judgement of a write beside BLK_CTRL (R8, R27, R28). -/
def judge (ag : Agent) (b : Blk) (off : Nat) (w : Word) (s : State) : Verdict :=
  if !awake s then .asleep
  else if underReset s b then .reset
  else if isolated s b then .iso
  else if ag.code ≠ owner s b then .own
  else if running s b && rwoChanged s b off w then .runw
  else .ok

/-- A bit of a W1C field is cleared by a 1, unless hardware set it in this cycle (R9). -/
def clearW1c (b : Blk) (f : Fld) (w : Word) (s : State) : State :=
  (List.range f.width).foldl (fun s i =>
    if bitAt (fieldOf w f) i = 1 ∧ ¬ s.fresh.contains (bitKey b f i) then clearBit b f i s else s) s

/-- One field of a written word (R7, R10): an RWO field of a running block keeps its value. -/
def storeField (run : Bool) (b : Blk) (w : Word) (f : Fld) (s : State) : State :=
  match f.acc with
  | .rw => setF b f (f.fit (fieldOf w f)) s
  | .rwo => if run then s else setF b f (f.fit (fieldOf w f)) s
  | .w1c => clearW1c b f w s
  | .ro | .wo | .snap => s

/-- A word stored field by field (R8). -/
def storeFields (b : Blk) (off : Nat) (w : Word) (s : State) : State :=
  let run := running s b
  forAll (fieldsAt b off) (storeField run b w) s

/-- A write that a region under reset ignores is kept, with its agent and its offset, and reported when the region returns (R28). -/
def resetWrite (ag : Agent) (b : Blk) (off : Nat) (s : State) : State :=
  { s with ec := { s.ec with isoPend := s.ec.isoPend ++ [(b, some (ag.code, off))] } }

/-- A read under reset is reported too; it is no rejected write (R26, R28). -/
def resetRead (b : Blk) (s : State) : State :=
  { s with ec := { s.ec with isoPend := s.ec.isoPend ++ [(b, none)] } }

/-- A judged write: rejections are recorded, an accepted word goes to the block's own store, which meets the block as it runs: what
the error of R8 does to it comes after. -/
def judgedWrite (ag : Agent) (b : Blk) (off : Nat) (w : Word) (store : State → State) (s : State) : State :=
  match judge ag b off w s with
  | .asleep => s
  | .reset => resetWrite ag b off s
  | .iso => blkErr b .iso ag.code off s
  | .own => blkErr b .own ag.code off s
  | .runw => blkErr b .runw ag.code off (store s)
  | .ok => if off = 4 then Hdr.err.foldl (fun s f => storeField false b w f s) s else store s

/-- The fields a register's read composes, and whether the word differs from what a state holds: a helper for reads of
stored registers. -/
def storedWord (s : State) (b : Blk) (off : Nat) : Nat := fieldsWord s b (fieldsAt b off)

end Sys2Proof.Machine
end

