-- ==== Sys2Proof/Machine/TimeUnit.lean ====
section
/-!
DEFINITION. The time unit, the SYNC line, 1 PPS, the deviation of the carriers after a step, and the judgement of the
timed-action slots against network time (R34–R59, R62, R64, R65, R67).
-/

namespace Sys2Proof.Machine

def modTime (f : TimeSt → TimeSt) (s : State) : State := { s with time := f s.time }

/-! ### Carrier phase (R46, R69) -/

/-- Cycles of a carrier of frequency word F per ns of network time: F / (2.5 × 2^32). -/
def cyclesPerNs (F : Nat) : Rat := (F : Rat) / (5 * 2 ^ 31)

/-- Present deviation of generator n's phase from R69, in cycles: after a step it is removed at 1,000 ppm of the carrier
(R46, log 31). -/
def devNow (s : State) (n : Fin 16) : Rat :=
  let e := s.exg[n]
  let F := getF s (.exg n) Exg.FREQ
  let gone := cyclesPerNs F / 1000 * (((s.elapsed - e.devAt : Nat) : Rat) / 2 ^ 28)
  if 0 ≤ e.dev then (if e.dev ≤ gone then 0 else e.dev - gone)
  else (if -e.dev ≤ gone then 0 else e.dev + gone)

/-- Carrier phase of generator n in cycles, in [0, 1) (R69). -/
def carrierPhase (s : State) (n : Fin 16) : Rat :=
  let F := getF s (.exg n) Exg.FREQ
  let t : Rat := (s.time.now : Rat) + (s.time.frac : Rat) / 2 ^ 28
  let x := cyclesPerNs F * t + (getF s (.exg n) Exg.PHASE : Rat) / 2 ^ 16 + devNow s n
  x - (x.floor : Rat)

/-- The last tick carried the phase of generator n through its positive-going zero crossing (R31, R69): the phase is less than
what the tick added. In the tick of a step the deviation counts as it stands after the step (log 6). -/
def carrierCrossed (s : State) (n : Fin 16) : Bool :=
  let u := s.time.inc
  let moved := cyclesPerNs (getF s (.exg n) Exg.FREQ) * ((u : Rat) / 2 ^ 28)
    + (devNow s n - devNow { s with elapsed := s.elapsed - u } n)
  decide (carrierPhase s n < moved)

/-- After a step of `d` units of 2^-28 ns the generator keeps its phase and starts to realign (R46). -/
def exgRealign (d : Int) (n : Fin 16) (s : State) : State :=
  let F := getF s (.exg n) Exg.FREQ
  let dev := wrapHalf (devNow s n - cyclesPerNs F * ((d : Rat) / 2 ^ 28))
  let now := s.elapsed
  let s := modExg n (fun x => { x with dev := dev, devAt := now }) s
  setF (.exg n) Exg.STATUS_ALIGN (bitOf (dev != 0)) s

/-- EXCITATION_ALIGNED (R46): a generator whose difference is gone; EXALIGN clears once all are aligned. -/
def exgAligned (n : Fin 16) (s : State) : State :=
  if clocked s .port && devNow s n == 0 then
    let now := s.elapsed
    let s := setF (.exg n) Exg.STATUS_ALIGN 0 (modExg n (fun x => { x with dev := 0, devAt := now }) s)
    if (List.finRange 16).all (fun m => !flag s (.exg m) Exg.STATUS_ALIGN) then setF .time Time.STATUS_EXALIGN 0 s else s
  else s

def execExcitationAligned (n : Fin 16) (s : State) : Outcome := .next (exgAligned n s)

/-! ### Network time -/

/-- INCR in units of 2^-28 ns (R36). -/
def incr (s : State) : Nat := getF s .time Time.INCR_INT * 2 ^ 28 + getF s .time Time.INCR_FRAC

/-- The per-tick difference of a slew (R38). -/
def slewD (s : State) : Int := roundEven ((incr s * getF s .time Time.SLEW_RATE : Nat) : Int) 1000000

/-- Frame of a mode, ns (R40). -/
def modeFrame (m : Nat) : Nat := match m with | 0 => 320 | 1 => 640 | _ => 1280

/-- Frame of the mode in force, ns (R40). -/
def frameNs (s : State) : Nat := modeFrame (mode s)

/-- Network time counts modulo 2^48 seconds (R34). -/
def timeMod : Nat := 2 ^ 48 * 1000000000

/-! ### Grids (R40, R45, R205, R206) -/

/-- The latest instant at or before the network time `t` of the grid of period `p` and phase `f`, which restarts at each whole
second (R40); none where network time has seen none by then. -/
def gridAt (t p f : Nat) : Option Nat :=
  let sub := t % 1000000000
  if f ≤ sub then some (t - (sub - f) % p)
  else if sub + 1000000000 ≤ t ∧ f < 1000000000 then some (t - sub - 1000000000 + f + (999999999 - f) / p * p)
  else none

/-- This tick has passed or reached a network time. -/
def inTick (s : State) (t : Nat) : Bool := decide (timeUnits s < t * 2 ^ 28 + s.time.inc)

/-- The instants of a grid that this tick has passed or reached, in order: two where the last interval before a whole second is
shorter than the tick (R40, R205). -/
def tickInstants (s : State) (p f : Nat) : List Nat :=
  match gridAt s.time.now p f with
  | none => []
  | some t =>
    let l := if t = 0 then [t] else match gridAt (t - 1) p f with | some u => [u, t] | none => [t]
    l.filter (inTick s)

/-- Elapsed time of a network time that this tick has passed or reached. -/
def instEl (s : State) (t : Nat) : Nat := s.elapsed - (s.time.now * 2 ^ 28 + s.time.frac - t * 2 ^ 28)

/-- The next instant of a grid to handle in this tick: the first the tick has passed that stands after the last one handled; after
a step, half a period of elapsed time or more after that one (R205, R206). -/
def gridDue (s : State) (p f : Nat) (lastAt : Option Nat) (lastT : Nat) (stepped : Bool) : Option Nat :=
  let l := tickInstants s p f
  match lastAt with
  | none => l.head?
  | some a =>
    if stepped then l.find? (fun t => decide (a + p * 2 ^ 27 ≤ instEl s t))
    else if l.contains lastT then ((l.dropWhile (· != lastT)).drop 1).head?
    else l.head?

/-- A cause of a synchronising reset joins (R67). -/
def srJoin (s : State) : State :=
  let now := s.elapsed
  setF .fe Fe.STATUS_SRPEND 1 (modTime (fun t => { t with srCause := some now }) s)

/-- A cause that arose at an elapsed time joins. -/
def srJoinAt (t : Nat) (s : State) : State :=
  setF .fe Fe.STATUS_SRPEND 1 (modTime (fun x => { x with srCause := some (max t (x.srCause.getD 0)) }) s)

/-- TIME.SET is set; the first time, a synchronising reset follows (R44, R67). -/
def setTimeSet (s : State) : State :=
  if flag s .time Time.STATUS_SET then s else srJoin (setF .time Time.STATUS_SET 1 s)

/-- What network time, TIME_EPOCH and DISC are before a change is kept for 10 µs, for edges found and results that arrive later (R197, R209). -/
def timeMark (shift : Int) (s : State) : State :=
  let now := s.elapsed
  let m : TimeMark := { at_ := now, shift := shift, epoch := s.time.epoch % 2 ^ 16, disc := flag s .time Time.STATUS_DISC }
  modTime (fun t => { t with marks := m :: t.marks.filter (fun m => decide (now < m.at_ + 10000 * 2 ^ 28)) }) s

/-- What network time has jumped by since an elapsed time, and TIME_EPOCH and DISC at that instant. -/
def timeBack (s : State) (u : Int) : Int × Nat × Bool :=
  s.time.marks.foldl (fun r m => if u < (m.at_ : Int) then (r.1 + m.shift, m.epoch, m.disc) else r)
    (0, s.time.epoch % 2 ^ 16, flag s .time Time.STATUS_DISC)

/-- No adjustment of the Keeper waits any longer (R49). -/
def adjNone (t : TimeSt) : TimeSt := { t with kAdj := false, kStep := false, kZero := false }

/-- An adjustment has completed: DISC clears where the Keeper has written it, `k`, since DISC was set (R49). -/
def adjDone (k : Bool) (s : State) : State :=
  if k then setF .time Time.STATUS_DISC 0 (modTime adjNone (timeMark 0 s)) else s

/-- DISC is set; only an adjustment that the Keeper writes from now on clears it (R49). -/
def discSet (s : State) : State := setF .time Time.STATUS_DISC 1 (modTime adjNone (timeMark 0 s))

/-- An offset in 2^-28 ns is removed under R37; `k`: the Keeper has written it (R49). -/
def adjustBy (k : Bool) (o : Int) (s : State) : State :=
  match s.time.stepPend with
  | some p =>
    if p + o = 0 then
      modTime (fun t => { t with stepPend := none, stepSync := false, zeroPend := true, kStep := false,
                                 kZero := t.kZero || t.kStep || k }) s
    else modTime (fun t => { t with stepPend := some (p + o), kStep := t.kStep || k }) s
  | none =>
    let total := s.time.slewRem + o
    if total = 0 then
      setF .time Time.STATUS_SLEWING 0
        (modTime (fun t => { t with slewRem := 0, zeroPend := true, kAdj := false, kZero := t.kZero || t.kAdj || k }) s)
    else if total.natAbs ≤ getF s .time Time.SLEW_LIMIT * 2 ^ 28 then
      setF .time Time.STATUS_SLEWING 1 (modTime (fun t => { t with slewRem := total, kAdj := t.kAdj || k }) s)
    else
      setF .time Time.STATUS_SLEWING 0
        (modTime (fun t => { t with slewRem := 0, stepPend := some total, stepSync := false, kAdj := false,
                                    kStep := t.kStep || t.kAdj || k }) s)

/-- A write of TIME_ADJ by the Keeper: the offset in ns with the staged seconds added, which are cleared (R37, R48). -/
def timeAdjust (off : Int) (s : State) : State :=
  let secs := getI s .time Time.ADJ_SEC
  adjustBy true ((secs * 1000000000 + off) * 2 ^ 28) (setF .time Time.ADJ_SEC 0 s)

/-- A write of INCR (R36): the nearer limit with ICLAMP outside 5 ns ± 1,000 ppm. -/
def incrStore (v : Nat) (s : State) : State :=
  let c := clampN 0x4FEB851F 0x50147AE1 v
  raiseIf (c != v) .time Time.STATUS_ICLAMP (setF .time Time.INCR_FRAC (bits c 27 0) (setF .time Time.INCR_INT (bits c 31 28) s))

/-- The device takes a SYNC role (R52, R56, R58). What the role has met before is forgotten: the leader's last epoch, the pulse
in progress and the counts of R56. HOLDOVER of the device's own PTP stack stays as it is, until a master is acquired in a role
that takes one (log 38). -/
def roleTaken (s : State) : State :=
  let now := s.elapsed
  let s := modTime (fun t => { t with syncBad := 0, syncGood := 0, edgeAt := now, roleAt := now, gotEdge := false,
                                      edgeFar := false, syncStop := false, syncAt := none, leadEpoch := none }) s
  if getF s .time Time.CFG_ROLE ≠ 2 ∧ flag s .time Time.STATUS_SYNCLOST then
    alarmGone 0x0202 (blkBase .time) (setF .time Time.STATUS_SYNCLOST 0 s)
  else s

/-- TIME_CFG is written: a role is taken where ROLE changes (R463), or where contention had stopped the leader, whose ROLE is
written again (R58, log 38). -/
def cfgStore (w : Word) (s : State) : State :=
  let u := storeFields .time 0x3C w s
  if getF u .time Time.CFG_ROLE ≠ getF s .time Time.CFG_ROLE ∨ s.time.syncStop = true then roleTaken u else u

/-- The store of a register of the time unit. -/
def timeStore (off : Nat) (w : Word) (s : State) : State :=
  if off = 0x20 then incrStore w.toNat s
  else if off = 0x28 then timeAdjust (toSigned 32 w.toNat) s
  else if off = 0x3C then cfgStore w s
  else storeFields .time off w s

def timeWrite (ag : Agent) (off : Nat) (w : Word) (s : State) : State :=
  judgedWrite ag .time off w (timeStore off w) s

def execIncrWrite (ag : Agent) (w : Word) (s : State) : Outcome := .next (timeWrite ag 0x20 w s)
def execTimeAdj (ag : Agent) (w : Word) (s : State) : Outcome := .next (timeWrite ag 0x28 w s)

/-- A read of TIME_NS captures the rest of the same tick (R34). -/
def timeSnap (s : State) : State :=
  setF .time Time.EPOCH (timeEpoch s) (setF .time Time.SEC_HI (timeSec s / 2 ^ 32)
    (setF .time Time.SEC_LO (timeSec s) (setF .time Time.SUB (timeSub s) s)))

/-! ### Slots against the time (R62–R65) -/

/-- Key in `State.fresh` of a slot armed, or found late, in this fabric cycle: it fires at the next tick at the earliest (R64). -/
def slotKey (n : Fin 64) : Nat := 2 ^ 51 + n.val

/-- A slot event record (R335, R336): kind, target, time and word 3. -/
def slotEvent (n : Fin 64) (kind t time w3 : Nat) (s : State) : State :=
  if flag s (.slot n) Slot.CFG_EVT then
    let e : QEntry := { w0 := word0 0x02 (seqOf s clsSlot n) (timeEpoch s) (n.val * 2 ^ 8 + kind), w1 := wordOf t,
                        w2 := wordOf time, w3 := wordOf w3 }
    postRecord (fin16 (getF s (.slot n) Slot.CFG_EVQ)) srcSlot [e] (seqNext clsSlot n s)
  else s

/-- A STRICT instant is missed: MISS and the NOTICE of R57. -/
def slotMiss (n : Fin 64) (s : State) : State :=
  raiseAlarm 0x0204 (blkBase (.slot n)) 0 false (raiseF (.slot n) Slot.STATUS_MISS s)

/-- The slot's engine is told (R284). -/
def slotSignal (n : Fin 64) (s : State) : State := sigEngine (owner s (.slot n)) 2 s

/-- The check of R64 on an armed slot whose target may have been passed already. -/
def slotCheck (n : Fin 64) (s : State) : State :=
  let t := getF s (.slot n) Slot.TARGET
  let p := getF s (.slot n) Slot.PERIOD
  let strict := flag s (.slot n) Slot.CFG_STRICT
  if getF s (.slot n) Slot.STATUS_STATE ≠ 1 ∨ ¬ passed s t ∨ isolated s (.slot n) then s
  else if p = 0 then
    if strict then
      let s := slotMiss n (setF (.slot n) Slot.STATUS_STATE 3 s)
      slotSignal n (slotEvent n 2 t (timeNs s) 0 s)
    else { s with slotLate := s.slotLate.set n true, fresh := slotKey n :: s.fresh }
  else
    let k := ((timeNs s + 2 ^ 32 - t) % 2 ^ 32) / p + 1
    let s := setF (.slot n) Slot.TARGET (t + k * p) s
    let s := setF (.slot n) Slot.SKIP (satU 32 (getF s (.slot n) Slot.SKIP + k)) s
    let s := raiseF (.slot n) Slot.STATUS_SKIP s
    let s := if strict then slotMiss n s else s
    slotEvent n 3 t (timeNs s) k s

/-- An armed slot at a step of `d` ns (R65); an isolated one too has its target shifted, and is checked at its release. -/
def slotStep (d : Int) (n : Fin 64) (s : State) : State :=
  if getF s (.slot n) Slot.STATUS_STATE ≠ 1 then s
  else if flag s (.slot n) Slot.CFG_NETTIME then slotCheck n s
  else
    let t := getF s (.slot n) Slot.TARGET
    raiseF (.slot n) Slot.STATUS_SHIFT (setI (.slot n) Slot.TARGET ((t : Int) + d) s)

/-- Arming is refused (R62). -/
def armRefused (s : State) (n : Fin 64) : Bool :=
  let a := getF s (.slot n) Slot.CFG_ACTION
  let p := getF s (.slot n) Slot.PERIOD
  let o := owner s (.slot n)
  decide (6 ≤ a) || (decide (1 ≤ p) && decide (p ≤ 319)) || decide (2 ^ 31 ≤ p)
  || (a == 2 && !(decide (1 ≤ o) && decide (o ≤ 8)))
  || (a == 4 && !(o == 0 || o == 9))
  || (a == 5 && o != 9)
  || (a == 1 && (match target (getF s (.slot n) Slot.ADDR) with | .unmapped => true | _ => false))

/-- A slot that is to fire at this tick: armed, not isolated, its target passed, and neither armed nor found late in this very
cycle (R63, R64). -/
def slotDue (s : State) (n : Fin 64) : Bool :=
  clocked s .system && getF s (.slot n) Slot.STATUS_STATE == 1 && !isolated s (.slot n)
    && !s.fresh.contains (slotKey n) && (s.slotLate[n] || passed s (getF s (.slot n) Slot.TARGET))

/-- The slot is disarmed (R66). -/
def slotDisarm (n : Fin 64) (s : State) : State :=
  { setF (.slot n) Slot.STATUS_STATE 0 s with slotLate := s.slotLate.set n false, slotOff := s.slotOff.set n false }

/-- DISARM: on the slot's fire tick it waits for the firing (R66). -/
def slotDisarmCmd (n : Fin 64) (s : State) : State :=
  if slotDue s n then { s with slotOff := s.slotOff.set n true } else slotDisarm n s

/-- A fire tick is over: what waits for its firing disarms. -/
def slotTick (s : State) : State :=
  forAll (List.finRange 64) (fun n s => if s.slotOff[n] then slotDisarm n s else s) s

/-- The store of a slot's register: ARM and DISARM act through SLOT_CMD (R62, R64, R66). -/
def slotStore (n : Fin 64) (off : Nat) (w : Word) (s : State) : State :=
  if off = 0x8 then
    if fieldOf w Slot.CMD_DISARM = 1 then slotDisarmCmd n s
    else if fieldOf w Slot.CMD_ARM = 1 ∧ getF s (.slot n) Slot.STATUS_STATE ≠ 1 then
      if armRefused s n then slotSignal n (setF (.slot n) Slot.STATUS_STATE 4 s)
      else
        let s := setF (.slot n) Slot.SKIP 0 (setF (.slot n) Slot.STATUS_STATE 1 s)
        slotCheck n { s with slotLate := s.slotLate.set n false, fresh := slotKey n :: s.fresh }
    else s
  else storeFields (.slot n) off w s

def slotWrite (ag : Agent) (n : Fin 64) (off : Nat) (w : Word) (s : State) : State :=
  judgedWrite ag (.slot n) off w (slotStore n off w) s

def execSlotArm (ag : Agent) (n : Fin 64) (w : Word) (s : State) : Outcome := .next (slotWrite ag n 0x8 w s)
def execSlotDisarm (ag : Agent) (n : Fin 64) (w : Word) (s : State) : Outcome := .next (slotWrite ag n 0x8 w s)

/-! ### A tick of the time unit (R35–R46) -/

/-- The step record of two entries to Q1 (R44, R335). -/
def stepRecord (sync : Bool) (oldEp newEp before : Nat) (d : Int) (s : State) : State :=
  let q := seqOf s clsTime 0
  let e0 : QEntry := { w0 := word0 0x10 q newEp (bitOf sync), w1 := wordOf (timeNs s),
                       w2 := wordOf (oldEp * 2 ^ 16 + newEp), w3 := wordOf before }
  let d64 := ofSigned 64 d
  let e1 : QEntry := { w0 := word0 0x11 q newEp 0, w1 := wordOf d64, w2 := wordOf (d64 / 2 ^ 32), w3 := wordOf (timeSec s) }
  postRecord 1 srcTime [e0, e1] (seqNext clsTime 0 s)

/-- A decided step of `d` units of 2^-28 ns is applied (R44–R46): time, epoch, STEP and STEP_LAST, the record, the slots,
the carriers, the grids. A step that leaves the frame grid in place moves the windows of the lanes with it (R209). -/
def stepApply (d : Int) (s : State) : State :=
  let before := timeNs s
  let m : Int := (timeMod * 2 ^ 28 : Nat)
  let t := (((s.time.now * 2 ^ 28 + s.time.frac : Nat) : Int) + d) % m
  let dn := truncDiv d (2 ^ 28)
  let sync := s.time.stepSync
  let oldEp := timeEpoch s
  let newEp := if getF s .time Time.CFG_ROLE = 2 then s.time.leadEpoch.getD oldEp else (oldEp + 1) % 2 ^ 16
  let s := modTime (fun x => { x with now := t.toNat / 2 ^ 28, frac := t.toNat % 2 ^ 28, epoch := newEp,
                                      stepPend := none, stepSync := false }) (timeMark d s)
  let s := setI .time Time.STEP_LAST (clampI (-(2 ^ 31 - 1)) (2 ^ 31 - 1) dn) (raiseF .time Time.STATUS_STEP s)
  let s := occurs 2 0 (stepRecord sync oldEp newEp before dn s)
  let s := setTimeSet (adjDone s.time.kStep s)
  let s := forAll (List.finRange 64) (slotStep dn) s
  let s := forAll (List.finRange 16) (exgRealign d) (setF .time Time.STATUS_EXALIGN 1 s)
  let moved := d % ((frameNs s * 2 ^ 28 : Nat) : Int) != 0
  let off := (((s.fe.gridOff : Nat) : Int) - d) % ((2560 * 2 ^ 28 : Nat) : Int)
  let s := if moved then srJoin { s with fe := { s.fe with gridOff := off.toNat } } else s
  let s := { s with fe := { s.fe with stepped := s.fe.stepped || flag s .fe Fe.STATUS_SRPEND } }
  let gb := s.cap.gbDue || getF s .cap Cap.CLK_SRC != 2 || moved
  let shift := fun (x : Delivery) => if moved then { x with moved := true } else if x.moved then x
    else { x with t := (((x.t : Int) + dn) % (timeMod : Int)).toNat, epoch := newEp }
  { s with rg := s.rg.map (fun g => { g with stepped := true }),
           rs := s.rs.map (fun l => { l with gb := true, stepped := true, win := l.win.map shift }),
           cap := { s.cap with gbDue := gb } }

/-- The effective increment of the next tick, and the remainder it leaves (R35, R38). -/
def nextIncr (s : State) : Int × Int :=
  let r := s.time.slewRem
  let d := slewD s
  let i : Int := incr s
  if r = 0 then (i, 0)
  else if (r.natAbs : Int) ≤ d then (i + r, 0)
  else if 0 < r then (i + d, r - d)
  else (i - d, r + d)

/-- One tick: the effective increment is added to network time and to elapsed time; a slew ends exactly; an adjustment of
total offset 0 completes; a decided step is applied. -/
def timeTick (s : State) : State :=
  let (i, rem) := nextIncr s
  let slewing := s.time.slewRem != 0
  let t := s.time.now * 2 ^ 28 + s.time.frac + i.toNat
  let carry := t / 2 ^ 60 != (s.time.now * 2 ^ 28 + s.time.frac) / 2 ^ 60
  let zero := s.time.zeroPend
  let s := { s with elapsed := s.elapsed + i.toNat, cycle := s.cycle + 1 }
  let s := modTime (fun x => { x with now := t / 2 ^ 28 % timeMod, frac := t % 2 ^ 28, inc := i.toNat, slewRem := rem,
                                      zeroPend := false }) s
  let s := raiseIf carry .time Time.STATUS_WRAP s
  let s := if slewing && rem == 0 then adjDone s.time.kAdj (setF .time Time.STATUS_SLEWING 0 s) else s
  let s := if zero then adjDone s.time.kZero s else s
  match s.time.stepPend with
  | some d => stepApply d s
  | none => s

/-! ### Masters and SYNC (R47–R58) -/

/-- The base of the time unit, the source of its alarms (R57). -/
def timeSrc : Nat := blkBase .time

/-- PTP_MASTER_LOST (R47): a device that disciplines from PTP holds over. -/
def ptpLost (s : State) : State :=
  if clocked s .system && getF s .time Time.CFG_ROLE != 2 then
    if flag s .time Time.STATUS_HOLDOVER then s
    else raiseAlarm 0x0201 timeSrc 1 true (setF .time Time.STATUS_HOLDOVER 1 s)
  else s

def execPtpMasterLost (s : State) : Outcome := .next (ptpLost s)

/-- PTP_MASTER_ACQUIRED (R48): HOLDOVER clears and the measured offset goes to TIME_ADJ. -/
def ptpAcquired (off : Int) (s : State) : State :=
  if clocked s .system && getF s .time Time.CFG_ROLE != 2 then
    let s := if flag s .time Time.STATUS_HOLDOVER then
        alarmGone 0x0201 timeSrc (setF .time Time.STATUS_HOLDOVER 0 s) else s
    timeAdjust off s
  else s

def execPtpMasterAcquired (off : Int) (s : State) : Outcome := .next (ptpAcquired off s)

/-- Network time since the last multiple of `p` ns, in 2^-28 ns, and the first tick at or after that multiple. -/
def pastMultiple (s : State) (p : Nat) : Nat := timeUnits s % (p * 2 ^ 28)
def justAt (s : State) (p : Nat) : Bool := firstTick s (pastMultiple s p)

/-- The time word the leader sends for the present second (R54). -/
def timeWord (s : State) : Nat :=
  let body := timeSec s * 2 ^ 32 + timeEpoch s * 2 ^ 16
    + getF s .time Time.STATUS_HOLDOVER * 2 ^ 15 + getF s .time Time.STATUS_DISC * 2 ^ 14
    + getF s .time Time.STATUS_SET * 2 ^ 13
  body * 2 ^ 16 + crc16 80 body

/-- SYNC_MS_EDGE_OUT (R53): the leader begins its pulse at a whole millisecond; the pulse's course and, at whole seconds,
the time word of R54 follow in elapsed time (R465, log 120). A pulse begins once at its tick. -/
def syncOut (s : State) : State :=
  let t0 := s.elapsed - pastMultiple s 1000000
  let p : SyncPulse := { t0 := t0, whole := timeSub s / 1000000 == 0, word := timeWord s }
  let begun := match s.time.syncAt with | none => false | some q => q.t0 == t0
  if clocked s .system && getF s .time Time.CFG_ROLE == 1 && !s.time.syncStop && justAt s 1000000 && !begun then
    modTime (fun t => { t with syncAt := some p }) s
  else s

def execSyncMsEdgeOut (s : State) : Outcome := .next (syncOut s)

/-- The SYNC level a driving leader holds at the present time (R53, R54). -/
def syncLevel (s : State) : Bool :=
  match s.time.syncAt with
  | none => false
  | some p =>
    let d := sinceNs s p.t0
    if d < 1000 then true
    else if !p.whole then false
    else if d < 3000 then true
    else if d < 8000 then false
    else if d < 11840 then bitAt p.word (95 - (d - 8000) / 40) == 1
    else false

/-- SYNC_EDGE_RECEIVED (R55): the edge's distance from the nearest whole millisecond, the later one of two equally near (log 121),
is removed under R37, and INCR is set from the measured offsets by the follower's servo, which the spec does not give
(log 32). An edge on a follower that has lost SYNC corrects nothing (log 33). -/
def syncEdge (half : Bool) (s : State) : State :=
  if clocked s .system && getF s .time Time.CFG_ROLE == 2 then
    let t2 : Int := 2 * (s.time.now : Int) + (if half then 5 else 0) - 2 * (getF s .time Time.CFG_SYNCDLY : Int)
    let off2 := (t2 + 1000000) % 2000000 - 1000000
    let far := decide (2 * getF s .time Time.SLEW_LIMIT < off2.natAbs)
    let now := s.elapsed
    let lost := flag s .time Time.STATUS_SYNCLOST
    let s := modTime (fun t => { t with edgeAt := now, gotEdge := true, edgeFar := t.edgeFar || far && !lost }) s
    if lost then s else adjustBy false (-(off2 * 2 ^ 27)) (incrStore (Config.followerIncr (incr s) off2) s)
  else s

def execSyncEdgeReceived (half : Bool) (s : State) : Outcome := .next (syncEdge half s)

/-- SYNC_TIME_WORD_RECEIVED (R54–R56): a valid word gives the leader's seconds and epoch, which the follower adopts by a
step where its own differ; a word that fails its CRC sets SCRC. A word 1.5 s or more after the last valid one does not follow
it second by second (log 122). The model's choices (log 33): the seconds are compared when the word has arrived; a follower that
has lost SYNC adopts its words at once; a slew in progress runs on beside the step, which does not take SLEW_REM in. -/
def syncWord (word : BitVec 96) (s : State) : State :=
  if clocked s .system && getF s .time Time.CFG_ROLE == 2 then
    let v := word.toNat
    if crc16 80 (v / 2 ^ 16) ≠ v % 2 ^ 16 then
      raiseF .time Time.STATUS_SCRC (modTime (fun t => { t with syncBad := t.syncBad + 1, syncGood := 0 }) s)
    else
      let sec := v / 2 ^ 48
      let ep := v / 2 ^ 32 % 2 ^ 16
      let own := timeSec s
      let now := s.elapsed
      let next := decide (sinceNs s s.time.wordAt < 1500000000)
      let s := setTimeSet (modTime (fun t => { t with syncBad := 0, syncGood := if next then t.syncGood + 1 else 1,
                                                      wordAt := now, leadEpoch := some ep }) s)
      if sec = own ∧ ep = timeEpoch s then s
      else
        let d : Int := ((sec : Int) - (own : Int)) * 1000000000 * 2 ^ 28
        modTime (fun t => { t with stepPend := some (t.stepPend.getD 0 + d), stepSync := true }) s
  else s

def execSyncTimeWordReceived (word : BitVec 96) (s : State) : Outcome := .next (syncWord word s)

/-- A follower enters holdover (R56, R57). -/
def syncLost (s : State) : State :=
  let s := modTime (fun t => { t with syncGood := 0, edgeFar := false }) s
  raiseAlarm 0x0202 timeSrc 1 true (setF .time Time.STATUS_SYNCLOST 1 s)

/-- SYNC_LOSS (R56): three missing edges, taken as more than 3 ms since the last edge (log 122), a far edge, or two failed words
in succession. -/
def syncLoss (s : State) : State :=
  let due := s.time.edgeFar || decide (2 ≤ s.time.syncBad) || (s.time.gotEdge && decide (3000000 < sinceNs s s.time.edgeAt))
  if clocked s .system && getF s .time Time.CFG_ROLE == 2 && !flag s .time Time.STATUS_SYNCLOST && due then syncLost s else s

def execSyncLoss (s : State) : Outcome := .next (syncLoss s)

/-- SYNC_RESUME (R56): two consecutive valid seconds. -/
def syncResume (s : State) : State :=
  if clocked s .system && flag s .time Time.STATUS_SYNCLOST && decide (2 ≤ s.time.syncGood) then
    alarmGone 0x0202 timeSrc (setF .time Time.STATUS_SYNCLOST 0 s)
  else s

def execSyncResume (s : State) : Outcome := .next (syncResume s)

/-- SYNC_ACQUIRE_TIMEOUT (R58): no edge within 10 ms of taking the role. -/
def syncTimeout (s : State) : State :=
  if clocked s .system && getF s .time Time.CFG_ROLE == 2 && !s.time.gotEdge && !flag s .time Time.STATUS_SYNCLOST
      && decide (10000000 ≤ sinceNs s s.time.roleAt) then syncLost s
  else s

def execSyncAcquireTimeout (s : State) : Outcome := .next (syncTimeout s)

/-- SYNC_CONTENTION (R58): the leader stops driving until its role is written again. -/
def syncContention (s : State) : State :=
  if clocked s .system && getF s .time Time.CFG_ROLE == 1 && !s.time.syncStop then
    let s := modTime (fun t => { t with syncStop := true, syncAt := none }) s
    raiseAlarm 0x0203 timeSrc 1 false (raiseF .time Time.STATUS_SYNCCONF s)
  else s

def execSyncContention (s : State) : Outcome := .next (syncContention s)

/-- PPS_PULSE_START and PPS_PULSE_END (R59). -/
def ppsStart (s : State) : State :=
  let now := s.elapsed
  if clocked s .system && flag s .time Time.CFG_PPSEN && justAt s 1000000000 && !s.time.ppsOut then
    modTime (fun t => { t with ppsOut := true, ppsAt := now }) s
  else s
def ppsEnd (s : State) : State :=
  if clocked s .system && s.time.ppsOut && decide (1000 * getF s .time Time.CFG_PPSW ≤ sinceNs s s.time.ppsAt) then
    modTime (fun t => { t with ppsOut := false }) s
  else s

def execPpsPulseStart (s : State) : Outcome := .next (ppsStart s)
def execPpsPulseEnd (s : State) : Outcome := .next (ppsEnd s)

end Sys2Proof.Machine
end

