-- ==== Sys2Proof/Machine/Excitation.lean ====
section
/-!
DEFINITION. Excitation generators and analogue outputs (R70–R93, R337, R464).
-/

namespace Sys2Proof.Machine

/-! ### Generators -/

/-- The generator a channel takes its reference from: the lowest-numbered whose mask holds it (R78). -/
def refGen (s : State) (k : Fin 16) : Option (Fin 16) :=
  (List.finRange 16).find? (fun n => bitAt (getF s (.exg n) Exg.REFMASK) k == 1)

/-- Channels in the masks of two generators set REFCONF of the higher-numbered (R78). -/
def refConf (s : State) : State :=
  forAll (List.finRange 16) (fun n s =>
    let clash := (List.finRange 16).any (fun k => bitAt (getF s (.exg n) Exg.REFMASK) k == 1 && refGen s k != some n)
    raiseIf clash (.exg n) Exg.STATUS_REFCONF s) s

def exgState (s : State) (n : Fin 16) : Nat := getF s (.exg n) Exg.STATUS_STATE
def setExgState (n : Fin 16) (st : Nat) (s : State) : State := setF (.exg n) Exg.STATUS_STATE st s

/-- The bridge drives: RAMP, ON or STOPPING, or a sentinel burst that no safe-state cause holds off (R79, R82, R94, R431). -/
def exgDrives (s : State) (n : Fin 16) : Bool :=
  let st := exgState s n
  st == 1 || st == 2 || st == 3 || (decide (0 < (s.exg[n]).burst) && !burstCause s n)

/-- EN changes to 1 (R79, R87): LIMCNT clears; a cause that holds leads to SAFE. -/
def exgStart (n : Fin 16) (s : State) : State :=
  let s := setF (.exg n) Exg.COUNT_LIMCNT 0 s
  let st := exgBase s n true
  if st = 0 then
    if exgCause s n then exgTake n 11 true (setExgState n 6) s
    else exgTake n 1 true (fun s => setExgState n 1 (modExg n (fun x => { x with amp := 0 }) s)) s
  else if st = 3 then exgTake n 5 true (setExgState n 1) s
  else s

/-- EN changes to 0 (R79). -/
def exgStop (n : Fin 16) (s : State) : State :=
  let st := exgBase s n true
  if st = 1 ∨ st = 2 then exgTake n 3 true (setExgState n 3) s
  else if st = 4 ∨ st = 5 then exgTake n 9 true (exgOff n 0) s
  else s

/-- The store of a generator's register. -/
def exgStore (n : Fin 16) (off : Nat) (w : Word) (s : State) : State :=
  let on := becomes s (.exg n) Exg.CTRL_EN w 1
  let off0 := becomes s (.exg n) Exg.CTRL_EN w 0
  let s := storeFields (.exg n) off w s
  if off = 0x8 then (if on then exgStart n s else if off0 then exgStop n s else s)
  else if off = 0x18 then refConf s
  else s

def exgWrite (ag : Agent) (n : Fin 16) (off : Nat) (w : Word) (s : State) : State :=
  judgedWrite ag (.exg n) off w (exgStore n off w) s

def execExgEnable (ag : Agent) (n : Fin 16) (w : Word) (s : State) : Outcome := .next (exgWrite ag n 0x8 w s)
def execExgDisable (ag : Agent) (n : Fin 16) (w : Word) (s : State) : Outcome := .next (exgWrite ag n 0x8 w s)
def execExgAmpWrite (ag : Agent) (n : Fin 16) (w : Word) (s : State) : Outcome := .next (exgWrite ag n 0x14 w s)

/-- Amplitude the generator moves towards (R79, R80). -/
def exgTarget (s : State) (n : Fin 16) : Rat :=
  let st := exgState s n
  if st = 1 ∨ st = 2 then (getF s (.exg n) Exg.AMP : Rat) else 0

/-- One step of the amplitude ramp (R80). -/
def rampTo (target amp step : Rat) : Rat :=
  if amp < target then (if target ≤ amp + step then target else amp + step)
  else (if amp - step ≤ target then target else amp - step)

/-- A sentinel burst runs (R94, R420). -/
def bursting (s : State) : Bool := dormant s && s.pwr.phase == 2

/-- A carrier cycle of generator n ends now (R31, R69): in a sentinel burst one that its own phase has passed and that has not
been taken yet (R94), else the crossing that the last tick brought, once. -/
def cycleDue (s : State) (n : Fin 16) : Bool :=
  let x := s.exg[n]
  if bursting s then decide (0 < x.burst) && decide (3 - x.burst < x.burstPh / 2 ^ 32)
  else carrierCrossed s n && x.endCyc != some s.cycle

/-- A carrier cycle of a sentinel burst ends: the currents are published, and after the third the bridge is high-impedance
(R86, R94). -/
def burstCycle (n : Fin 16) (irms ipk : Nat) (s : State) : State :=
  let s := modExg n (fun x => { x with burst := x.burst - 1 }) s
  setF (.exg n) Exg.IRMS (satU 20 irms) (setF (.exg n) Exg.IPK (satU 20 ipk) s)

/-- The generator's part of a carrier cycle end (R79, R80, R84, R86): amplitude, currents, the SC timer's restart. -/
def exgCycle (n : Fin 16) (irms ipk : Nat) (s : State) : State :=
  let step : Rat := 8000 / (getF s (.exg n) Exg.CTRL_RAMP : Rat)
  let st := exgState s n
  let amp := if st = 1 ∨ st = 2 ∨ st = 3 then rampTo (exgTarget s n) (s.exg[n]).amp step else (s.exg[n]).amp
  let now := s.elapsed
  let s := modExg n (fun x => { x with amp := amp, scAt := if x.limited then x.scAt else none, limited := false }) s
  let s := setF (.exg n) Exg.IRMS (satU 20 irms) (setF (.exg n) Exg.IPK (satU 20 ipk) s)
  let base := exgBase s n false
  if base = 1 ∧ amp = (getF s (.exg n) Exg.AMP : Rat) then
    exgTake n 2 false (fun s => setExgState n 2 (modExg n (fun x => { x with cleanAt := now }) s)) s
  else if base = 3 ∧ amp = 0 then exgTake n 4 false (exgOff n 0) s
  else s

/-- EXG_LIMIT_EVENT (R83): both legs go to their low sides for the rest of the PWM period; LIMEV, LIMCNT, and the SC timer's
start. -/
def exgLimit (n : Fin 16) (s : State) : State :=
  if (live s (.exg n) || decide (0 < (s.exg[n]).burst)) && exgDrives s n then
    let now := s.elapsed
    let s := incF (.exg n) Exg.COUNT_LIMCNT (raiseF (.exg n) Exg.STATUS_LIMEV s)
    let bursting := decide (0 < (s.exg[n]).burst)
    modExg n (fun x => { x with limited := true, low := true, cleanAt := now,
                                scAt := if bursting then none else some (x.scAt.getD now) }) s
  else s

def execExgLimitEvent (n : Fin 16) (s : State) : Outcome := .next (exgLimit n s)

/-- The SC timer has run for 2 ms (R84). -/
def scDue (s : State) (at_ : Option Nat) : Bool :=
  match at_ with | none => false | some t => decide (2000000 ≤ sinceNs s t)

/-- EXG_SHORT_CIRCUIT (R79, R84, R85, R464). -/
def exgShort (n : Fin 16) (s : State) : State :=
  if live s (.exg n) && scDue s (s.exg[n]).scAt then
    let now := s.elapsed
    let s := raiseAlarm 0x0301 (blkBase (.exg n)) 1 false (raiseF (.exg n) Exg.STATUS_SC s)
    let st := exgBase s n false
    if flag s (.exg n) Exg.CTRL_SCMODE then modExg n (fun x => { x with scAt := some now }) s
    else if st = 1 ∨ st = 2 then
      if flag s (.exg n) Exg.CTRL_RETRY then
        let mx := getF s (.exg n) Exg.CTRL_RETRYMAX
        if mx = 0 ∨ getF s (.exg n) Exg.COUNT_RETRIES < mx then
          exgTake n 7 false (fun s => modExg n (fun x => { x with retryAt := now }) (exgOff n 4 s)) s
        else
          raiseAlarm 0x0302 (blkBase (.exg n)) 2 false
            (raiseF (.exg n) Exg.STATUS_RETRYFAIL (exgTake n 6 false (exgOff n 5) s))
      else exgTake n 6 false (exgOff n 5) s
    else modExg n (fun x => { x with scAt := none }) s
  else s

def execExgShortCircuit (n : Fin 16) (s : State) : Outcome := .next (exgShort n s)

/-- RETRIES counts one more (R85); what follows 255 without a limit on retries is not stated: a free value (log 129). -/
def exgCount (n : Fin 16) (s : State) : State :=
  let r := getF s (.exg n) Exg.COUNT_RETRIES
  if r = 255 then setF (.exg n) Exg.COUNT_RETRIES (freeVal s) (freeNext s) else setF (.exg n) Exg.COUNT_RETRIES (r + 1) s

/-- EXG_RETRY_TIMEOUT (R79): 100 ms in RETRY_WAIT. -/
def exgRetry (n : Fin 16) (s : State) : State :=
  if live s (.exg n) && exgBase s n false == 4 && decide (100000000 ≤ sinceNs s (s.exg[n]).retryAt) then
    exgTake n 8 false (fun s => setExgState n 1 (exgCount n (modExg n (fun x => { x with amp := 0 }) s))) s
  else s

def execExgRetryTimeout (n : Fin 16) (s : State) : Outcome := .next (exgRetry n s)

/-- EXG_RETRY_CLEAR (R85): 1 s in ON without a limit event. -/
def exgRetryClear (n : Fin 16) (s : State) : State :=
  if live s (.exg n) && exgState s n == 2 && decide (1000000000 ≤ sinceNs s (s.exg[n]).cleanAt) then
    setF (.exg n) Exg.COUNT_RETRIES 0 s
  else s

def execExgRetryClear (n : Fin 16) (s : State) : Outcome := .next (exgRetryClear n s)

/-- VEXC as measured: every generator shows it (R74, R87, log 29). -/
def setVexc (mv : Nat) (s : State) : State :=
  forAll (List.finRange 16) (fun n => setF (.exg n) Exg.VEXC (satU 16 mv)) s

/-- Every generator follows VEXC: below 7.5 V it has the cause and sets VUV, until VEXC is above 7.8 V again (R77). Where the region
has no clock the generators follow when it has one again. -/
def vexcFollow (s : State) : State :=
  let v := s.pwr.vexcLow
  if clocked s .port then
    refreshOutputs (forAll (List.finRange 16) (fun n s =>
      raiseIf (v && !(s.exg[n]).vuv) (.exg n) Exg.STATUS_VUV (modExg n (fun x => { x with vuv := v }) s)) s)
  else s

/-- VEXC passes a threshold: measured where the region has a clock. -/
def vexcPass (v : Bool) (mv : Nat) (s : State) : State :=
  let s := { s with pwr := { s.pwr with vexcLow := v } }
  vexcFollow (if clocked s .port then setVexc mv s else s)

/-- VEXC_UNDERVOLTAGE (R77). -/
def vexcLow (mv : Nat) (s : State) : State := if mv < 7500 then vexcPass true mv s else s

def execVexcUndervoltage (mv : Nat) (s : State) : Outcome := .next (vexcLow mv s)

/-- VEXC_RECOVER (R77): above 7.8 V the cause ends. -/
def vexcHigh (mv : Nat) (s : State) : State := if 7800 < mv then vexcPass false mv s else s

def execVexcRecover (mv : Nat) (s : State) : Outcome := .next (vexcHigh mv s)

/-! ### Duty and noise shaper (R74, R75) -/

/-- The table entry S[i], Q1.17 (R74, log 40). -/
def sineEntry (i : Nat) : Int := satS 18 (sinTurn 17 (i % 1024) 1024)

/-- The interpolated sine sample of a phase in cycles, in [-1, 1] (R74). -/
def sineSample (ph : Rat) : Rat :=
  let x := (ph * 2 ^ 32).floor.toNat % 2 ^ 32
  let i := x / 2 ^ 22
  let u := bits x 21 12
  ((sineEntry i : Rat) + ((sineEntry (i + 1) - sineEntry i : Int) : Rat) * (u : Rat) / 1024) / 2 ^ 17

/-- The magnitude of the modulation a × s / 2 in core cycles, UQ10.14, and whether the headroom limit acts (R74). -/
def modulation (amp : Rat) (v : Nat) (sa : Rat) : Rat × Bool :=
  let limit := decide ((15 / 16 : Rat) * v * ((15 / 16 : Rat) * v) < 2 * amp * amp)
  let m : Nat :=
    if limit then
      let r : Rat := 2 ^ 23 * (15 / 16) * sa
      r.floor.toNat + bitOf (decide ((r.floor : Rat) < r) && Config.dutyUp amp.floor.toNat v sa)
    else
      let r : Rat := 2 ^ 23 * amp * sa / v
      Nat.sqrt ((2 * r * r).floor.toNat) + bitOf (decide (r ≠ 0) && Config.dutyUp amp.floor.toNat v sa)
  ((m : Rat) / 2 ^ 14, limit)

/-- One PWM period of the shaper of a pin: `x` core cycles quantised between `lo` and `hi`, with the pin's own dither (R75). Pins
0 to 31 are the legs of the generators, 32 to 39 the analogue outputs. -/
def shape (pin : Fin 40) (x : Rat) (lo hi : Nat) (h : Shaper) : Shaper :=
  let l := Config.lfsrNext h.lfsr
  let d : Rat := ((Config.dither pin l).toNat : Rat) / 2 ^ 14 - 1 / 2
  let v := x - 2 * h.e1 + h.e2 + d
  let q := clampI lo hi (ratRound v)
  let e := (q : Rat) - v
  { e1 := if e < -1 then -1 else if 1 < e then 1 else e, e2 := h.e1, lfsr := l, q := q.toNat }

def legP (n : Fin 16) : Fin 40 := ⟨2 * n.val, by omega⟩
def legN (n : Fin 16) : Fin 40 := ⟨2 * n.val + 1, by omega⟩

/-- A generator's legs at a PWM period boundary (R74, R75): the period in which both legs stood low is over (R83). In a sentinel burst
the phase is the burst's own, which runs from 0 at F for each of the 1,024 core cycles, and the amplitude is EXG_AMP (R94, R95).
The shaper of a leg that does not drive stands still, and its errors and its LFSR go on from there at the next enable: the model's
choice (log 20). -/
def exgPeriod (n : Fin 16) (s : State) : State :=
  let b := decide (0 < (s.exg[n]).burst)
  let ph := (s.exg[n]).burstPh + 1024 * getF s (.exg n) Exg.FREQ
  let next := fun (x : ExgSt) => { x with low := false, burstPh := if b then ph else x.burstPh }
  if (live s (.exg n) || bursting s && b) && exgDrives s n then
    let v := getF s (.exg n) Exg.VEXC
    let sm := sineSample (if b then ((s.exg[n]).burstPh % 2 ^ 32 : Nat) / (2 ^ 32 : Rat) else carrierPhase s n)
    let (m, lim) := modulation (if b then (getF s (.exg n) Exg.AMP : Rat) else (s.exg[n]).amp) v (if sm < 0 then -sm else sm)
    let m := if sm < 0 then -m else m
    let s := raiseIf lim (.exg n) Exg.STATUS_HEAD s
    modExg n (fun x => next { x with legP := shape (legP n) (512 + m) 26 998 x.legP,
                                     legN := shape (legN n) (512 - m) 26 998 x.legN }) s
  else modExg n next s

/-- VEXC as measured in the present PWM period, which no row gives: a free value that every generator shows (R74, R87, log 29). -/
def vexcPeriod (s : State) : State := setVexc (freeVal s % 2 ^ 16) (freeNext s)

/-! ### Analogue outputs -/

def aoState (s : State) (n : Fin 8) : Nat := getF s (.ao n) Ao.STATUS_STATE
def aoApplied (s : State) (n : Fin 8) : Nat := getF s (.ao n) Ao.STATUS_APPLIED

/-- The output drives: ON, HOLD or RANGING. -/
def aoDrives (s : State) (n : Fin 8) : Bool := let st := aoState s n; st == 1 || st == 2 || st == 3

/-- A newly requested code (R90, R91): an occult hold of HOLD + 1 periods, each begun at a boundary, where the step exceeds
THRESH, the pending code during a hold, the ramp's new end during a range change. -/
def aoRequest (n : Fin 8) (c : Nat) (s : State) : State :=
  let st := aoState s n
  if st = 1 then
    let a := aoApplied s n
    let diff := if a ≤ c then c - a else a - c
    if flag s (.ao n) Ao.DGL_EN ∧ getF s (.ao n) Ao.DGL_THRESH < diff then
      setF (.ao n) Ao.STATUS_STATE 2
        (modAo n (fun x => { x with pend := c, hold := getF s (.ao n) Ao.DGL_HOLD + 1 }) s)
    else setF (.ao n) Ao.STATUS_APPLIED c s
  else if st = 2 then modAo n (fun x => { x with pend := c }) s
  else s

/-- A range change starts at the occult code (R91). -/
def aoRangeStart (n : Fin 8) (s : State) : State :=
  let rng := getF s (.ao n) Ao.CTRL_RANGE
  let s := setF (.ao n) Ao.STATUS_STATE 3 (setF (.ao n) Ao.STATUS_APPLIED (getF s (.ao n) Ao.OCCULT) s)
  modAo n (fun x => { x with hold := 0, rstep := 1, rcnt := 0, rnew := rng }) s

/-- The store of an output's register (R88, R90, R91, R463). -/
def aoStore (n : Fin 8) (off : Nat) (w : Word) (s : State) : State :=
  let on := becomes s (.ao n) Ao.CTRL_EN w 1
  let off0 := becomes s (.ao n) Ao.CTRL_EN w 0
  let s' := storeFields (.ao n) off w s
  let rng := getF s' (.ao n) Ao.CTRL_RANGE != getF s (.ao n) Ao.CTRL_RANGE
  if off = 0x8 then
    if on then (if outCause s' (.ao n) then setF (.ao n) Ao.STATUS_STATE 6 s' else aoStart n s')
    else if off0 then (if aoState s' n = 6 then s' else aoStop n 0 s')
    else if rng && (aoState s' n == 1 || aoState s' n == 2) then aoRangeStart n s'
    else s'
  else if off = 0xC then
    (if flag s' (.ao n) Ao.CTRL_SRC then s' else aoRequest n (getF s' (.ao n) Ao.CODE) s')
  else s'

def aoWrite (ag : Agent) (n : Fin 8) (off : Nat) (w : Word) (s : State) : State :=
  judgedWrite ag (.ao n) off w (aoStore n off w) s

def execAoEnable (ag : Agent) (n : Fin 8) (w : Word) (s : State) : Outcome := .next (aoWrite ag n 0x8 w s)
def execAoDisable (ag : Agent) (n : Fin 8) (w : Word) (s : State) : Outcome := .next (aoWrite ag n 0x8 w s)
def execAoCodeWrite (ag : Agent) (n : Fin 8) (w : Word) (s : State) : Outcome := .next (aoWrite ag n 0xC w s)
def execAoRangeChange (ag : Agent) (n : Fin 8) (w : Word) (s : State) : Outcome := .next (aoWrite ag n 0x8 w s)

/-- OCCULT_HOLD_END (R90): the shaper and the new code take over the pin. -/
def aoHoldEnd (n : Fin 8) (s : State) : State :=
  if live s (.ao n) && aoState s n == 2 && (s.ao[n]).hold == 0 then
    let s := setF (.ao n) Ao.STATUS_APPLIED (s.ao[n]).pend (setF (.ao n) Ao.STATUS_STATE 1 s)
    raiseF (.ao n) Ao.FLAGS_HOLDEV s
  else s

def execOccultHoldEnd (n : Fin 8) (s : State) : Outcome := .next (aoHoldEnd n s)

/-- AO_RAIL_SWITCH (R91): after 8 periods at the occult code the rail switches and the ramp begins. -/
def aoRailSwitch (n : Fin 8) (s : State) : State :=
  if live s (.ao n) && aoState s n == 3 && (s.ao[n]).rstep == 1 && decide (8 ≤ (s.ao[n]).rcnt) then
    let a : Rat := aoApplied s n
    modAo n (fun x => { x with rstep := 2, rcnt := 0, rail := x.rnew, rpos := a }) s
  else s

def execAoRailSwitch (n : Fin 8) (s : State) : Outcome := .next (aoRailSwitch n s)

/-- AO_RANGE_RAMP_DONE (R91): after 20 periods the code is reached; a RANGE written meanwhile takes effect. -/
def aoRangeDone (n : Fin 8) (s : State) : State :=
  if live s (.ao n) && aoState s n == 3 && (s.ao[n]).rstep == 2 && decide (20 ≤ (s.ao[n]).rcnt) then
    let s := setF (.ao n) Ao.STATUS_APPLIED (getF s (.ao n) Ao.CODE) (setF (.ao n) Ao.STATUS_STATE 1 s)
    let s := modAo n (fun x => { x with rstep := 0, rcnt := 0 }) s
    if getF s (.ao n) Ao.CTRL_RANGE = (s.ao[n]).rail then s else aoRangeStart n s
  else s

def execAoRangeRampDone (n : Fin 8) (s : State) : Outcome := .next (aoRangeDone n s)

/-- AO_LIMIT_EVENT (R92): LIMEV; the SC timer restarts after 256 µs without an event. -/
def aoLimit (n : Fin 8) (s : State) : State :=
  if live s (.ao n) && aoDrives s n then
    let now := s.elapsed
    let stale := decide (256000 ≤ sinceNs s (s.ao[n]).limAt)
    let s := raiseF (.ao n) Ao.FLAGS_LIMEV s
    modAo n (fun x => { x with limAt := now, cleanAt := now, scAt := if stale then some now else some (x.scAt.getD now) }) s
  else s

def execAoLimitEvent (n : Fin 8) (s : State) : Outcome := .next (aoLimit n s)

/-- AO_SHORT_CIRCUIT (R92, R464): at most 3 consecutive retries. -/
def aoShort (n : Fin 8) (s : State) : State :=
  if live s (.ao n) && aoDrives s n && scDue s (s.ao[n]).scAt && decide (sinceNs s (s.ao[n]).limAt < 256000) then
    let now := s.elapsed
    let s := raiseAlarm 0x0303 (blkBase (.ao n)) 1 false (raiseF (.ao n) Ao.FLAGS_SC s)
    if flag s (.ao n) Ao.CTRL_SCMODE then modAo n (fun x => { x with scAt := some now }) s
    else if flag s (.ao n) Ao.CTRL_RETRY then
      if (s.ao[n]).retries < 3 then modAo n (fun x => { x with retryAt := now }) (aoStop n 4 s)
      else raiseAlarm 0x0304 (blkBase (.ao n)) 2 false (raiseF (.ao n) Ao.FLAGS_RETRYFAIL (aoStop n 5 s))
    else aoStop n 5 s
  else s

def execAoShortCircuit (n : Fin 8) (s : State) : Outcome := .next (aoShort n s)

/-- AO_RETRY_TIMEOUT (R92): after 100 ms the output restarts. -/
def aoRetry (n : Fin 8) (s : State) : State :=
  if live s (.ao n) && aoState s n == 4 && decide (100000000 ≤ sinceNs s (s.ao[n]).retryAt) then
    aoStart n (modAo n (fun x => { x with retries := x.retries + 1 }) s)
  else s

def execAoRetryTimeout (n : Fin 8) (s : State) : Outcome := .next (aoRetry n s)

/-- AO_RETRY_CLEAR (R85, R92): 1 s in ON without a limit event. -/
def aoRetryClear (n : Fin 8) (s : State) : State :=
  if live s (.ao n) && aoState s n == 1 && decide (1000000000 ≤ sinceNs s (s.ao[n]).cleanAt) then
    modAo n (fun x => { x with retries := 0 }) s
  else s

def execAoRetryClear (n : Fin 8) (s : State) : Outcome := .next (aoRetryClear n s)

/-- The AO stream at a PWM period boundary (R337): at most one entry of Q14 is examined. -/
def aoStream (s : State) : State :=
  if !live s (.q 14) then s
  else
    let s := lenCommit 14 s
    if qLevel s 14 = 0 then s
    else
      let e := oldest s 14
      let n := fin8 (bits e.w0.toNat 2 0)
      let ok := bits e.w0.toNat 31 24 == 0x52 && flag s (.ao n) Ao.CTRL_SRC && flag s (.ao n) Ao.CTRL_EN
      if !ok then raiseF (.q 14) Q.STATUS_BADREC (takeEntry 14 s).2
      else if bitAt e.w0.toNat 3 = 0 ∨ passed s e.w1.toNat then
        let c := bits e.w2.toNat 15 0
        aoRequest n c (setF (.ao n) Ao.CODE c (takeEntry 14 s).2)
      else s

/-- One output at a PWM period boundary (R89–R91): a hold or range change advances, the shaper quantises the code; during
a hold it runs on the pending code and the pin keeps its last on-time. The shaper of a pin that does not drive stands still (log 20). The boundary of the rail switch makes no step of the
ramp, whose end is reached 20 boundaries after it. -/
def aoPeriod (n : Fin 8) (s : State) : State :=
  if !(live s (.ao n) && aoDrives s n) then s
  else
    let s := aoRangeDone n (aoRailSwitch n (aoHoldEnd n s))
    let st := aoState s n
    let s :=
      if st = 2 then modAo n (fun x => { x with hold := x.hold - 1 }) s
      else if st = 3 then
        let a := s.ao[n]
        if a.rstep = 1 then modAo n (fun x => { x with rcnt := x.rcnt + 1 }) s
        else
          let left := 21 - min 20 a.rcnt
          let r : Rat := if a.rcnt = 0 then a.rpos else a.rpos + ((getF s (.ao n) Ao.CODE : Rat) - a.rpos) / (left : Rat)
          let c := r.floor.toNat + bitOf (decide ((r.floor : Rat) < r) && Config.rampUp r)
          setF (.ao n) Ao.STATUS_APPLIED c (modAo n (fun x => { x with rcnt := x.rcnt + 1, rpos := r }) s)
      else s
    let code := if st = 2 then (s.ao[n]).pend else aoApplied s n
    let sh := shape ⟨32 + n.val, by omega⟩ ((code : Rat) / 64) 0 1024 (s.ao[n]).shaper
    modAo n (fun x => { x with shaper := sh, drive := if st = 2 then x.drive else sh.q }) s

/-- PWM_PERIOD_END: VEXC is measured, then the stream, every leg and every pin (R74, R75, R89, R337). In DORMANT the legs of a
sentinel burst alone run (R94). -/
def pwmPeriod (s : State) : State :=
  if clocked s .port then
    forAll (List.finRange 8) aoPeriod (forAll (List.finRange 16) exgPeriod (aoStream (vexcPeriod s)))
  else if bursting s then forAll (List.finRange 16) exgPeriod (vexcPeriod s)
  else s

def execPwmPeriodEnd (s : State) : Outcome := .next (pwmPeriod s)

end Sys2Proof.Machine
end

