-- ==== Sys2Proof/Machine/Injection.lean ====
section
/-!
DEFINITION. Injection generators (R249–R256, R266).
-/

namespace Sys2Proof.Machine

def injState (s : State) (k : Fin 4) : Nat := getF s (.inj k) Inj.STATUS_STATE

/-- The owner of a generator's loop is the generator's own (R249). -/
def injOwnerOk (s : State) (k : Fin 4) : Bool :=
  owner s (.lp (fin64 (getF s (.inj k) Inj.CFG_LOOP))) == owner s (.inj k)

/-- INJ_CMD.ARM (R249, R256). -/
def injArm (k : Fin 4) (s : State) : State :=
  let st := injState s k
  if st = 0 ∨ st = 4 ∨ st = 5 then
    if injOwnerOk s k && getF s (.inj k) Inj.CFG_POINT != 3 then
      let seed := getF s (.inj k) Inj.F0 % 2 ^ 15
      let ow := owner s (.lp (fin64 (getF s (.inj k) Inj.CFG_LOOP)))
      let s := modInj k (fun _ => { lfsr := if seed = 0 then 1 else seed, owner := ow }) s
      setF (.inj k) Inj.UNDERCNT 0 (setF (.inj k) Inj.OUT 0 (setF (.inj k) Inj.STATUS_STATE 1 s))
    else raiseF (.inj k) Inj.STATUS_REFUSED s
  else s

/-- INJ_CMD.START (R256). -/
def injStart (k : Fin 4) (s : State) : State :=
  if injState s k = 1 then
    let ph := if getF s (.inj k) Inj.CFG_MODE = 0 then getF s (.inj k) Inj.F1 else 0
    let now := s.elapsed
    setF (.inj k) Inj.STATUS_STATE 2 (modInj k (fun x => { x with j := 0, startAt := now, firstInst := none, phase := ph }) s)
  else s

/-- The taper factor reached in RUN before instant j (R254). -/
def injFactor (taper j : Nat) : Rat := if taper = 0 ∨ taper ≤ j then 1 else (j : Rat) / (taper : Rat)

/-- The run tapers out from its present factor (R254, R256, log 45). -/
def injTaper (k : Fin 4) (s : State) : State :=
  let t := getF s (.inj k) Inj.CFG_TAPER
  setF (.inj k) Inj.STATUS_STATE 3 (modInj k (fun x => { x with taper := 0, w := injFactor t x.j }) s)

/-- INJ_CMD.STOP (R256). -/
def injStop (k : Fin 4) (s : State) : State :=
  let st := injState s k
  if st = 2 then injTaper k s
  else if st = 1 then setF (.inj k) Inj.STATUS_STATE 0 s
  else s

/-- The store of a generator's register; ABORT conditions win over STOP, and STOP over START (R256). -/
def injStore (k : Fin 4) (off : Nat) (w : Word) (s : State) : State :=
  if off = 0x1C then
    let s := if fieldOf w Inj.CMD_ARM = 1 then injArm k s else s
    if fieldOf w Inj.CMD_STOP = 1 then injStop k s
    else if fieldOf w Inj.CMD_START = 1 then injStart k s
    else s
  else storeFields (.inj k) off w s

def injWrite (ag : Agent) (k : Fin 4) (off : Nat) (w : Word) (s : State) : State :=
  judgedWrite ag (.inj k) off w (injStore k off w) s

def execInjArm (ag : Agent) (k : Fin 4) (w : Word) (s : State) : Outcome := .next (injWrite ag k 0x1C w s)
def execInjStart (ag : Agent) (k : Fin 4) (w : Word) (s : State) : Outcome := .next (injWrite ag k 0x1C w s)
def execInjStop (ag : Agent) (k : Fin 4) (w : Word) (s : State) : Outcome := .next (injWrite ag k 0x1C w s)

/-- j has reached INJ_N − TAPER (R256). -/
def injTaperDue (s : State) (k : Fin 4) : Bool :=
  let n := getF s (.inj k) Inj.N
  injState s k == 2 && n != 0 && decide (n ≤ (s.inj[k]).j + getF s (.inj k) Inj.CFG_TAPER)

def injTaperStart (k : Fin 4) (s : State) : State := if live s (.inj k) && injTaperDue s k then injTaper k s else s

def execInjTaperStart (k : Fin 4) (s : State) : Outcome := .next (injTaperStart k s)

/-- The taper has reached 0 (R256). -/
def injDone (k : Fin 4) (s : State) : State :=
  if live s (.inj k) && injState s k == 3 && decide (getF s (.inj k) Inj.CFG_TAPER ≤ (s.inj[k]).taper) then
    raiseF (.inj k) Inj.STATUS_DONEEV (injZero k (setF (.inj k) Inj.STATUS_STATE 4 s))
  else s

def execInjDone (k : Fin 4) (s : State) : Outcome := .next (injDone k s)

/-- The 15-bit LFSR of x^15 + x^14 + 1 shifts once (R252). -/
def prbsShift (l : Nat) : Nat := l * 2 % 2 ^ 15 + (bitAt l 14 + bitAt l 13) % 2

/-- Entries at the head of a queue that hold no injection samples are discarded (R253), up to `n` of them. -/
def injDiscard (k : Fin 4) (q : Fin 16) : Nat → State → State
  | 0, s => s
  | n + 1, s =>
    if qLevel s q = 0 ∨ bits (oldest s q).w0.toNat 31 24 = 0x51 then s
    else injDiscard k q n (raiseF (.q q) Q.STATUS_BADREC (raiseF (.inj k) Inj.STATUS_BADREC (takeEntry q s).2))

/-- The next sample of QUEUE mode (R253): an entry of another TYPE is discarded and the one behind it examined. -/
def injQueue (k : Fin 4) (s : State) : Option Word × State :=
  match (s.inj[k]).samples with
  | x :: t => (some x, modInj k (fun i => { i with samples := t }) s)
  | [] =>
    let q := fin16 (getF s (.inj k) Inj.CFG_Q)
    let under := fun (s : State) => incF (.inj k) Inj.UNDERCNT (raiseF (.inj k) Inj.STATUS_UNDER s)
    if !live s (.q q) then (none, under s)
    else
      match takeEntry q (injDiscard k q (qLevel s q) s) with
      | (none, s) => (none, under s)
      | (some e, s) =>
        let n := bits e.w0.toNat 1 0
        match [e.w1, e.w2, e.w3].take (if n = 0 then 3 else n) with
        | x :: t => (some x, modInj k (fun i => { i with samples := t }) s)
        | [] => (none, s)

/-- The value s_j of the present instant, and the source advanced (R252). -/
def injSource (k : Fin 4) (s : State) : Rat × State :=
  let x := s.inj[k]
  let f0 := getF s (.inj k) Inj.F0
  let f1 := getF s (.inj k) Inj.F1
  match getF s (.inj k) Inj.CFG_MODE with
  | 0 => (sineSample ((x.phase : Rat) / 2 ^ 32), modInj k (fun i => { i with phase := (i.phase + f0) % 2 ^ 32 }) s)
  | 1 =>
    let n := getF s (.inj k) Inj.N
    let (q, s) : Int × State :=
      if n = 0 then (toSigned 32 (freeVal s), freeNext s)
      else (((f1 : Int) - (f0 : Int)) * (x.j : Int) / (n : Int), s)
    let fj : Int := (f0 : Int) + q
    (sineSample ((x.phase : Rat) / 2 ^ 32), modInj k (fun i => { i with phase := ofSigned 32 ((i.phase : Int) + fj) }) s)
  | 2 =>
    let v : Rat := if bitAt x.lfsr Config.prbsTap = 1 then 1 - 1 / 2 ^ 31 else -1
    let c := x.shiftCnt + 1
    let shift := decide (f1 % 2 ^ 8 + 1 ≤ c)
    (v, modInj k (fun i => { i with shiftCnt := if shift then 0 else c, lfsr := if shift then prbsShift i.lfsr else i.lfsr }) s)
  | _ =>
    match injQueue k s with
    | (some w, s) => (((toSigned 32 w.toNat : Int) : Rat) / 2 ^ 31, s)
    | (none, s) => (0, s)

/-- One instant of the loop's rate group (R252, R254, R255): the tapered value is formed and j advances. The value stays exact;
INJ_OUT, which cannot hold 2^31, then shows a free value (log 128). -/
def injInstant (inst : Nat) (k : Fin 4) (s : State) : State :=
  let s := injDone k (injTaperStart k s)
  let st := injState s k
  if !(live s (.inj k) && (st == 2 || st == 3)) then s
  else
    let t := getF s (.inj k) Inj.CFG_TAPER
    let (v, s) := injSource k s
    let x := s.inj[k]
    let w : Rat :=
      if st = 2 then injFactor t (x.j + 1)
      else if t = 0 then 0 else x.w * ((t - 1 - x.taper : Nat) : Rat) / (t : Rat)
    let inj := ratRound (v * ((getI s (.inj k) Inj.AMP : Int) : Rat) * w)
    let s := if inInt 32 inj then setI (.inj k) Inj.OUT inj s else setF (.inj k) Inj.OUT (freeVal s) (freeNext s)
    modInj k (fun i => { i with out := inj, j := i.j + 1, taper := if st = 3 then i.taper + 1 else i.taper,
                                firstInst := some (i.firstInst.getD inst) }) s

/-- What each generator injects at the present instant; one outside RUN and TAPER injects 0. -/
def injOuts (s : State) : Vector Int 4 :=
  Vector.ofFn (fun k : Fin 4 => if injState s k == 2 || injState s k == 3 then (s.inj[k]).out else 0)

/-- The sum at a point of a loop of the injections that an evaluation has started with (R250); one that has aborted since, or been
armed anew, injects nothing (R256). -/
def injAt (s : State) (outs : Vector Int 4) (n : Fin 64) (point : Nat) (wide : Bool) : Int :=
  let v := ((List.finRange 4).filter (fun k => (injState s k == 2 || injState s k == 3 || injState s k == 4)
      && getF s (.inj k) Inj.CFG_LOOP == n.val && getF s (.inj k) Inj.CFG_POINT == point)).foldl
    (fun (a : Int) (k : Fin 4) => a + outs[k]) 0
  if wide then satS 64 v else satS 32 v

/-- A generator runs at a point of a loop. -/
def injActive (s : State) (n : Fin 64) (point : Nat) : Bool :=
  (List.finRange 4).any (fun k => (injState s k == 2 || injState s k == 3)
      && getF s (.inj k) Inj.CFG_LOOP == n.val && getF s (.inj k) Inj.CFG_POINT == point)

/-- A skipped evaluation's value is not applied (R255). -/
def injSkip (n : Fin 64) (s : State) : State :=
  forAll (List.finRange 4) (fun k s =>
    raiseIf ((injState s k == 2 || injState s k == 3) && getF s (.inj k) Inj.CFG_LOOP == n.val) (.inj k) Inj.STATUS_SKIPEV s) s

/-- A change of a loop's owner aborts the generators armed or running on it (R249). -/
def injOwnerCheck (s : State) : State :=
  forAll (List.finRange 4) (fun k s =>
    let st := injState s k
    if (st == 1 || st == 2 || st == 3)
        && owner s (.lp (fin64 (getF s (.inj k) Inj.CFG_LOOP))) != (s.inj[k]).owner then injAbort k s else s) s

end Sys2Proof.Machine
end

