-- ==== Sys2Proof/Machine/Loops.lean ====
section
/-!
DEFINITION. Loop instances, the selection of an axis's output and the rate groups (R229–R247).
-/

namespace Sys2Proof.Machine

/-! ### Register writes (R241, R246, R247) -/

/-- The word a coefficient write stores: OSH is limited to −24 to +24 (R247). -/
def coefFit (c : Nat) (v : Nat) : Nat := if c = 8 then ofSigned 6 (clampI (-24) 24 (toSigned 6 v)) else v

/-- A changed target in CLOSED with RLIM = 1 starts the ramp again (R237). -/
def targetMoved (n : Fin 64) (s : State) : State :=
  let t := lpTarget s n
  if lpState s n = 4 ∧ flag s (.lp n) Lp.CTRL_RLIM ∧ t ≠ (s.lp[n]).seenTarget then
    setLpState n 3 (modLp n (fun x => { x with seenTarget := t }) s)
  else s

/-- A coefficient word (R241): bank 0 is A. -/
def coefWrite (n : Fin 64) (bank c : Nat) (w : Word) (s : State) : State :=
  let st := lpState s n
  let active := getF s (.lp n) Lp.CTRL_BANK == bank
  let ok := if active then st == 0 || st == 1 else !(st == 3 || st == 4 || st == 5)
  if ok then setF (.lp n) (if bank = 0 then Lp.COEF_A c else Lp.COEF_B c) (coefFit c w.toNat) s
  else if st == 3 || st == 4 || st == 5 then s
  else raiseF (.lp n) Lp.STATUS_CWREJ s

/-- The store of a loop's register. -/
def lpStore (n : Fin 64) (off : Nat) (w : Word) (s : State) : State :=
  if off = 0x8 then
    if lpState s n = 0 then storeFields (.lp n) off w s else raiseF (.lp n) Lp.STATUS_CWREJ s
  else if off = 0x10 then lpTake n (fieldOf w Lp.CMD) s
  else if off = 0x18 then targetMoved n (storeFields (.lp n) off w s)
  else if off = 0x1C then
    let s := storeFields (.lp n) off w s
    let t := toSigned 64 (getF s (.lp n) Lp.TARGET_LO + 2 ^ 32 * getF s (.lp n) Lp.TARGET_HI)
    targetMoved n (modLp n (fun x => { x with target := t }) s)
  else if off = 0x3C then
    if running s (.lp n) then s
    else
      let (i, _) := clampInt s n (toSigned 32 w.toNat * 2 ^ 24)
      modLp n (fun x => { x with i := i }) s
  else if 0x60 ≤ off ∧ off < 0x94 then coefWrite n 0 ((off - 0x60) / 4) w s
  else if 0xA0 ≤ off ∧ off < 0xD4 then coefWrite n 1 ((off - 0xA0) / 4) w s
  else storeFields (.lp n) off w s

def lpWrite (ag : Agent) (n : Fin 64) (off : Nat) (w : Word) (s : State) : State :=
  judgedWrite ag (.lp n) off w (lpStore n off w) s

def execLoopOpen (ag : Agent) (n : Fin 64) (w : Word) (s : State) : Outcome := .next (lpWrite ag n 0x10 w s)
def execLoopTrack (ag : Agent) (n : Fin 64) (w : Word) (s : State) : Outcome := .next (lpWrite ag n 0x10 w s)
def execLoopClose (ag : Agent) (n : Fin 64) (w : Word) (s : State) : Outcome := .next (lpWrite ag n 0x10 w s)
def execLoopOff (ag : Agent) (n : Fin 64) (w : Word) (s : State) : Outcome := .next (lpWrite ag n 0x10 w s)
def execLoopTargetCommit (ag : Agent) (n : Fin 64) (w : Word) (s : State) : Outcome := .next (lpWrite ag n 0x1C w s)
def execLoopIset (ag : Agent) (n : Fin 64) (w : Word) (s : State) : Outcome := .next (lpWrite ag n 0x3C w s)

/-- LPn_I: the integrator of the last evaluation in Q1.31, saturated; the rounding of its further bits is not stated (R247, log 51). -/
def lpI32 (s : State) (n : Fin 64) : Int := satS 32 (roundOpen 19 (((s.lp[n]).iEval : Rat) / 2 ^ 24))

/-- A read of LPn_U captures the rest of the same evaluation (R247). -/
def lpSnap (n : Fin 64) (s : State) : State :=
  let x := s.lp[n]
  let s := setI (.lp n) Lp.E x.e (setI (.lp n) Lp.I (lpI32 s n) s)
  let r := ofSigned 64 x.rEval
  setF (.lp n) Lp.R_LO r (setF (.lp n) Lp.R_HI (r / 2 ^ 32) (setF (.lp n) Lp.TU x.inst s))

/-- Loops of a group in RAMP, CLOSED or HOLDOVER (R246). -/
def rgClosed (s : State) (k : Fin 4) : Bool := (List.finRange 64).any (fun n => lpGroup s n == k && lpClosed s n)

def modRg (k : Fin 4) (f : RgSt → RgSt) (s : State) : State := { s with rg := s.rg.set k (f (s.rg[k])) }

/-- The store of a register of the loop engine control block (R246): the group's configuration stands while one of its
loops is closed. -/
def lpeStore (off : Nat) (w : Word) (s : State) : State :=
  if 0x10 ≤ off ∧ off < 0x50 ∧ (off % 16 = 0 ∨ off % 16 = 4) then
    let k := fin4 ((off - 0x10) / 16)
    if rgClosed s k then raiseF .lpe (Lpe.RG_STATUS_CFGREJ k) s
    else
      let on := off % 16 == 0 && becomes s .lpe (Lpe.RG_CFG_EN k) w 1
      let s := storeFields .lpe off w s
      if on then modRg k (fun g => { g with alarmed := false, batch := [], overrun := false, lastAt := none }) s else s
  else storeFields .lpe off w s

def lpeWrite (ag : Agent) (off : Nat) (w : Word) (s : State) : State := judgedWrite ag .lpe off w (lpeStore off w) s

/-- Time of one evaluation in the mode in force, ns (R243); none in BEACON and DORMANT. -/
def evalNs (s : State) : Nat := match mode s with | 0 => 200 | 1 => 400 | 2 => 2000 | _ => 0

/-- LPE_LOAD (R244, R246): UQ4.12, saturated; its rounding is not stated (log 51). -/
def lpeLoad (s : State) : Nat :=
  satU 16 (roundOpen 21 ((List.finRange 4).foldl (fun (a : Rat) (k : Fin 4) =>
    if flag s .lpe (Lpe.RG_CFG_EN k) then
      a + ((((List.finRange 64).filter (fun n => lpGroup s n == k && lpState s n != 0)).length * evalNs s * 4096 : Nat) : Rat)
        / (rgPeriod s k : Rat)
    else a) 0)).toNat

/-! ### Evaluation (R232–R236, R240) -/

/-- 2^k for a signed k. -/
def twoPow (k : Int) : Rat := if 0 ≤ k then (2 : Rat) ^ k.toNat else 1 / (2 : Rat) ^ (-k).toNat

/-- A value held with 24 fractional bits (R232, log 41). -/
def to24 (x : Rat) : Int :=
  let y := x * 2 ^ 24
  y.floor + (if decide ((y.floor : Rat) < y) && Config.loopUp x then 1 else 0)

/-- The reference generator of R240: r and q moved towards T, and whether the ramp completes. -/
def refGenStep (rv ra r q t : Int) : Int × Int × Bool :=
  if rv = 0 ∨ ra = 0 then (t, 0, true)
  else
    let d := t - r
    let vs : Int := ((Nat.sqrt (8 * ra.natAbs * d.natAbs + ra.natAbs * ra.natAbs) : Nat) - ra) / 2
    let qd := (if d < 0 then -1 else if d = 0 then 0 else 1) * min rv vs
    let q := q + min (max (qd - q) (-ra)) ra
    if d.natAbs ≤ q.natAbs ∧ (q.natAbs : Int) ≤ ra then (t, 0, true) else (r + q, q, false)

/-- Arithmetic shift right of a 64-bit difference, saturated to 32 bits (R232). -/
def shift32 (d : Int) (k : Nat) : Int := satS 32 (toSigned 64 (ofSigned 64 d) / 2 ^ k)

/-- The lane a locked group takes pos and vel from (R242): the lowest-numbered in RUN on the loop's axis with the named
lane's grid. -/
def matchLane (s : State) (k : Fin 4) (a : Fin 16) : Option (Fin 16) :=
  let l := fin16 (getF s .lpe (Lpe.RG_CFG_LANE k))
  (List.finRange 16).find? (fun m => getF s (.rs m) Rs.CFG_AXIS == a.val
    && getF s (.rs m) Rs.PERIOD == getF s (.rs l) Rs.PERIOD && getF s (.rs m) Rs.PHASE == getF s (.rs l) Rs.PHASE
    && getF s (.rs m) Rs.STATUS_STATE == 2)

/-- A position in 2^-32 turn advanced by `dt` ns at a velocity in 2^-16 turn/s; its rounding is not stated (log 51). -/
def advance (pos vel dt : Int) : Int := pos + roundOpen 15 (((vel * 2 ^ 16 * dt : Int) : Rat) / 1000000000)

/-- Position of an axis in FB_HOLDOVER at the present time (R177): the last good result advanced at its
velocity. -/
def extrapolated (s : State) (a : Fin 16) : Int :=
  let g := (s.ax[a]).good
  advance g.pos g.vel ((elapsedNs s : Int) - g.te)

/-- The measured value of a loop, and whether a locked group found no lane (R230, R239, R242). -/
def measure (s : State) (n : Fin 64) : Int × Bool :=
  let a := lpAxis s n
  let k := lpGroup s n
  match lpMeas s n with
  | 2 => (getI s (.ai (fin8 (getF s (.lp n) Lp.CFG_AIN))) Ai.VALUE, false)
  | 3 => (getI s (.lp n) Lp.YIN, false)
  | m =>
    let dpos := if axFb s a = 2 then extrapolated s a else (s.ax[a]).del.pos
    let dvel := if axFb s a = 2 then (s.ax[a]).good.vel else (s.ax[a]).del.vel
    let locked := flag s .lpe (Lpe.RG_CFG_LOCK k)
    match (if locked then matchLane s k a else none) with
    | some l => (if m = 0 then (s.rs[l]).posOut else (s.rs[l]).velOut, false)
    | none => (if m = 0 then toSigned 64 (ofSigned 64 dpos) else dvel, locked)

/-- Loops that take this loop's output as their reference (R230). -/
def followers (s : State) (n : Fin 64) : List (Fin 64) :=
  (List.finRange 64).filter (fun m => flag s (.lp m) Lp.CFG_REFSRC && getF s (.lp m) Lp.CFG_RLOOP == n.val
    && lpState s m != 0 && lpMeas s m != 0)

/-- integrate(n) of R234. -/
def integrates (s : State) (n : Fin 64) (push : Rat) : Bool :=
  let x := s.lp[n]
  let won :=
    if lpRole s n = 3 then
      (followers s n).all (fun m => !(lpState s m == 3 || lpState s m == 4) || (s.lp[m]).integ)
    else flag s (.lp n) Lp.STATUS_WIN
  won && !(x.clampDir == 1 && decide (0 < push)) && !(x.clampDir == -1 && decide (push < 0))

/-- The value a loop in TRACK follows (R235); a FEED loop without a follower follows a value the spec does not state
(log 48). -/
def trackW (s : State) (n : Fin 64) : Int :=
  if lpRole s n = 3 then
    match followers s n with
    | m :: _ => (s.lp[m]).r
    | [] => toSigned 32 (freeVal s)
  else getI s (.ax (lpAxis s n)) Ax.U

/-- The completion of an evaluation of a loop in OPEN, TRACK, RAMP or CLOSED, with the measured value and the bank it started with
(R232, R234–R236, R240, R241, R250). -/
def evaluate (v0 : LpEval) (s : State) : State :=
  let n := v0.loop
  let y := v0.y
  let co := fun (c : Nat) => v0.co.getD c 0
  let coR := fun (c : Nat) => (co c : Rat) / 2 ^ 24
  let st := lpState s n
  let wide := lpMeas s n == 0
  let x := s.lp[n]
  let t := lpTarget s n
  let closed := st == 3 || st == 4
  let again := st == 4 && flag s (.lp n) Lp.CTRL_RLIM && t != x.seenTarget
  let st1 := if again then 3 else st
  let (r, q, arrived) :=
    if !closed then (y, (0 : Int), false)
    else if st1 == 3 || flag s (.lp n) Lp.CTRL_RLIM then
      refGenStep (getF s (.lp n) Lp.RV) (getF s (.lp n) Lp.RA) x.r x.q t
    else (t, 0, false)
  let yc := if closed then x.yc else y
  let i0 := if closed then injAt s v0.inj n 0 wide else 0
  let i1 := if closed then injAt s v0.inj n 1 wide else 0
  let i2 := if closed || st == 1 then injAt s v0.inj n 2 false else 0
  let ri := r + i0
  let yi := y - i1
  let esh := getF s (.lp n) Lp.CFG_ESH
  let rr := if wide then shift32 (ri - yc) esh else ri
  let yy := if wide then shift32 (yi - yc) esh else yi
  let e := if wide then shift32 (ri - yi) esh else satS 32 (ri - yi)
  let p : Rat := coR 0 * (coR 4 * rr - yy)
  let ds : Rat := coR 5 * rr - yy
  let dsPrev := if x.loadHist then ds else x.dsPrev
  let rrPrev := if x.loadHist then rr else x.rrPrev
  let d : Rat := x.d + coR 3 * (coR 2 * (ds - dsPrev) - x.d)
  let f : Rat := coR 6 * (getI s (.lp n) Lp.FF : Int) + coR 7 * ((rr - rrPrev : Int) : Rat)
  let sc := twoPow (toSigned 6 (ofSigned 32 (co 8)))
  let v : Rat := (p + d + f) * sc
  let push : Rat := coR 1 * e * sc
  let integ := closed && integrates s n push
  let iRaw : Int :=
    if st = 2 then to24 ((trackW s n : Int) - v)
    else if integ then to24 ((x.i : Rat) / 2 ^ 24 + push)
    else x.i
  let s := if st = 2 ∧ lpRole s n = 3 then freeNext s else s
  let i := minMax (co 9 * 2 ^ 24) (co 10 * 2 ^ 24) iRaw
  let upre := ratRound (v + (i : Rat) / 2 ^ 24)
  let raw : Int := if st = 1 then getI s (.lp n) Lp.UMAN + i2 else ratRound (v + (i : Rat) / 2 ^ 24 + i2)
  let lim := minMax (co 11) (co 12) raw
  let clamps := st != 1 || injActive s n 2
  let u := if clamps then lim else raw
  let usat := clamps && lim != raw
  let dir : Int := if usat then (if lim < raw then 1 else -1) else 0
  let s := modLp n (fun z => { z with i := i, d := d, dsPrev := ds, rrPrev := rr, yc := yc, r := r, q := q, y := y, e := e,
                                      clampDir := dir, integ := integ, loadHist := false, seenTarget := t,
                                      upre := upre, inj := i0 + i1 + i2, inst := v0.inst % 2 ^ 32,
                                      iEval := i, rEval := r }) s
  let s := setUsat n usat (setIsat n (i != iRaw) (setI (.lp n) Lp.U u s))
  let s := setF (.lp n) Lp.STATUS_NOLANE (bitOf v0.noLane) s
  let s := raiseIf v0.noLane .lpe (Lpe.RG_STATUS_NOLANEEV v0.grp) s
  let s := occurs 9 n s
  if st1 = 3 then
    if arrived then
      let c := s.cycle
      let ev := getF s (.lp n) Lp.STATUS_CLOSEDEV
      raiseF (.lp n) Lp.STATUS_CLOSEDEV (setLpState n 4 (modLp n (fun z => { z with ramp := some (c, ev) }) s))
    else setLpState n 3 s
  else s

/-- The output a participating loop brings to the selection (R233). -/
def lpOutput (s : State) (n : Fin 64) : Option Int :=
  let st := lpState s n
  if st = 3 ∨ st = 4 ∨ st = 5 then some (getI s (.lp n) Lp.U)
  else if st = 1 ∧ lpRole s n = 0 then
    some (if injActive s n 2 then getI s (.lp n) Lp.U else getI s (.lp n) Lp.UMAN)
  else none

/-- The selection of an axis's output (R233, R234, R245). -/
def axisSelect (a : Fin 16) (inst : Nat) (s : State) : State :=
  let loops := (axLoops s a).filter (fun n => lpRole s n != 3)
  let outs := fun (role : Nat) => (loops.filter (fun n => lpRole s n == role)).filterMap (fun n => lpOutput s n)
  let mains := outs 0
  let ceils := outs 1
  let floors := outs 2
  let low := fun (a : Option Int) (b : Int) => some (match a with | none => b | some x => min x b)
  let high := fun (a : Option Int) (b : Int) => some (match a with | none => b | some x => max x b)
  let c := ceils.foldl low none
  let l := floors.foldl high none
  let mc := (mains ++ c.toList).foldl low none
  let u : Int := if axFb s a = 3 then getI s (.ax a) Ax.SAFE_CMD else ((l.toList ++ mc.toList).foldl high none).getD 0
  let conf := match l, c with | some x, some z => decide (z < x) | _, _ => false
  let s := setI (.ax a) Ax.U u (setF (.ax a) Ax.UTIME inst s)
  let s := setF (.ax a) Ax.SEL_NFLOOR floors.length (setF (.ax a) Ax.SEL_NCEIL ceils.length
    (setF (.ax a) Ax.SEL_MAIN (bitOf (!mains.isEmpty)) s))
  let wins := fun (n : Fin 64) => lpRole s n != 3 && (lpOutput s n == some u)
  let s' := forAll (axLoops s a) (fun n t => setF (.lp n) Lp.STATUS_WIN (bitOf (wins n)) t) s
  let w := (axLoops s a).find? wins
  let s' := setF (.ax a) Ax.SEL_WV (bitOf w.isSome) (setF (.ax a) Ax.SEL_WINNER (match w with | some n => n.val | none => 0) s')
  if conf then raiseAlarm 0x0A02 (axisSrc a) 0 false (raiseF (.ax a) Ax.SEL_CONF s') else s'

/-- A batch of a group has ended, or the next one starts upon it (R258): the capture unit samples where it runs on that
group. -/
def capGroup (k : Fin 4) (ovr : Bool) (s : State) : State :=
  if running s .cap && getF s .cap Cap.CLK_SRC == 0 && getF s .cap Cap.CLK_IDX == k.val then
    let t := (s.rg[k]).inst
    { s with cap := { s.cap with due := s.cap.due ++ [(t, ovr)] } }
  else s

/-- A batch is complete. -/
def rgDone (k : Fin 4) (s : State) : State := capGroup k false (raiseF .lpe (Lpe.RG_STATUS_DONEEV k) s)

/-- The loop engine works: in service, in a mode that evaluates loops (R243). -/
def lpeRuns (s : State) : Bool := live s .lpe && decide (mode s ≤ 2)

/-- A loop that an evaluation reaches: not OFF, and not held in HOLDOVER (R239, R243). -/
def lpEvaluated (s : State) (n : Fin 64) : Bool := live s (.lp n) && lpState s n != 0 && lpState s n != 5

/-- The evaluation of the loop at the head of group k's batch starts: its measured value, its bank and what is injected at its instant
are taken (R241, R242, R250). -/
def lpStart (k : Fin 4) (n : Fin 64) (s : State) : State :=
  let (y, noLane) := measure s n
  { s with lpEval := some { grp := k, loop := n, start := s.elapsed, ns := evalNs s, inst := (s.rg[k]).inst, y := y,
                            noLane := noLane, co := coefs s n, inj := injOuts s, old := false } }

/-- An idle engine takes the head of the lowest-numbered batch (R243); loops that are not evaluated any more leave their batch. -/
def lpNext : Nat → State → State
  | 0, s => s
  | fuel + 1, s =>
    if s.lpEval.isSome || !lpeRuns s then s
    else
      match (List.finRange 4).find? (fun k => !(s.rg[k]).batch.isEmpty) with
      | none => s
      | some k =>
        match (s.rg[k]).batch with
        | [] => s
        | m :: rest =>
          let s := modRg k (fun g => { g with batch := rest }) s
          if lpEvaluated s (fin64 m) then lpStart k (fin64 m) s
          else lpNext fuel (if rest.isEmpty then rgDone k s else s)

/-- Loops that may stand in the batches. -/
def lpAll : Nat := 256

/-- The result of an evaluation: the loop's output and its axis's selection (R232, R233). In SAFE the output stays AXn_SAFE_CMD. -/
def lpFinish (v : LpEval) (s : State) : State :=
  let n := v.loop
  if !lpEvaluated s n then s
  else
    let s := if lpState s n = 6 then s else evaluate v s
    if lpRole s n = 3 then s else axisSelect (lpAxis s n) (v.inst % 2 ^ 32) s

/-- LOOP_EVALUATION (R232, R233, R243): the evaluation in progress completes, and the next one starts. -/
def loopEvaluation (n : Fin 64) (s : State) : State :=
  match s.lpEval with
  | none => s
  | some v =>
    if lpeRuns s && v.loop == n && decide (v.ns ≤ sinceNs s v.start) then
      let s := lpFinish v { s with lpEval := none }
      lpNext lpAll (if !v.old && (s.rg[v.grp]).batch.isEmpty then rgDone v.grp s else s)
    else s

def execLoopEvaluation (n : Fin 64) (s : State) : Outcome := .next (loopEvaluation n s)

/-! ### Group instants (R242–R244) -/

/-- The instant a group has reached, as network time: on the periodic grid, or its lane's servo instant 100 ns after it. -/
def groupInstant (s : State) (k : Fin 4) : Option Nat :=
  let g := s.rg[k]
  if flag s .lpe (Lpe.RG_CFG_LOCK k) then
    let l := fin16 (getF s .lpe (Lpe.RG_CFG_LANE k))
    match (s.rs[l]).lastAt with
    | none => none
    | some a =>
      let u := a + 100 * 2 ^ 28
      if getF s (.rs l) Rs.STATUS_STATE = 2 ∧ u ≤ s.elapsed ∧ s.elapsed < u + s.time.inc ∧ g.lastAt ≠ some a then
        some (s.rs[l]).lastTs
      else none
  else
    let p := 320 * getF s .lpe (Lpe.RG_CFG_N k)
    gridDue s p (getF s .lpe (Lpe.RG_PHASE k) % p) g.lastAt g.inst g.stepped

/-- Elapsed time of a group's instant: that of its lane's servo instant, or of its own. -/
def groupEl (s : State) (k : Fin 4) (t : Nat) : Nat :=
  if flag s .lpe (Lpe.RG_CFG_LOCK k) then ((s.rs[fin16 (getF s .lpe (Lpe.RG_CFG_LANE k))]).lastAt).getD 0 else instEl s t

/-- A loop of an overrun batch is skipped (R244, R255). -/
def lpSkip (n : Fin 64) (s : State) : State :=
  injSkip n (raiseF (.lp n) Lp.STATUS_SKIPEV (incF (.lp n) Lp.SKIP s))

/-- The overrun of a batch (R244): its loops not yet started are skipped; an evaluation in progress completes. A locked group's batch
is judged at the servo instant, 100 ns before the next batch starts. -/
def rgOverrun (k : Fin 4) (s : State) : State :=
  let left := (s.rg[k]).batch
  let busy := match s.lpEval with | some v => v.grp == k && !v.old | none => false
  let s := { s with lpEval := s.lpEval.map (fun v => if v.grp = k then { v with old := true } else v) }
  if left.isEmpty && !busy then s
  else
    let s := modRg k (fun g => { g with batch := [], overrun := true }) (forAll left (fun m => lpSkip (fin64 m)) s)
    let s := raiseF .lpe (Lpe.RG_STATUS_OVREV k) (incF .lpe (Lpe.RG_STATUS_OVRCNT k) s)
    if (s.rg[k]).alarmed then s
    else modRg k (fun g => { g with alarmed := true }) (raiseAlarm 0x0A01 (blkBase .lpe) 1 false s)

/-- The injection values of group k's instant `t`, at elapsed time `u`: of the generators whose START has not come after it (R252,
R256). -/
def rgInject (k : Fin 4) (t u : Nat) (s : State) : State :=
  forAll (List.finRange 4) (fun i s =>
    if lpGroup s (fin64 (getF s (.inj i) Inj.CFG_LOOP)) = k ∧ (s.inj[i]).startAt < u + s.time.inc then injInstant t i s else s) s

/-- An evaluation of a higher-numbered group that has started in this fabric cycle gives way to group k, whose batch is due in the same
cycle (R243). -/
def lpYield (k : Fin 4) (s : State) : State :=
  match s.lpEval with
  | some v =>
    if v.start = s.elapsed ∧ k < v.grp ∧ v.old = false then
      modRg v.grp (fun g => { g with batch := v.loop.val :: g.batch }) { s with lpEval := none }
    else s
  | none => s

/-- RATE_GROUP_INSTANT (R242–R244, R252): overrun, the injection values of the instant, and the new batch. -/
def rateGroupInstant (k : Fin 4) (s : State) : State :=
  if !(lpeRuns s && flag s .lpe (Lpe.RG_CFG_EN k)) then s
  else
    match groupInstant s k with
    | none => s
    | some t =>
      let u := groupEl s k t
      let s := rgOverrun k s
      let s := rgInject k t u (if (s.rg[k]).overrun then capGroup k true s else s)
      let b := ((List.finRange 64).filter (fun n => lpGroup s n == k && lpEvaluated s n)).map Fin.val
      let s := modRg k (fun g => { g with batch := b, inst := t, overrun := false, lastAt := some u, stepped := false }) s
      let s := occurs 10 k (setF .lpe (Lpe.RG_T k) (t % 2 ^ 32) s)
      lpNext lpAll (if b.isEmpty then rgDone k s else lpYield k s)

def execRateGroupInstant (k : Fin 4) (s : State) : Outcome := .next (rateGroupInstant k s)

end Sys2Proof.Machine
end

