-- ==== Sys2Proof/Machine/Acquisition.lean ====
section
/-!
DEFINITION. Modulators, CIC lanes, the filter engine, its hand-offs and the auxiliary detectors (R96–R119, R124, R125).
-/

namespace Sys2Proof.Machine

def modRc (n : Fin 16) (f : RcSt → RcSt) (s : State) : State := { s with rc := s.rc.set n (f (s.rc[n])) }
def modAi (n : Fin 8) (f : AiSt → AiSt) (s : State) : State := { s with ai := s.ai.set n (f (s.ai[n])) }
def modLane (n : Fin 40) (f : LaneSt → LaneSt) (s : State) : State := { s with lanes := s.lanes.set n (f (s.lanes[n])) }

/-! ### Schedules (R39, R101, R104–R106, R121) -/

/-- Schedule in use (R123). -/
def sched (s : State) : Nat := getF s .fe Fe.STATUS_SCHED
/-- m of R39 in the schedule in use. -/
def feM (s : State) : Nat := match sched s with | 1 => 1 | 2 => 2 | 3 => 2 | _ => 0
/-- Frame of the schedule, ns. -/
def feFrame (s : State) : Nat := 320 * 2 ^ feM s
/-- CIC group delay of a ratio, ns (R101). -/
def cicDelay (m : Nat) : Nat := 30 * (m - 1)

/-- A channel is in the served set (R121). -/
def served (s : State) (n : Fin 16) : Bool :=
  match sched s with
  | 0 => true
  | 1 => true
  | 2 => bitAt (s.fe).served n == 1
  | 3 => decide (n.val < 4)
  | _ => false

/-- ns from the schedule's start to the auxiliary slot of input k (R104, R105). -/
def aiSlot (s : State) (k : Fin 8) : Nat :=
  match sched s with
  | 0 => 240
  | 1 => if k.val % 2 = 1 then 240 else 330
  | _ => match k.val % 4 with | 2 => 60 | 3 => 330 | 0 => 650 | _ => 970

def laneS (n : Fin 16) : Fin 40 := ⟨2 * n.val, by omega⟩
def laneC (n : Fin 16) : Fin 40 := ⟨2 * n.val + 1, by omega⟩
def laneA (k : Fin 8) : Fin 40 := ⟨32 + k.val, by omega⟩

/-- Channel, or auxiliary input, of a lane (R96). -/
def laneRc (l : Fin 40) : Option (Fin 16) := if l.val < 32 then some (fin16 (l.val / 2)) else none
def laneAi (l : Fin 40) : Fin 8 := fin8 (l.val - 32)

/-- The lane's modulator runs: a served channel, or an enabled input. -/
def laneRuns (s : State) (l : Fin 40) : Bool :=
  clocked s .acquisition && decide (sched s < 4) &&
  (match laneRc l with
    | some n => served s n && live s (.rc n)
    | none => flag s (.ai (laneAi l)) Ai.CTRL_EN && live s (.ai (laneAi l)))

/-! ### The grid of the lanes and the modulator clock (R39, R40, R67, R109) -/

/-- Network time as the lanes count it, in 2^-28 ns. -/
def gridUnits (s : State) : Nat := timeUnits s + s.fe.gridOff

/-- Units of 2^-28 ns since the grid of period `p` ns, `off` ns after its instants, last had an instant. -/
def gridSince (s : State) (p off : Nat) : Nat := (gridUnits s + 7680 * 2 ^ 28 - off * 2 ^ 28) % (p * 2 ^ 28)

/-- The state as its time and its generators' phases stood `u` units of 2^-28 ns earlier. -/
def rewind (u : Nat) (s : State) : State :=
  let t := timeUnits s - u
  { s with elapsed := s.elapsed - u, time := { s.time with now := t / 2 ^ 28, frac := t % 2 ^ 28 } }

/-- The record of the boundary that lies `u` units back. -/
def recordAt (u : Nat) (s : State) : FrameRec :=
  let x := rewind u s
  { t := x.time.now, el := x.elapsed, ix := gridUnits x / (320 * 2 ^ 28) % 8, ph := Vector.ofFn (carrierPhase x) }

/-- The boundary at an elapsed time, as recorded, or as it follows from the present state where none is. -/
def frameAt (s : State) (el : Nat) : FrameRec :=
  match s.fe.frames.find? (fun r => r.el == el) with
  | some r => r
  | none => recordAt (s.elapsed - el) s

/-- A tick that comes to a boundary of the 320 ns grid records it. -/
def frameTick (s : State) : State :=
  let since := gridSince s 320 0
  if firstTick s since then
    let r := recordAt since s
    { s with fe := { s.fe with frames := (r :: s.fe.frames).take 24 } }
  else s

/-- Core cycles of the next modulator period, whose first edge lies `x` half units of 2^-28 ns after the last multiple of 20 ns:
8, but 7 or 9 where the edge after it would lie more than 1.25 ns from a multiple and the last adjusted period is 32 clocks
back (R39). -/
def mcPeriod (inc since x : Nat) : Nat :=
  let p := 20 * 2 ^ 29
  let y := (x + 8 * inc) % p
  if since < 31 then 8
  else if 2 * y ≤ p then (if 5 * 2 ^ 27 < y then 7 else 8)
  else if 5 * 2 ^ 27 < p - y then 9 else 8

/-- Two core cycles of the divider of the modulator clock. -/
def mcTick (s : State) : State :=
  let f := s.fe
  if 2 < f.mcLeft then { s with fe := { f with mcLeft := f.mcLeft - 2 } }
  else
    let past := 2 - f.mcLeft
    let x := (2 * (gridUnits s + 20 * 2 ^ 28) - s.time.inc * past) % (20 * 2 ^ 29)
    let n := mcPeriod s.time.inc f.mcSince x
    { s with fe := { f with mcLeft := n - past, mcSince := if n = 8 then min 32 (f.mcSince + 1) else 0 } }

/-- The modulator clock aligned to network time at a synchronising reset (R67): the next edge at the nearest core cycle to the
next multiple of 20 ns. -/
def mcAlign (s : State) : State :=
  let u := timeUnits s % (20 * 2 ^ 28)
  let k := (2 * (20 * 2 ^ 28 - u) + 5 * 2 ^ 27) / (5 * 2 ^ 28)
  { s with fe := { s.fe with mcLeft := max 1 k, mcSince := 32 } }

/-! ### Conditions of the modulators (R100) -/

/-- The lane's channel takes part in the sentinel burst that runs (R94, R122). -/
def burstLane (s : State) (l : Fin 40) : Bool :=
  bursting s && (match laneRc l with
    | some n => s.pwr.sent.toList.any (fun c => c.used && c.ch == n.val) && !isolated s (.rc n)
    | none => false)

/-- ns from the enable of the sentinel burst on a channel to the present clock, as the burst's phase tells it (R94, R122). -/
def burstNs (s : State) (l : Fin 40) : Nat :=
  match (laneRc l).bind (refGen s) with
  | some g => (s.exg[g]).burstPh * 320 / (128 * getF s (.exg g) Exg.FREQ)
  | none => 0

/-- Samples that an overload of this clock marks: a clock at most two clocks after a decimation tick is in two samples, any
other in three; at the tick itself it is in the sample of the tick too, unless that has been combed. -/
def ovlSamples (s : State) (l : Fin 40) : Nat :=
  let since := match laneRc l with
    | some _ => gridSince s (feFrame s) (cicDelay (16 * 2 ^ feM s))
    | none => gridSince s 2560 (3810 + 320 * (laneAi l).val)
  let combed := match laneRc l with
    | some _ => s.fe.lastEl == some (s.elapsed - since - cicDelay (16 * 2 ^ feM s) * 2 ^ 28)
    | none => true
  if since < 10 * 2 ^ 28 ∧ combed = false then 3 else if since < 50 * 2 ^ 28 then 2 else 3

/-- An overload at the tick of an auxiliary sample that waits for its slot marks that sample. -/
def ovlTick (k : Fin 8) (s : State) : State :=
  if gridSince s 2560 (3810 + 320 * k.val) < 10 * 2 ^ 28 then
    modAi k (fun x => { x with tick := x.tick.map (fun m => { m with ovl := true }) }) s
  else s

/-- MODULATOR_OVERLOAD: OVL, and every sample whose impulse response holds the clock carries it. -/
def modOverload (l : Fin 40) (s : State) : State :=
  if !(laneRuns s l || burstLane s l) then s
  else
    let k := ovlSamples s l
    let t := burstNs s l
    let s := if burstLane s l then modLane l (fun x => { x with burstOvl := t :: x.burstOvl }) s
      else modLane l (fun x => { x with ovl := max x.ovl k }) s
    match laneRc l with
    | some n => raiseF (.rc n) (if l.val % 2 = 0 then Rc.MODSTAT_OVL_S else Rc.MODSTAT_OVL_C) s
    | none => raiseF (.ai (laneAi l)) Ai.STATUS_OVL (ovlTick (laneAi l) s)

def execModulatorOverload (l : Fin 40) (s : State) : Outcome := .next (modOverload l s)

/-- MODULATOR_STUCK: the flag, and the condition the STUCK monitor sees for 64 clocks (R167). -/
def modStuck (l : Fin 40) (s : State) : State :=
  if !(laneRuns s l || burstLane s l) then s
  else
    let now := s.elapsed
    match laneRc l with
    | some n => raiseF (.rc n) (if l.val % 2 = 0 then Rc.MODSTAT_STUCK_S else Rc.MODSTAT_STUCK_C)
        (modRc n (fun x => { x with stuckAt := some now }) s)
    | none => raiseF (.ai (laneAi l)) Ai.STATUS_STUCK s

def execModulatorStuck (l : Fin 40) (s : State) : Outcome := .next (modStuck l s)

/-- MODULATOR_CLOCK_FAULT: CLKF, INVALID for the samples of the frame, and BLK_ERR.CELL (R100, R425). -/
def modClock (l : Fin 40) (s : State) : State :=
  if !(laneRuns s l || burstLane s l) then s
  else
    let now := s.elapsed
    let t := burstNs s l
    let s := if burstLane s l then modLane l (fun x => { x with burstClk := t :: x.burstClk }) s
      else modLane l (fun x => { x with clkf := true }) s
    match laneRc l with
    | some n => blkMet (.rc n) .cell (raiseF (.rc n) (if l.val % 2 = 0 then Rc.MODSTAT_CLKF_S else Rc.MODSTAT_CLKF_C)
        (modRc n (fun x => { x with clkfAt := some now }) s))
    | none => blkMet (.ai (laneAi l)) .cell (raiseF (.ai (laneAi l)) Ai.STATUS_CLKF s)

def execModulatorClockFault (l : Fin 40) (s : State) : Outcome := .next (modClock l s)

/-! ### CIC lanes (R101–R103) -/

/-- One modulator clock of a lane. -/
def cicBit (l : LaneSt) (b : Bool) : LaneSt :=
  let i1 := (l.i1 + (if b then 1 else 2 ^ 24 - 1)) % 2 ^ 24
  let i2 := (l.i2 + i1) % 2 ^ 24
  { l with i1 := i1, i2 := i2, i3 := (l.i3 + i2) % 2 ^ 24 }

/-- The combs, on the copy of the third integrator that the decimation tick holds (R99, R102). -/
def cicComb (held : Nat) (l : LaneSt) : Int × LaneSt :=
  let l := if l.clear then { l with c1 := 0, c2 := 0, c3 := 0, clear := false } else l
  let y1 := (held + 2 ^ 24 - l.c1) % 2 ^ 24
  let y2 := (y1 + 2 ^ 24 - l.c2) % 2 ^ 24
  let y3 := (y2 + 2 ^ 24 - l.c3) % 2 ^ 24
  (toSigned 24 y3, { l with c1 := held, c2 := y1, c3 := y2 })

/-- A decimation tick uses up the flags of one sample. -/
def laneUsed (l : LaneSt) : LaneSt := { l with ovl := l.ovl - 1, inv := l.inv - 1, clkf := false }

/-- Gain of a modulator: its factory trim within 1 ± 2^-8 (R103). -/
def modGain (l : Fin 40) : Rat := 1 + ((clampI (-65536) 65536 (Config.gainTrim l) : Int) : Rat) / 2 ^ 24

/-- The Q2.22 value of a comb output at ratio M (R103, log 51). -/
def cicScale (l : Fin 40) (m : Nat) (y : Int) : Int :=
  satS 24 (roundOpen 1 ((y : Rat) * modGain l * 10 * 2 ^ 22 / (8 * (m : Rat) ^ 3)))

/-- The bits that run through a lane up to a tick: exactly `m` (R101), the missing ones free. The first sample of a lane that
has started inside a frame, and a frame with a clock fault, take what the command gives (log 130). -/
def laneBits (whole : Bool) (m : Nat) (bs : List Bool) (s : State) : List Bool × State :=
  if !whole then (bs, s)
  else
    let k := m - bs.length
    (bs.take m ++ (List.range k).map (fun i => Config.freeValue (s.free + i) % 2 == 1), { s with free := s.free + k })

/-- A tick now falls between a step and its synchronising reset (R117). -/
def stepWaits (s : State) : Bool := s.fe.stepped && flag s .fe Fe.STATUS_SRPEND

/-- The bits of a lane among the streams of a command. -/
def laneStream (streams : List ModStream) (l : Fin 40) : List Bool :=
  (streams.filter (fun x => x.lane == l)).flatMap ModStream.bits

/-- The sample of a lane at its tick: the bits since the last tick run through the integrators, then the combs. -/
def laneSample (l : Fin 40) (m : Nat) (bs : List Bool) (s : State) : Samp × State :=
  let x := s.lanes[l]
  let (bs, s) := laneBits (!(x.clkf || x.inv == 4)) m bs s
  let inv := decide (0 < x.inv) || x.clkf || stepWaits s
  let x := bs.foldl cicBit x
  let (y, x') := cicComb x.i3 x
  ({ v := cicScale l m y, inv := inv, ovl := decide (0 < x.ovl) }, modLane l (fun _ => laneUsed x') s)

/-! ### Spike filter (R107, R108) -/

def median3 (a b c : Int) : Int := max (min a b) (min (max a b) c)

/-- Output of the window (newest first): the sample, and by how much the median differs from the middle one. The OVL of a
median is its middle sample's (log 54). -/
def spikeOut (win : List Samp) : Samp × Option Nat :=
  match win with
  | [a, b, c] =>
    if a.inv || b.inv || c.inv then (match win.find? (fun x => !x.inv) with | some x => (x, none) | none => ({}, none))
    else
      let m := median3 a.v b.v c.v
      ({ v := m, inv := false, ovl := b.ovl }, some (m - b.v).natAbs)
  | _ => match win.find? (fun x => !x.inv) with | some x => (x, none) | none => ({}, none)

/-! ### Carrier reference (R109) -/

/-- r and r_q at a phase in cycles, Q1.17; +1, which Q1.17 does not hold, is taken as 1 - 2^-17: the model's choice (log 160). -/
def refAt (x : Rat) : Int × Int :=
  let i := (x * 2 ^ 40).floor.toNat % 2 ^ 40
  (satS 18 (roundOpen 2 ((sinTurn60 i (2 ^ 40) : Rat) / 2 ^ 43)),
   satS 18 (roundOpen 2 ((sinTurn60 (i + 2 ^ 38) (2 ^ 40) : Rat) / 2 ^ 43)))

/-- r and r_q of a channel at a recorded boundary; 0 with NOREF without a reference generator. -/
def refPair (n : Fin 16) (f : FrameRec) (s : State) : Int × Int × Bool :=
  match refGen s n with
  | none => (0, 0, true)
  | some g =>
    let (r, rq) := refAt (f.ph[g] + ((s.rc[n]).theta : Rat) / 2 ^ 32)
    (r, rq, false)

/-- A value shown sign-extended to 32 bits (R97). -/
def showQ (v : Int) : Nat := ofSigned 32 v

/-- p_s or p_c: the product with r, convergently rounded (R110). -/
def demod (v r : Int) : Int := roundEven (v * r) (2 ^ 17)

/-- SWAP, INVS, INVC and the spike filters of a channel's two samples, with their counts (R96, R107, R108): SIN and COS as they
are handed off, and whether a spike was counted. -/
def channelFilter (n : Fin 16) (clr : Bool) (a b : Samp) (s : State) : Samp × Samp × Bool × State :=
  let s := if a.ovl || b.ovl then incF (.rc n) Rc.ACQCNT_OVLCNT s else s
  let swap := flag s (.rc n) Rc.ACQ_SWAP
  let neg := fun (c : Bool) (x : Samp) => if c then { x with v := -x.v } else x
  let sn := neg (flag s (.rc n) Rc.ACQ_INVS) (if swap then b else a)
  let cs := neg (flag s (.rc n) Rc.ACQ_INVC) (if swap then a else b)
  let x := s.rc[n]
  let ws := (sn :: (if clr then [] else x.winS)).take 3
  let wc := (cs :: (if clr then [] else x.winC)).take 3
  let s := modRc n (fun x => { x with winS := ws, winC := wc }) s
  if flag s (.rc n) Rc.ACQ_SPIKE then
    let (fs, ds) := spikeOut ws
    let (fc, dc) := spikeOut wc
    let thr := getF s (.rc n) Rc.ACQ_SPKTHR * 64
    let big := fun (d : Option Nat) => match d with | some d => decide (thr < d) | none => false
    let spike := big ds || big dc
    (fs, fc, spike, if spike then raiseF (.rc n) Rc.MODSTAT_SPKEV (incF (.rc n) Rc.ACQCNT_SPKCNT s) else s)
  else (sn, cs, false, s)

/-- A channel's six cycles of the schedule for the sample instant recorded in `f` (R96, R104–R110, R118). Before the first valid
hand-off HOLD repeats zeros, as RCn_RAWS and RCn_RAWC read at reset (log 131); NOREF is shown as of the hand-off (log 133). -/
def channelSlot (f : FrameRec) (streams : List ModStream) (n : Fin 16) (s : State) : State :=
  if !(served s n && live s (.rc n)) then s
  else
    let m := 16 * 2 ^ feM s
    let clr := (s.lanes[laneS n]).clear
    let (a, s) := laneSample (laneS n) m (laneStream streams (laneS n)) s
    let (b, s) := laneSample (laneC n) m (laneStream streams (laneC n)) s
    let (fs, fc, spike, s) := channelFilter n clr a b s
    let inv := fs.inv || fc.inv
    let s := raiseIf inv (.rc n) Rc.MODSTAT_INVEV s
    let f := if flag s (.rc n) Rc.ACQ_SPIKE then frameAt s (f.el - feFrame s * 2 ^ 28) else f
    let (r, rq, noref) := refPair n f s
    let s := setF (.rc n) Rc.MODSTAT_NOREF (bitOf noref) s
    let h : HandOff := { t := f.t, te := (f.el / 2 ^ 28 : Nat), disc := flag s .time Time.STATUS_DISC, m := feM s,
                         inv := inv, ovlS := fs.ovl, ovlC := fc.ovl, spike := spike, noref := noref, r := r, rq := rq }
    let lh := (s.rc[n]).lastH
    let h :=
      if !inv then { h with s := fs.v, c := fc.v, ps := demod fs.v r, pc := demod fc.v r }
      else if flag s .fe Fe.CTRL then h
      else { h with s := lh.s, c := lh.c, ps := lh.ps, pc := lh.pc, r := lh.r, rq := lh.rq }
    let s := setF (.rc n) Rc.RAWC (showQ h.c) (setF (.rc n) Rc.RAWS (showQ h.s) s)
    let st := getF s (.rc n) Rc.TRK_STATUS_STATE
    let runs := st == 1 || st == 2
    modRc n (fun x => { x with lastH := if inv then x.lastH else h, hands := if runs then x.hands ++ [h] else [] }) s

/-! ### Auxiliary inputs (R111–R115) -/

/-- The window test of an updated quantity (R115): code of AI_CTRL.TSEL, value and sample instant. -/
def aiTest (k : Fin 8) (sel : Nat) (v : Int) (t : Nat) (s : State) : State :=
  if getF s (.ai k) Ai.CTRL_TSEL ≠ sel then s
  else
    let hi := decide (getI s (.ai k) Ai.THR_HI < v)
    let lo := decide (v < getI s (.ai k) Ai.THR_LO)
    let armed := (s.ai[k]).armed
    let s := raiseIf lo (.ai k) Ai.STATUS_LO (raiseIf hi (.ai k) Ai.STATUS_HI s)
    let s := modAi k (fun x => { x with armed := !(hi || lo) }) s
    if (hi || lo) && armed && flag s (.ai k) Ai.CTRL_EVT then
      let e : QEntry := { w0 := word0 0x21 (seqOf s clsAi k) (timeEpoch s)
                            (k.val * 2 ^ 11 + sel * 2 ^ 8 + 2 * bitOf lo + bitOf hi),
                          w1 := wordOf t, w2 := wordOf (ofSigned 32 v),
                          w3 := wordOf (if hi then getF s (.ai k) Ai.THR_HI else getF s (.ai k) Ai.THR_LO) }
      postRecord (fin16 (getF s (.ai k) Ai.CTRL_EVQ)) srcAi [e] (seqNext clsAi k s)
    else s

/-- The window of 2^RMSW valid samples is full (R113). -/
def rmsDue (s : State) (k : Fin 8) : Bool := decide (2 ^ getF s (.ai k) Ai.DET_RMSW ≤ (s.ai[k]).cnt)

/-- End of an RMS window (R113): AI_RMS, AI_MEAN and AI_RTSTAMP. -/
def rmsEnd (k : Fin 8) (s : State) : State :=
  let x := s.ai[k]
  let w : Nat := 2 ^ getF s (.ai k) Ai.DET_RMSW
  let r := Nat.sqrt (x.sxx.toNat / w)
  let exact := r * r * w == x.sxx.toNat
  let rms := satU 24 (r + bitOf (!exact && Config.roundsUp 3 ((x.sxx : Rat) / (w : Rat))))
  let mean := roundOpen 4 ((x.sx : Rat) / (w : Rat))
  let s := setF (.ai k) Ai.RMS rms s
  let s := modAi k (fun y => { y with mean := mean, meanT := x.rmsT, sx := 0, sxx := 0, cnt := 0 }) s
  aiTest k 3 mean (x.rmsT % 2 ^ 32) (aiTest k 2 rms (x.rmsT % 2 ^ 32) s)

/-- AI_RMS_WINDOW_END. -/
def execAiRmsWindowEnd (k : Fin 8) (s : State) : Outcome :=
  .next (if live s (.ai k) && flag s (.ai k) Ai.CTRL_EN && rmsDue s k then rmsEnd k s else s)

/-- The detectors of one valid sample (R112–R115). -/
def aiDetect (k : Fin 8) (v : Int) (t : Nat) (s : State) : State :=
  let tw := t % 2 ^ 32
  let s := modAi k (fun x => { x with valT := t }) (setF (.ai k) Ai.VALUE (showQ v) s)
  let s := aiTest k 0 v tw s
  let m := v.natAbs
  let pk := getF s (.ai k) Ai.PEAK
  let dec := getF s (.ai k) Ai.DET_DECAY
  let hold := (s.ai[k]).hold
  let (pk, hold) :=
    if pk ≤ m then (m, getF s (.ai k) Ai.DET_HOLD * 256)
    else if 0 < hold then (pk, hold - 1)
    else if dec = 0 then (m, 0)
    else (pk - pk / 2 ^ dec, 0)
  let s := aiTest k 1 pk tw (setF (.ai k) Ai.PEAK pk (modAi k (fun x => { x with hold := hold }) s))
  let s := if rmsDue s k then rmsEnd k s else s
  let s := modAi k (fun x => { x with sx := x.sx + v, sxx := x.sxx + v * v, cnt := x.cnt + 1, rmsT := t }) s
  let e : Int := getF s (.ai k) Ai.ENV
  let pm := roundOpen 5 (pi60 / 2 * (m : Rat))
  let e := clampI 0 (2 ^ 24 - 1) (e + (pm - e) / 2 ^ getF s (.ai k) Ai.DET_ENVSH)
  aiTest k 4 e tw (setF (.ai k) Ai.ENV e.toNat s)

/-- The input is in service: enabled, its block live, and a schedule other than a burst's in use. -/
def auxOn (s : State) (k : Fin 8) : Bool := live s (.ai k) && flag s (.ai k) Ai.CTRL_EN && decide (sched s < 4)

/-- The decimation tick of an input comes with the last tick of the time unit, 3,810 ns after its sample instant (R111): the
sample takes its flags (R100, R117) and waits for its slot. -/
def auxTick (k : Fin 8) (s : State) : State :=
  let d := 3810 * 2 ^ 28
  match s.fe.frames.find? (fun r => r.ix == k.val && decide (r.el + d ≤ s.elapsed) && firstTick s (s.elapsed - (r.el + d))) with
  | none => s
  | some r =>
    if auxOn s k then
      let l := s.lanes[laneA k]
      let m : AuxTick := { t := r.t, t0 := (frameAt s (r.el - 2560 * 2 ^ 28)).t, inv := decide (0 < l.inv) || l.clkf || stepWaits s,
                           ovl := decide (0 < l.ovl), first := l.clkf || l.inv == 4 }
      modLane (laneA k) laneUsed (modAi k (fun x => { x with tick := some m }) s)
    else s

/-- The bits of the sample that waits run through its lane: the third integrator is held. -/
def auxRun (k : Fin 8) (s : State) : State :=
  match (s.ai[k]).tick with
  | some m =>
    if m.held.isSome then s
    else
      let (bs, s) := laneBits (!m.first) 128 (s.ai[k]).bits s
      let l := bs.foldl cicBit (s.lanes[laneA k])
      modLane (laneA k) (fun _ => l) (modAi k (fun x => { x with tick := some { m with held := some l.i3 }, bits := [] }) s)
  | none => s

/-- An auxiliary input's slot (R107, R108, R111, R119). A slot of a schedule that ran at a synchronising reset clears nothing
(R116). INVEV and VALID follow the sample handed off, which with SPIKE = 1 is the filter's output: the model's choice
(log 163). -/
def auxSlot (old : Bool) (k : Fin 8) (s : State) : State :=
  let s := auxRun k s
  match (s.ai[k]).tick with
  | none => s
  | some m =>
    let l := s.lanes[laneA k]
    let clr := l.clear && !old
    let (y, l') := cicComb (m.held.getD 0) { l with clear := clr }
    let s := modLane (laneA k) (fun _ => { l' with clear := l.clear && old }) s
    let a : Samp := { v := cicScale (laneA k) 128 y, inv := m.inv, ovl := m.ovl }
    let a := if flag s (.ai k) Ai.CTRL_INV then { a with v := -a.v } else a
    let w := (a :: (if clr then [] else (s.ai[k]).win)).take 3
    let s := modAi k (fun x => { x with win := w, tick := none }) s
    let filt := flag s (.ai k) Ai.CTRL_SPIKE
    let (f, d) := if filt then spikeOut w else (a, none)
    let spike := match d with | some d => decide (2 ^ 14 < d) | none => false
    let s := raiseIf spike (.ai k) Ai.STATUS_SPKEV s
    let s := setF (.ai k) Ai.STATUS_VALID (bitOf (!f.inv)) (raiseIf f.inv (.ai k) Ai.STATUS_INVEV s)
    if f.inv then s else aiDetect k f.v (if filt then m.t0 else m.t) s

/-- The auxiliary slots whose time has come. -/
def auxSlots (s : State) : State :=
  let due := s.fe.auxDue.filter (fun d => decide (d.start ≤ s.elapsed))
  let s := { s with fe := { s.fe with auxDue := s.fe.auxDue.filter (fun d => !decide (d.start ≤ s.elapsed)) } }
  if live s .fe then forAll due (fun d s => whenOk (auxOn s d.input) (auxSlot d.old d.input) s) s else s

/-- What a fabric cycle does in the acquisition chain: boundaries recorded, the modulator clock, the ticks and the slots of the
auxiliary inputs. -/
def feTick (s : State) : State :=
  if clocked s .acquisition then auxSlots (forAll (List.finRange 8) auxTick (mcTick (frameTick s))) else s

/-! ### FE_SCHEDULE (R104–R110) -/

/-- The sample instant of the present schedule: the newest whose decimation tick has come (R99, R101). -/
def feInstant (s : State) : Option FrameRec :=
  s.fe.frames.find? (fun r =>
    r.ix % 2 ^ feM s == 0 && decide (r.el + cicDelay (16 * 2 ^ feM s) * 2 ^ 28 ≤ s.elapsed)
      && (s.fe.from_ == 0 || decide (s.fe.from_ < r.el + cicDelay (16 * 2 ^ feM s) * 2 ^ 28)))

/-- The auxiliary slots of the schedule that starts for a sample instant, and the bits they comb (R104, R105). -/
def auxLoad (f : FrameRec) (streams : List ModStream) (s : State) : State :=
  let start := f.el + cicDelay (16 * 2 ^ feM s) * 2 ^ 28
  let due : List AuxDue := (List.finRange 8).map (fun k => { start := start + aiSlot s k * 2 ^ 28, input := k })
  let s := { s with fe := { s.fe with auxDue := s.fe.auxDue ++ due } }
  { s with ai := Vector.ofFn (fun k : Fin 8 =>
      let bs := laneStream streams (laneA k)
      if bs = [] then s.ai[k] else { s.ai[k] with bits := bs }) }

/-- One schedule of the filter engine, once for each sample instant: the channels at once, the auxiliary inputs in their
slots. -/
def feSchedule (streams : List ModStream) (s : State) : State :=
  if !(live s .fe && decide (sched s < 4)) then s
  else
    match feInstant s with
    | none => s
    | some f =>
      if s.fe.lastEl = some f.el then s
      else
        let s := auxLoad f streams { s with fe := { s.fe with lastEl := some f.el } }
        auxSlots (forAll (List.finRange 16) (channelSlot f streams) s)

def execFeSchedule (streams : List ModStream) (s : State) : Outcome := .next (feSchedule streams s)

/-! ### Writes -/

/-- An input is enabled (R113, R117, R125): its lane starts under the INVALID rule; the window test starts armed (log 132). -/
def aiStart (k : Fin 8) (s : State) : State :=
  let s := modLane (laneA k) (fun _ => { inv := 4, clear := true }) s
  modAi k (fun x => { x with win := [], tick := none, bits := [], sx := 0, sxx := 0, cnt := 0, armed := true }) s

/-- The RMS window in progress is abandoned (R113, R119). -/
def rmsAbandon (k : Fin 8) (s : State) : State :=
  raiseF (.ai k) Ai.STATUS_RMSRST (modAi k (fun x => { x with sx := 0, sxx := 0, cnt := 0 }) s)

/-- The store of an input's register. A write of RMSW that changes nothing abandons the window as any other does. An input that is
disabled keeps the window it was in, which a later reset or write of AI_DET abandons: the model's choice (log 161). -/
def aiStore (k : Fin 8) (off : Nat) (w : Word) (s : State) : State :=
  let on := becomes s (.ai k) Ai.CTRL_EN w 1
  let s := storeFields (.ai k) off w s
  if off = 0x8 ∧ on then aiStart k s
  else if off = 0xC ∧ 0 < (s.ai[k]).cnt then rmsAbandon k s
  else s

def aiWrite (ag : Agent) (k : Fin 8) (off : Nat) (w : Word) (s : State) : State :=
  judgedWrite ag (.ai k) off w (aiStore k off w) s

def execAiEnable (ag : Agent) (k : Fin 8) (w : Word) (s : State) : Outcome := .next (aiWrite ag k 0x8 w s)
def execAiRmswWrite (ag : Agent) (k : Fin 8) (w : Word) (s : State) : Outcome := .next (aiWrite ag k 0xC w s)

/-- Reads of AI_VALUE and AI_RMS capture the rest of the same sample and window (R125). -/
def aiValueSnap (k : Fin 8) (s : State) : State := setF (.ai k) Ai.TSTAMP (s.ai[k]).valT s
def aiRmsSnap (k : Fin 8) (s : State) : State :=
  setF (.ai k) Ai.RTSTAMP (s.ai[k]).meanT (setF (.ai k) Ai.MEAN (showQ (s.ai[k]).mean) s)

end Sys2Proof.Machine
end

