-- ==== Sys2Proof/Machine/LensBlock.lean ====
section
/-!
DEFINITION. Lens: the correction of a published position, the revolutions it learns from, the check of a candidate and the
commit (R150–R162, R166).
-/

namespace Sys2Proof.Machine

def modLens (n : Fin 16) (f : LensSt → LensSt) (s : State) : State := { s with lens := s.lens.set n (f (s.lens[n])) }

/-- The state in force (R156). -/
def lensState (s : State) (n : Fin 16) : Nat := (s.lens[n]).state
def lensPP (s : State) (n : Fin 16) : Nat := max 1 (getF s (.lens n) Lens.CTRL_PP)
/-- Lens learns: LEARN or LEARN_APPLY. -/
def lensLearns (s : State) (n : Fin 16) : Bool := lensState s n == 1 || lensState s n == 3
/-- The applied bank is used: APPLY or LEARN_APPLY. -/
def lensApplies (s : State) (n : Fin 16) : Bool := lensState s n == 2 || lensState s n == 3

/-- Pole pairs an axis takes for its fallback source (R181, R223). -/
def axFbPP (s : State) (a : Fin 16) : Nat :=
  let f := getF s (.ax a) Ax.FB_SRC_FBPP
  if f = 0 then getF s (.ax a) Ax.SRC_PP else f

/-- PPMIS: an axis bound to the channel counts other pole pairs (R154). -/
def lensPpMis (s : State) (n : Fin 16) : Bool :=
  (List.finRange 16).any (fun a =>
    (getF s (.ax a) Ax.SRC_SRC == n.val && getF s (.ax a) Ax.SRC_PP != lensPP s n) ||
    (getF s (.ax a) Ax.FB_SRC_FBSRC == n.val && axFbPP s a != lensPP s n))

/-! ### Correction (R150–R152) -/

def lensCap : Int := 5965232

/-- Address of entry i of a bank's table. -/
def tableAt (n : Fin 16) (cand : Bool) (i : Nat) : Nat := lensBase n cand + 4 * (i % 256)

/-- Entry i of a bank's table: its CORR field. A word of the applied bank with an uncorrectable error counts as 0 (R162). -/
def tableCorr (s : State) (n : Fin 16) (cand : Bool) (i : Nat) : Int :=
  if !cand && eccBad s (tableAt n cand i) then 0 else toSigned 24 ((memWord s (tableAt n cand i)).toNat / 2 ^ 8)

/-- Lens meets the ECC error of an applied word: an uncorrectable one is reported once, until the word is written again or the
bank exchanged (R162). -/
def lensMeet (n : Fin 16) (i : Nat) (s : State) : State :=
  let a := tableAt n false i
  if eccBad s a then
    if (s.lens[n]).zeroed.contains (i % 256) then s
    else
      let s := modLens n (fun x => { x with zeroed := i % 256 :: x.zeroed }) s
      eccCell (.lens n) true (raiseF (.lens n) Lens.STATUS_ECCPT s)
  else eccMeet (.lens n) a s

/-- Every word of the applied bank is read: what is met is reported as at a correction (R162). -/
def lensBankMeet (n : Fin 16) (s : State) : State := forAll (List.range 256) (lensMeet n) s

/-- Entry i of the applied bank as it is taken (R162). -/
def tableWord (s : State) (n : Fin 16) (i : Nat) : Word :=
  if eccBad s (tableAt n false i) then 0 else memWord s (tableAt n false i)

/-- Position relative to mechanical zero, in 2^-32 electrical rev (R151). -/
def mechPos (s : State) (n : Fin 16) (pos : Int) : Int := pos - getI s (.lens n) Lens.MZERO * 2 ^ 32

/-- The mechanical fraction μ, UQ0.32 (R151). -/
def mechFrac (s : State) (n : Fin 16) (pos : Int) : Nat :=
  let p := lensPP s n
  ((mechPos s n pos) % ((p * 2 ^ 32 : Nat) : Int)).toNat / p

/-- The spatial table interpolated at μ (R152). -/
def spatial (s : State) (n : Fin 16) (cand : Bool) (mu : Nat) : Rat :=
  let i := bits mu 31 24
  let u := bits mu 23 8
  let a := tableCorr s n cand i
  (a : Rat) + ((tableCorr s n cand (i + 1) - a : Int) : Rat) * (u : Rat) / 2 ^ 16

/-- The harmonic terms at an electrical angle in 2^-32 rev (R150). -/
def harmonics (h1c h1s h2c h2s : Int) (phi : Nat) : Rat :=
  let c := fun (k : Nat) => ((sinTurn60 (k * phi + 2 ^ 30) (2 ^ 32) : Int) : Rat) / 2 ^ 60
  let d := fun (k : Nat) => ((sinTurn60 (k * phi) (2 ^ 32) : Int) : Rat) / 2 ^ 60
  (h1c : Rat) * c 1 + (h1s : Rat) * d 1 + (h2c : Rat) * c 2 + (h2s : Rat) * d 2

/-- The correction of the applied bank before the clamp (R150, R154); 0 in OFF and LEARN (R155), and while the block does
not run. -/
def lensRaw (s : State) (n : Fin 16) (pos : Int) : Int :=
  if !(lensApplies s n && live s (.lens n)) then 0
  else
    let h := harmonics (getI s (.lens n) Lens.H1C) (getI s (.lens n) Lens.H1S) (getI s (.lens n) Lens.H2C)
      (getI s (.lens n) Lens.H2S) (pos % 2 ^ 32).toNat
    roundOpen 13 (h + (if lensPpMis s n then 0 else spatial s n false (mechFrac s n pos)))

/-- LENS_CORRECTION (R150): the clamped correction, shown in LENSn_CORR. -/
def lensCorrect (n : Fin 16) (pos : Int) (s : State) : Int × State :=
  let c := lensRaw s n pos
  let i := bits (mechFrac s n pos) 31 24
  let s := whenOk (lensApplies s n && live s (.lens n) && !lensPpMis s n)
    (fun s => lensMeet n (i + 1) (lensMeet n i s)) s
  let k := clampI (-lensCap) lensCap c
  (pos - k, setI (.lens n) Lens.CORR k (raiseIf (k != c) (.lens n) Lens.STATUS_CLAMPEV s))

/-! ### Learning from publishes (R157, R158) -/

/-- RCn_TRK_K1 and RCn_TRK_K2 as last written (R131). -/
def gainRegs (s : State) (n : Fin 16) : Nat × Nat := (getF s (.rc n) Rc.TRK_K1, getF s (.rc n) Rc.TRK_K2)

/-- Reasons a publish gives against its revolution, as bits of LENSn_REJ (R157). -/
def lensReasons (s : State) (n : Fin 16) (r : Rev) (p : Pub) : Nat :=
  let st := p.status
  let v := p.vel.natAbs
  let stat := bitAt st 7 == 0 || bitAt st 6 == 1 || bitAt st 5 == 1 || bitAt st 3 == 1 || bitAt st 2 == 1 || bitAt st 1 == 1
    || bitAt st 0 == 1 || getF s (.rc n) Rc.TRK_STATUS_STATE != 2
  let x := s.rc[n]
  bitOf (lensPpMis s n) + 2 * bitOf stat + 4 * bitAt st 4
  + 8 * bitOf (decide (v < getF s (.lens n) Lens.VMIN) || decide (getF s (.lens n) Lens.VMAX < v))
  + 32 * bitOf (x.k1 != r.k1 || x.k2 != r.k2 || gainRegs s n != r.kReg) + 64 * bitOf (p.epoch != r.epoch)

/-- A publish added to its bin. -/
def revAdd (s : State) (n : Fin 16) (p : Pub) (r : Rev) : Rev :=
  let j := (roundEven (mechFrac s n p.pos) (2 ^ 24)).toNat % 256
  let (a, b, c) := r.bins.getD j (0, 0, 0)
  { r with bins := r.bins.set j (a + wrap64 (p.pos - r.pos0), b + (p.te - r.t0), c + 1),
           why := r.why ||| lensReasons s n r p, vLo := min r.vLo p.vel, vHi := max r.vHi p.vel }

/-- A revolution starts at a publish. -/
def revStart (s : State) (n : Fin 16) (p : Pub) (fwd : Bool) : Rev :=
  let x := s.rc[n]
  revAdd s n p { fwd := fwd, pos0 := p.pos, t0 := p.te, bins := List.replicate 256 (0, 0, 0), vLo := p.vel, vHi := p.vel,
                 epoch := p.epoch, k1 := x.k1, k2 := x.k2, kReg := gainRegs s n }

/-- The revolutions in progress are discarded (R156). -/
def lensDrop (n : Fin 16) (s : State) : State := modLens n (fun x => { x with last := none, revF := none, revR := none }) s

/-- Lens sees a publish: the crossing of μ through 0 ends the revolution that the last crossing in the same direction began, and
starts the next (R157). -/
def lensPublish (n : Fin 16) (p : Pub) (s : State) : State :=
  if !(live s (.lens n) && lensLearns s n) then lensDrop n s
  else
    let turn : Int := (lensPP s n * 2 ^ 32 : Nat)
    let m := mechPos s n p.pos
    -- TURNS wraps (R129): the way between two publishes is the short one
    match (s.lens[n]).last with
    | none => modLens n (fun x => { x with last := some m, revF := none, revR := none }) s
    | some m0 =>
      let a := m0 / turn
      let b := (m0 + wrap64 (m - m0)) / turn
      let add := fun (r : Option Rev) => r.map (revAdd s n p)
      let done := fun (r : Option Rev) (e : Option Rev) =>
        match r with | some r => some { r with pos1 := p.pos, t1 := p.te } | none => e
      modLens n (fun x =>
        if a = b then { x with last := some m, revF := add x.revF, revR := add x.revR }
        else if a < b then
          { x with last := some m, ended := done x.revF x.ended, revF := some (revStart s n p true), revR := add x.revR }
        else { x with last := some m, ended := done x.revR x.ended, revR := some (revStart s n p false), revF := add x.revF }) s

/-- All reasons against a revolution that has ended (R157). -/
def revVerdict (s : State) (n : Fin 16) (r : Rev) : Nat :=
  let t := r.t1 - r.t0
  let v : Rat := (if r.fwd then 1 else -1) * (lensPP s n : Rat) * 1000000000 * 2 ^ 16 / (t : Rat)
  let tol : Rat := (getF s (.lens n) Lens.VTOL : Rat) / 2 ^ 16 * (if r.fwd then v else -v)
  let out := decide (tol < (r.vHi : Rat) - v) || decide ((r.vLo : Rat) - v < -tol)
  let sparse := r.bins.any (fun b => b.2.2 == 0)
  r.why + 16 * bitOf out + 128 * bitOf sparse + 256 * bitOf (s.lens[n]).proc.isSome

/-- LENS_REVOLUTION_END (R157). -/
def lensRevEnd (n : Fin 16) (s : State) : State :=
  match (s.lens[n]).ended with
  | none => s
  | some r =>
    if !live s (.lens n) then s
    else
      let s := modLens n (fun x => { x with ended := none }) s
      let why := revVerdict s n r
      if why = 0 then modLens n (fun x => { x with proc := some r }) s
      else
        let s := forAll [(Lens.REJ_PP, 0), (Lens.REJ_STAT, 1), (Lens.REJ_INTEG, 2), (Lens.REJ_SPEED, 3), (Lens.REJ_VTOL, 4),
          (Lens.REJ_GAIN, 5), (Lens.REJ_EPOCH, 6), (Lens.REJ_SPARSE, 7), (Lens.REJ_BUSY, 8)]
          (fun p s => setF (.lens n) p.1 (bitAt why p.2) s) s
        raiseF (.lens n) Lens.STATUS_REJEV (incF (.lens n) Lens.COUNT_REJ s)

def execLensRevolutionEnd (n : Fin 16) (s : State) : Outcome := .next (lensRevEnd n s)

/-! ### Processing of a revolution (R158) -/

def cos256 (i : Nat) : Int := sinTurn60 (i + 64) 256
def sin256 (i : Nat) : Int := sinTurn60 i 256

/-- Sum over a list of 256 values weighted by a table, in 2^-60. -/
def weigh (d : List Int) (w : Nat → Int) : Int := (d.zipIdx.foldl (fun a x => a + x.1 * w x.2) 0)

/-- The deviation of each bin from the line, in 2^-48 electrical rev, without its mean. -/
def revLine (r : Rev) : List Int :=
  let te := r.t1 - r.t0
  let xe := wrap64 (r.pos1 - r.pos0)
  let d := r.bins.map (fun b => roundOpen 22 (((b.1 : Rat) - (xe : Rat) * (b.2.1 : Rat) / (te : Rat)) * 2 ^ 16 / (b.2.2 : Rat)))
  let m := roundOpen 22 (((d.foldl (· + ·) 0 : Int) : Rat) / 256)
  d.map (fun v => v - m)

/-- The converter's response T(w) at w in rad/s: its numerator and denominator as (re, im) pairs (R158). -/
def loopT (k1 k2 wmin : Nat) (w : Rat) : (Rat × Rat) × (Rat × Rat) :=
  let g : Rat := 1 - 4 * (asinTurn wmin : Rat) / 2 ^ 48
  let kp : Rat := (k1 : Rat) * g * 3125000 / 2 ^ 32
  let ki : Rat := (k2 : Rat) * g * 3125000 * 3125000 / 2 ^ 40
  ((ki, w * kp), (ki - w * w, w * kp))

/-- One harmonic divided by T(w) × B(k): its new (re, im), or none where |T| is below one half (R158). -/
def unfilter (num den : Rat × Rat) (b : Rat) (re im : Int) : Option (Int × Int) :=
  let n2 := num.1 * num.1 + num.2 * num.2
  let d2 := den.1 * den.1 + den.2 * den.2
  if 4 * n2 < d2 then none
  else
    -- D / (num / den) / b = D × den × conj(num) / (n2 × b)
    let hr := (den.1 * num.1 + den.2 * num.2) / (n2 * b)
    let hi := (den.2 * num.1 - den.1 * num.2) / (n2 * b)
    some (roundOpen 22 ((re : Rat) * hr - (im : Rat) * hi), roundOpen 22 ((re : Rat) * hi + (im : Rat) * hr))

/-- The learned table of a revolution in 2^-48 electrical rev, and the harmonic pairs left out (R158). -/
def revTable (s : State) (n : Fin 16) (r : Rev) : List Int × Nat :=
  let d := revLine r
  let vbar : Rat := (((wrap64 (r.pos1 - r.pos0) : Int) : Rat)) / ((lensPP s n : Rat) * 2 ^ 32 * ((r.t1 - r.t0 : Int) : Rat))
  let wmin := getF s (.rc n) Rc.TRK_WMIN
  let hs := (List.range 64).map (fun i =>
    let k := i + 1
    let re := weigh d (fun j => cos256 (j * k)) / 2 ^ 60
    let im := -(weigh d (fun j => sin256 (j * k)) / 2 ^ 60)
    let t := loopT r.k1 r.k2 wmin (2 * pi60 * (k : Rat) * vbar * 1000000000)
    let b : Rat := ((sinTurn60 k 512 : Int) : Rat) / 2 ^ 60 / (pi60 * (k : Rat) / 256)
    unfilter t.1 t.2 b re im)
  let out := (List.range 256).map (fun j =>
    (hs.zipIdx.foldl (fun (a : Int) (x : Option (Int × Int) × Nat) =>
      match x.1 with
      | none => a
      | some (re, im) => a + (re * cos256 (j * (x.2 + 1)) - im * sin256 (j * (x.2 + 1))) / 2 ^ 60) 0) * 2 / 256)
  (out, (hs.filter Option.isNone).length)

/-! ### Candidate (R159, R160) -/

def addLists (a b : List Int) : List Int := if a.isEmpty then b else List.zipWith (· + ·) a b

/-- Sums and counts cleared. -/
def lensClear (n : Fin 16) (s : State) : State :=
  setF (.lens n) Lens.COUNT_FWD 0 (setF (.lens n) Lens.COUNT_REV 0
    (modLens n (fun x => { x with accF := [], accR := [], nF := 0, nR := 0 }) s))

/-- The four harmonic terms of a table in 2^-32 electrical rev, over φ = frac(p j / 256) (R159). -/
def tableHarm (p : Nat) (c : List Rat) (k : Nat) (cosine : Bool) : Rat :=
  (c.zipIdx.foldl (fun (a : Rat) (x : Rat × Nat) =>
    a + x.1 * ((if cosine then cos256 (k * p * x.2) else sin256 (k * p * x.2) : Int) : Rat) / 2 ^ 60) 0) / 128

/-- Total correction of a bank at grid point i (R150). -/
def gridTotal (h : Int × Int × Int × Int) (p i : Nat) (e : Int) : Rat :=
  harmonics h.1 h.2.1 h.2.2.1 h.2.2.2 (p * i % 256 * 2 ^ 24) + (e : Rat)

def ratAbs (x : Rat) : Rat := if x < 0 then -x else x

/-- A bank's harmonic registers. -/
def bankHarm (s : State) (n : Fin 16) (cand : Bool) : Int × Int × Int × Int :=
  if cand then (getI s (.lens n) Lens.CH1C, getI s (.lens n) Lens.CH1S, getI s (.lens n) Lens.CH2C, getI s (.lens n) Lens.CH2S)
  else (getI s (.lens n) Lens.H1C, getI s (.lens n) Lens.H1S, getI s (.lens n) Lens.H2C, getI s (.lens n) Lens.H2S)

/-- Squared difference of the candidate table from the applied one rotated by r × 256 / p bins (R160). -/
def shiftDiff (s : State) (n : Fin 16) (r : Nat) : Int :=
  let k := r * 256 / lensPP s n
  (List.range 256).foldl (fun a i =>
    let d := tableCorr s n true i - tableCorr s n false (i + 256 - k)
    a + d * d) 0

/-- LENS_AUTO_COMMIT (R160), in LEARN_APPLY. -/
def lensAuto (n : Fin 16) (s : State) : State :=
  if lensState s n ≠ 3 then s
  else
    let p := lensPP s n
    let zero := (List.range 256).all (fun i => tableCorr s n false i == 0)
    let d0 := shiftDiff s n 0
    let best := ((List.range p).drop 1).foldl (fun (b : Nat × Int) r =>
      let d := shiftDiff s n r
      if d < b.2 then (r, d) else b) (0, d0)
    if !zero && best.1 != 0 && decide (4 * best.2 < d0) then
      raiseF (.lens n) Lens.STATUS_SHIFTDET (setF (.lens n) Lens.STATUS_SHIFT best.1 s)
    else
      let lim : Rat := (getF s (.lens n) Lens.DMAX : Rat)
      let hc := bankHarm s n true
      let ha := bankHarm s n false
      let close := (List.range 256).all (fun i =>
        decide (ratAbs (gridTotal hc p i (tableCorr s n true i) - gridTotal ha p i (tableCorr s n false i)) ≤ lim))
      if close then modLens n (fun x => { x with commit := true }) s else setF (.lens n) Lens.STATUS_PEND 1 s

/-- LENS_CHECK (R159): steps 1 to 6. Where step 5 fails, the harmonics and the table of steps 3 and 4 have taken the place of a
candidate held before, which is then no candidate any more (log 138). -/
def lensCheck (n : Fin 16) (s : State) : State :=
  let x := s.lens[n]
  let nrev := getF s (.lens n) Lens.CTRL_NREV
  let both := flag s (.lens n) Lens.CTRL_FRCHK
  let due := if both then decide (nrev ≤ x.nF ∧ nrev ≤ x.nR) else decide (nrev ≤ x.nF ∨ nrev ≤ x.nR)
  if !due then s
  else
    let mean := fun (l : List Int) (k : Nat) => l.map (fun v => (v : Rat) / (k : Rat) / 2 ^ 16)
    let cf := mean x.accF x.nF
    let cr := mean x.accR x.nR
    let diffs := if both then List.zipWith (fun a b => ratAbs (a - b)) cf cr else []
    let mx := diffs.foldl max 0
    let s := lensClear n (raiseF (.lens n) Lens.STATUS_CHKEV s)
    let s := if both then setF (.lens n) Lens.FRDIFF (satU 24 (roundOpen 14 mx).toNat) s else s
    if both && decide ((getF s (.lens n) Lens.FRTOL : Rat) < mx) then raiseF (.lens n) Lens.STATUS_FRFAIL s
    else
      let c := if both then List.zipWith (fun a b => (a + b) / 2) cf cr else if nrev ≤ x.nF then cf else cr
      let p := lensPP s n
      let h1c := tableHarm p c 1 true
      let h1s := tableHarm p c 1 false
      let h2c := tableHarm p c 2 true
      let h2s := tableHarm p c 2 false
      let cs := fun (k j : Nat) => ((cos256 (k * p * j) : Int) : Rat) / 2 ^ 60
      let sn := fun (k j : Nat) => ((sin256 (k * p * j) : Int) : Rat) / 2 ^ 60
      let rest := c.zipIdx.map (fun y =>
        satS 24 (roundOpen 14 (y.1 - h1c * cs 1 y.2 - h1s * sn 1 y.2 - h2c * cs 2 y.2 - h2s * sn 2 y.2)))
      let r := fun (v : Rat) => satS 32 (roundOpen 14 v)
      let h := (r h1c, r h1s, r h2c, r h2s)
      let bad := rest.zipIdx.any (fun y => decide ((lensCap : Rat) < ratAbs (gridTotal h p y.2 y.1)))
      let words := rest.zipIdx.map (fun y =>
        BitVec.ofNat 32 (ofSigned 24 y.1 * 2 ^ 8 + satU 8 (roundOpen 23 ((diffs.getD y.2 0) / 2 ^ 12)).toNat))
      let s := setWords (lensBase n true) words s
      let s := setI (.lens n) Lens.CH1C h.1 (setI (.lens n) Lens.CH1S h.2.1
        (setI (.lens n) Lens.CH2C h.2.2.1 (setI (.lens n) Lens.CH2S h.2.2.2 s)))
      let fr := if both then getF s (.lens n) Lens.FRDIFF else 0
      let s := modLens n (fun y => { y with frC := fr, commit := y.commit && !bad }) s
      let s := setF (.lens n) Lens.STATUS_PEND 0 (setF (.lens n) Lens.STATUS_ONEDIR (bitOf (!both))
        (setF (.lens n) Lens.STATUS_CAND (bitOf (!bad)) s))
      if bad then raiseF (.lens n) Lens.STATUS_CAPFAIL s else lensAuto n s

/-- LENS_REVOLUTION_PROCESSED (R158): the table joins its direction's sums, then the check. -/
def lensProcessed (n : Fin 16) (s : State) : State :=
  match (s.lens[n]).proc with
  | none => s
  | some r =>
    if !(live s (.lens n) && lensLearns s n) then s
    else
      let (t, z) := revTable s n r
      let s := setF (.lens n) Lens.ZEROED z s
      let s := if r.fwd then
          incF (.lens n) Lens.COUNT_FWD (modLens n (fun x => { x with proc := none, accF := addLists x.accF t, nF := x.nF + 1 }) s)
        else
          incF (.lens n) Lens.COUNT_REV (modLens n (fun x => { x with proc := none, accR := addLists x.accR t, nR := x.nR + 1 }) s)
      lensCheck n s

def execLensRevolutionProcessed (n : Fin 16) (s : State) : Outcome := .next (lensProcessed n s)

/-! ### Commit (R161) -/

/-- The words of a bank's table. -/
def bankWords (s : State) (n : Fin 16) (cand : Bool) : List Word :=
  (List.range 256).map (fun i => memWord s (lensBase n cand + 4 * i))

/-- The ECC errors of a bank's words, by index. -/
def bankEcc (s : State) (n : Fin 16) (cand : Bool) : List (Nat × Bool) :=
  (List.range 256).filterMap (fun i => (eccAt s (tableAt n cand i)).map (fun e => (i, e)))

/-- The banks are exchanged: tables with the errors of their words, harmonic registers and windows together. -/
def lensSwap (n : Fin 16) (s : State) : State :=
  let ea := bankEcc s n false
  let ec := bankEcc s n true
  let a := bankWords s n false
  let c := bankWords s n true
  let ha := bankHarm s n false
  let hc := bankHarm s n true
  let s := setWords (lensBase n true) a (setWords (lensBase n false) c s)
  let put := fun (cand : Bool) (l : List (Nat × Bool)) (m : List (Nat × Bool)) =>
    l.foldl (fun m e => assocPut (tableAt n cand e.1) e.2 m) m
  let s := { s with ecc := put false ec (put true ea s.ecc) }
  let s := setI (.lens n) Lens.H1C hc.1 (setI (.lens n) Lens.H1S hc.2.1 (setI (.lens n) Lens.H2C hc.2.2.1
    (setI (.lens n) Lens.H2S hc.2.2.2 s)))
  let s := setI (.lens n) Lens.CH1C ha.1 (setI (.lens n) Lens.CH1S ha.2.1 (setI (.lens n) Lens.CH2C ha.2.2.1
    (setI (.lens n) Lens.CH2S ha.2.2.2 s)))
  let s := modLens n (fun x => { x with commit := false, frA := x.frC, frC := x.frA, zeroed := [] }) s
  raiseF (.lens n) Lens.STATUS_COMEV (setF (.lens n) Lens.STATUS_CAND 0 (setF (.lens n) Lens.STATUS_PEND 0 s))

/-- A commit that waits takes effect at a publish with INTEG = 0. -/
def lensCommitNow (n : Fin 16) (s : State) : State :=
  if live s (.lens n) && (s.lens[n]).commit && getF s (.rc n) Rc.INT_ACTIVE == 0 then lensSwap n s else s

/-- LENS_COMMIT_EFFECT, at the publish of the hand-off that waits for the converter in TRACK. -/
def lensCommitEffect (n : Fin 16) (s : State) : State :=
  if live s (.rc n) && getF s (.rc n) Rc.TRK_STATUS_STATE == 2 && !(s.rc[n]).hands.isEmpty then lensCommitNow n s else s

def execLensCommitEffect (n : Fin 16) (s : State) : Outcome := .next (lensCommitEffect n s)

/-! ### Writes (R156, R161, R166) -/

/-- Revolutions in progress, ended and in processing are discarded. -/
def lensForget (n : Fin 16) : State → State :=
  modLens n (fun x => { x with last := none, revF := none, revR := none, ended := none, proc := none })

/-- A change of the state in force (R156): the sums are kept between LEARN and LEARN_APPLY alone. -/
def lensTransit (n : Fin 16) (new : Nat) (s : State) : State :=
  let old := lensState s n
  let s := modLens n (fun x => { x with state := new }) s
  if old = new ∨ (old % 2 = 1 ∧ new % 2 = 1) then s else lensClear n (lensForget n s)

/-- What a publish of the channel brings before its correction: the state that LENSn_CTRL.STATE asks for comes into force
(R156), and a commit takes effect (R161). -/
def lensBegin (n : Fin 16) (s : State) : State :=
  if live s (.lens n) then lensCommitNow n (lensTransit n (getF s (.lens n) Lens.CTRL_STATE) s) else s

/-- The store of a Lens register; STATE comes into force at the next publish. -/
def lensStore (n : Fin 16) (off : Nat) (w : Word) (s : State) : State :=
  if off = 0x8 then
    let s := storeFields (.lens n) off w s
    let s := if fieldOf w Lens.CTRL_RESTART = 1 then setF (.lens n) Lens.COUNT_REJ 0 (lensClear n (lensForget n s)) else s
    if fieldOf w Lens.CTRL_COMMIT = 1 then
      (if flag s (.lens n) Lens.STATUS_CAND then modLens n (fun x => { x with commit := true }) s
       else raiseF (.lens n) Lens.STATUS_CMDERR s)
    else s
  else storeFields (.lens n) off w s

def lensWrite (ag : Agent) (n : Fin 16) (off : Nat) (w : Word) (s : State) : State :=
  judgedWrite ag (.lens n) off w (lensStore n off w) s

def execLensOff (ag : Agent) (n : Fin 16) (w : Word) (s : State) : Outcome := .next (lensWrite ag n 0x8 w s)
def execLensLearn (ag : Agent) (n : Fin 16) (w : Word) (s : State) : Outcome := .next (lensWrite ag n 0x8 w s)
def execLensApply (ag : Agent) (n : Fin 16) (w : Word) (s : State) : Outcome := .next (lensWrite ag n 0x8 w s)
def execLensLearnApply (ag : Agent) (n : Fin 16) (w : Word) (s : State) : Outcome := .next (lensWrite ag n 0x8 w s)
def execLensRestart (ag : Agent) (n : Fin 16) (w : Word) (s : State) : Outcome := .next (lensWrite ag n 0x8 w s)
def execLensCommit (ag : Agent) (n : Fin 16) (w : Word) (s : State) : Outcome := .next (lensWrite ag n 0x8 w s)

end Sys2Proof.Machine
end

