-- ==== Sys2Proof/Machine/Ports.lean ====
section
/-!
DEFINITION. Port cells: which function drives a cell, at what level, and what the cell's receiver reads (R19, R179, R183,
R184, R188, R189, R201, R425).
-/

namespace Sys2Proof.Machine

def modEm (n : Fin 16) (f : EmSt → EmSt) (s : State) : State := { s with em := s.em.set n (f (s.em[n])) }

def emState (s : State) (n : Fin 16) : Nat := getF s (.em n) Em.STATUS_STATE
def emMode (s : State) (n : Fin 16) : Nat := getF s (.em n) Em.CTRL_MODE

/-- Levels of A and B for a count in quadrature (R188). -/
def quadA (e : Int) : Bool := e % 4 == 1 || e % 4 == 2
def quadB (e : Int) : Bool := e % 4 == 2 || e % 4 == 3

/-- Z for a count (R189). -/
def emZ (s : State) (n : Fin 16) (e : Int) : Bool :=
  let cpr : Int := getF s (.em n) Em.CPR
  let z0 : Int := (getF s (.em n) Em.ZPOS * getF s (.em n) Em.CPR / 2 ^ 32 : Nat)
  let w : Int := match getF s (.em n) Em.CTRL_ZW with | 0 => 1 | 1 => 2 | _ => 4
  decide ((e % cpr - z0) % cpr < w)

/-- x(t) of R185 for the emulator's delivery, `ahead` ns from now, and the position it counts in 2^-32 turn. -/
def emPos (s : State) (n : Fin 16) (ahead : Rat) : Rat :=
  let x := s.em[n]
  let v : Int := if x.del.validity = 2 then 0 else x.del.vel
  let dt : Rat := ((s.elapsed : Rat) - (x.del.at_ : Rat)) / 2 ^ 28 + (x.lat : Rat) + ahead
  (x.del.pos : Rat) + (v : Rat) * 2 ^ 16 * dt / 1000000000

/-- The target count, of −x where DIR reverses the sense (R185, R188). -/
def emX (s : State) (n : Fin 16) (ahead : Rat) : Rat :=
  let x := emPos s n ahead * (getF s (.em n) Em.CPR : Rat) / 2 ^ 32
  if flag s (.em n) Em.CTRL_DIR then -x else x

/-- The debt: the signed number of edges the rule of R186 would emit at once without GAP (R187). -/
def emDebt (s : State) (n : Fin 16) (ahead : Rat) : Int :=
  let x := emX s n ahead
  let e := (s.em[n]).e
  let h : Rat := (getF s (.em n) Em.CTRL_HYS : Rat) / 8
  if (e : Rat) + 1 ≤ x then x.floor - e
  else if x < (e : Rat) - h then -((e : Rat) - h - x).ceil
  else 0

/-- The present instant of the 2.5 ns grid, two instants to a fabric cycle (R186). -/
def grid (s : State) : Nat := 2 * s.cycle

/-- The level an emulator gives a cell it names as an output, at an instant of the 2.5 ns grid: A and step on PTA, B, direction and SSI data on PTB, Z on PTZ;
none where the cell is not its output. The lines move with the edges emitted alone, not with dropped counts (R187–R189,
log 141). -/
def emLevelAt (g : Nat) (s : State) (n : Fin 16) (c : Fin 64) : Option Bool :=
  let x := s.em[n]
  let st := emState s n
  if !(st == 2 || st == 3) then none
  else
    let m := emMode s n
    if m ≠ 2 ∧ getF s (.em n) Em.PORT_PTA = c.val then
      some (if m = 0 then quadA x.q else x.pulse && (st == 3 || decide (g < x.tLast + x.gap / 2)))
    else if getF s (.em n) Em.PORT_PTB = c.val then
      some (if m = 0 then quadB x.q else if m = 1 then x.dir else x.data)
    else if m ≠ 2 ∧ flag s (.em n) Em.PORT_ZEN ∧ getF s (.em n) Em.PORT_PTZ = c.val then some (emZ s n x.ez)
    else none

def emLevel (s : State) (n : Fin 16) (c : Fin 64) : Option Bool := emLevelAt (grid s) s n c

/-- A sector comparator claims a cell (R201); in BEACON it does not run (R204). -/
def secClaims (s : State) (n : Fin 64) (c : Fin 64) : Bool :=
  decide (mode s ≤ 2) && flag s (.sec n) Sec.CFG_EN && flag s (.sec n) Sec.CFG_PTEN && getF s (.sec n) Sec.CFG_PT == c.val
/-- Its level. -/
def secLevel (s : State) (n : Fin 64) : Bool := flag s (.sec n) Sec.STATUS_IN != flag s (.sec n) Sec.CFG_POL

/-- The torque-enable signal of an axis claims a cell (R179). -/
def tenClaims (s : State) (a : Fin 16) (c : Fin 64) : Bool := flag s (.ax a) Ax.TEN_EN && getF s (.ax a) Ax.TEN_PT == c.val
/-- 1 PPS claims a cell (R59). -/
def ppsClaims (s : State) (c : Fin 64) : Bool := flag s .time Time.CFG_PPSEN && getF s .time Time.CFG_PPSPT == c.val

def liveSecs (s : State) (c : Fin 64) : List (Fin 64) := (List.finRange 64).filter (fun n => secClaims s n c && !isolated s (.sec n))
def liveTens (s : State) (c : Fin 64) : List (Fin 16) :=
  (List.finRange 16).filter (fun a => tenClaims s a c && !isolated s (.ax a) && !regionReset s .control)
def liveEms (s : State) (c : Fin 64) : List (Fin 16) :=
  (List.finRange 16).filter (fun n => (emLevel s n c).isSome && !isolated s (.em n))

/-- A function block that would claim the cell is isolated (R28). -/
def isoClaims (s : State) (c : Fin 64) : Bool :=
  (List.finRange 64).any (fun n => secClaims s n c && isolated s (.sec n))
  || (List.finRange 16).any (fun a => tenClaims s a c && (isolated s (.ax a) || regionReset s .control))
  || (List.finRange 16).any (fun n => (emLevel s n c).isSome && isolated s (.em n))

/-- PT_CLAIM (R19, R184): 0 none, 1 safe state, 2 freeze, 3 sector rank, 4 emulator or latch rank, 5 program write. -/
def cellClaim (s : State) (c : Fin 64) : Nat :=
  if chipSafe s || regionReset s .port || isolated s (.pt c) || dormant s then 1
  else if frozen s then 2
  else if !(liveSecs s c).isEmpty || !(liveTens s c).isEmpty then 3
  else if !(liveEms s c).isEmpty || ppsClaims s c then 4
  else if flag s (.pt c) Pt.OUT_OE then 5
  else if isoClaims s c then 1
  else 0

/-- Level of the sector rank (R179, R201): on a torque-enable cell the deasserted level wins. -/
def rank3 (s : State) (c : Fin 64) : Bool :=
  let secs := liveSecs s c
  let high := secs.any (secLevel s)
  match liveTens s c with
  | [] => high
  | a :: t =>
    let pol := flag s (.ax a) Ax.TEN_POL
    let on := (a :: t).all (fun a => flag s (.ax a) Ax.TEN_ASSERTED) && (secs.isEmpty || high != pol)
    on != pol

/-- Level of the emulator rank: the lowest-numbered emulator, else 1 PPS (log 62). -/
def rank4At (g : Nat) (s : State) (c : Fin 64) : Bool :=
  match liveEms s c with
  | n :: _ => (emLevelAt g s n c).getD false
  | [] => s.time.ppsOut

/-- The balls of the boundary register (R447, R458): RGMII outputs in the order of row T, inputs in that of row U. -/
inductive Ball where
  | ptP (c : Fin 64) | ptN (c : Fin 64) | rgmiiTx (m : Fin 2) (i : Fin 6) | rgmiiRx (m : Fin 2) (i : Fin 6)
  | sclk | csN | io (i : Fin 4) | fsclk | fcsN | fio (i : Fin 4)
  | irqN | resetN | safeN | freezeN | alarmN | sync | dbgEn
  deriving DecidableEq, Repr

/-- The model's number of a ball, by which Config gives its cells (log 148). -/
def Ball.num : Ball → Nat
  | .ptP c => c.val | .ptN c => 64 + c.val | .rgmiiTx m i => 128 + 12 * m.val + i.val | .rgmiiRx m i => 134 + 12 * m.val + i.val
  | .sclk => 152 | .csN => 153 | .io i => 154 + i.val | .fsclk => 158 | .fcsN => 159 | .fio i => 160 + i.val
  | .irqN => 164 | .resetN => 165 | .safeN => 166 | .freezeN => 167 | .alarmN => 168 | .sync => 169 | .dbgEn => 170

/-- The ball is an input alone: its output and enable cells have no effect (R458). -/
def Ball.inputOnly : Ball → Bool
  | .rgmiiRx _ _ | .sclk | .csN | .resetN | .safeN | .freezeN | .dbgEn => true
  | _ => false

/-- The boundary register drives the balls: EXTEST or CLAMP, and only while RESET_N is low (R459). -/
def boundaryDrives (s : State) : Bool := (s.ec.jtagIr == 0 || s.ec.jtagIr == 4) && s.pwr.resetLow

/-- What the cells of the boundary register drive on a ball (R458, log 148). -/
def boundaryDrive (s : State) (b : Ball) : Option Bool :=
  if !b.inputOnly && s.ec.boundary.getLsbD (Config.scanEnable b.num) then some (s.ec.boundary.getLsbD (Config.scanOutput b.num))
  else none

/-- The level a cell drives on PTn_P at an instant of the 2.5 ns grid, where it drives; HIGHZ holds every ball high-impedance
(R459). -/
def cellDriveAt (g : Nat) (s : State) (c : Fin 64) : Option Bool :=
  if s.ec.jtagIr = 5 then none
  else if boundaryDrives s then boundaryDrive s (.ptP c)
  else match cellClaim s c with
  | 3 => some (rank3 s c)
  | 4 => some (rank4At g s c)
  | 5 => some (flag s (.pt c) Pt.OUT_P)
  | _ => none

def cellDrive (s : State) (c : Fin 64) : Option Bool := cellDriveAt (grid s) s c

/-- What the receiver of a cell reads on PTn_P (R183). -/
def cellPAt (g : Nat) (s : State) (c : Fin 64) : Bool := (cellDriveAt g s c).getD (s.pt[c]).inP
def cellP (s : State) (c : Fin 64) : Bool := cellPAt (grid s) s c

/-- The level that comes to PTn_P from outside; the two lines of a differential pair differ. -/
def pinSet (c : Fin 64) (b : Bool) (s : State) : State :=
  let m := getF s (.pt c) Pt.CFG_MODE
  { s with pt := s.pt.set c { inP := b, inN := if m = 0 then !b else (s.pt[c]).inN } }

/-- The level on an undriven PTn_N: the other line of the pair in MODE 0, else what the outside drives (log 142). -/
def outsideN (s : State) (c : Fin 64) : Bool :=
  if getF s (.pt c) Pt.CFG_MODE = 0 then (s.pt[c]).inN else Config.outsideN c.val s.cycle

/-- The level a cell drives on PTn_N, where it drives: the complement in MODE 0 or 1, a program's level in MODE 2 (R184); its own
cells of the boundary register where that drives, and nothing under HIGHZ (R459). -/
def driveN (s : State) (c : Fin 64) : Option Bool :=
  if s.ec.jtagIr = 5 then none
  else if boundaryDrives s then boundaryDrive s (.ptN c)
  else if getF s (.pt c) Pt.CFG_MODE = 2 then
    (let k := cellClaim s c
     if flag s (.pt c) Pt.OUT_OE && k != 1 && k != 2 then some (flag s (.pt c) Pt.OUT_N) else none)
  else (cellDrive s c).map (fun b => !b)

/-- What PTn_N reads. -/
def cellN (s : State) (c : Fin 64) : Bool := (driveN s c).getD (outsideN s c)

/-- PORT_CELL_DRIVE_MISMATCH (R425): while the cell drives. -/
def cellMismatch (c : Fin 64) (s : State) : State :=
  if live s (.pt c) && (cellDrive s c).isSome then blkMet (.pt c) .cell s else s

def execPortCellDriveMismatch (c : Fin 64) (s : State) : Outcome := .next (cellMismatch c s)

end Sys2Proof.Machine
end

