-- ==== Sys2Proof/Machine/Axis.lean ====
section
/-!
DEFINITION. Axes: the two source accumulators, the encoder input, the cross-check, the feedback states and torque enable
(R172–R179, R182, R223–R228).
-/

namespace Sys2Proof.Machine

def axHoldT (s : State) (n : Fin 16) : Nat := getF s (.ax n) Ax.FB_CFG_HOLDT
def axPrim (s : State) (n : Fin 16) : Nat := getF s (.ax n) Ax.SRC_SRC
def axSec (s : State) (n : Fin 16) : Nat := getF s (.ax n) Ax.FB_SRC_FBSRC

/-! ### Sources (R175) -/

/-- A source publishes: a resolver channel in TRACK whose block and filter engine are in service, or an enabled encoder
input. -/
def srcPublishes (s : State) (n : Fin 16) (code : Nat) : Bool :=
  if code < 16 then (s.rc[fin16 code]).live && live s (.rc (fin16 code)) && live s .fe
  else code == 16 && flag s (.ax n) Ax.ENC_CFG_EN && live s (.ax n)

/-- A monitor of the source is active (R167, R227). -/
def srcActiveAny (s : State) (n : Fin 16) (code : Nat) : Bool :=
  if code < 16 then getF s (.rc (fin16 code)) Rc.INT_ACTIVE != 0 else code == 16 && flag s (.ax n) Ax.ENC_STATUS

/-- A monitor of a channel acts on its axes (R170): LOS, LOT, STUCK and EXC always, DOS and PHASE by their ACT bits. -/
def rcActing (s : State) (c : Fin 16) : Bool :=
  let a := getF s (.rc c) Rc.INT_ACTIVE
  bitAt a 0 == 1 || bitAt a 2 == 1 || bitAt a 3 == 1 || bitAt a 5 == 1
  || (bitAt a 1 == 1 && flag s (.rc c) Rc.INT_CTRL_DOSACT) || (bitAt a 4 == 1 && flag s (.rc c) Rc.INT_CTRL_PHACT)

def srcActing (s : State) (n : Fin 16) (code : Nat) : Bool :=
  if code < 16 then rcActing s (fin16 code) else code == 16 && flag s (.ax n) Ax.ENC_STATUS

/-- The source holds LOCK in its last result. -/
def srcLocked (s : State) (n : Fin 16) (code : Nat) : Bool :=
  if code < 16 then bitAt (getF s (.rc (fin16 code)) Rc.ANGLE_STATUS) 7 == 1 else code == 16 && bitAt (s.ax[n]).enc.pubSt 7 == 1

/-- The primary is lost (R175). -/
def primLost (s : State) (n : Fin 16) : Bool :=
  srcActing s n (axPrim s n) || !srcPublishes s n (axPrim s n) || flag s (.ax n) Ax.FB_STATUS_XCHK

/-- The secondary is usable (R173, R175). -/
def secUsable (s : State) (n : Fin 16) : Bool :=
  let c := axSec s n
  c != 0xFF && !srcActiveAny s n c && srcPublishes s n c && srcLocked s n c && !flag s (.ax n) Ax.FB_STATUS_SECFAIL
  && !flag s (.ax n) Ax.FB_STATUS_XCHK

/-! ### Feedback states (R174–R178) -/

/-- The cause bits MON and SRC follow the primary (R181). -/
def fbCauses (n : Fin 16) (s : State) : State :=
  setF (.ax n) Ax.FB_STATUS_SRC (bitOf (!srcPublishes s n (axPrim s n)))
    (setF (.ax n) Ax.FB_STATUS_MON (bitOf (srcActing s n (axPrim s n))) s)

/-- AXn_FB_OFS. -/
def fbOfs (s : State) (n : Fin 16) : Int :=
  toSigned 64 (getF s (.ax n) Ax.FB_OFS_LO + 2 ^ 32 * getF s (.ax n) Ax.FB_OFS_HI)
def setFbOfs (n : Fin 16) (i : Int) (s : State) : State :=
  let v := ofSigned 64 i
  setF (.ax n) Ax.FB_OFS_HI (v / 2 ^ 32) (setF (.ax n) Ax.FB_OFS_LO v s)

/-- A loop holds its output in HOLDOVER (R237). -/
def lpHold (l : Fin 64) (st : Nat) (s : State) : State :=
  raiseF (.lp l) Lp.STATUS_HOLDEV (setLpState l 5 (modLp l (fun x => { x with remembered := st }) s))

/-- A loop whose axis enters FB_HOLDOVER (R237). -/
def lpToHold (l : Fin 64) (s : State) : State :=
  if lpState s l = 3 ∨ lpState s l = 4 then lpHold l (lpState s l) s else s

/-- Loops of an axis entering FB_HOLDOVER. -/
def loopsHold (n : Fin 16) (s : State) : State := forAll (axLoops s n) (fun l => lpTrigger l (lpToHold l)) s

/-- A held loop resumes in the state remembered (R237). -/
def lpResume (l : Fin 64) (s : State) : State := if lpState s l = 5 then setLpState l (s.lp[l]).remembered s else s

/-- Loops of an axis entering FB_FALLBACK. -/
def loopsResume (n : Fin 16) (s : State) : State := forAll (axLoops s n) (fun l => lpTrigger l (lpResume l)) s

/-- Entry to FB_FALLBACK (R176): the switch offset makes the secondary's position meet the position before the switch,
extrapolated to the secondary's sample instant; it is set again at the secondary's first delivery. -/
def fbToFallback (n : Fin 16) (s : State) : State :=
  let st := axFb s n
  let x := s.ax[n]
  let ref := if st = 2 then x.good else x.del
  let s := setFbOfs n (advance ref.pos ref.vel (x.sec.te - ref.te) - x.sec.pos) s
  let s := modAx n (fun x => { x with good := ref, fbPend := true, useSec := true }) s
  let s := setF (.ax n) Ax.FB_STATUS_STATE 1 s
  let s := if st = 0 then fbEntry n s else s
  let s := tenUpdate n (loopsResume n s)
  raiseAlarm 0x0720 (axisSrc n) 1 false (fbRecord n 1 false s)

/-- Entry to FB_HOLDOVER (R176, R177): extrapolation starts from the last good result of the source in use, or from the
last delivery where there was none (log 63). -/
def fbToHoldover (n : Fin 16) (secLost : Bool) (s : State) : State :=
  let st := axFb s n
  let x := s.ax[n]
  let src := if x.useSec then x.sec else x.prim
  let o := if x.useSec then fbOfs s n else 0
  let g : Delivery := if src.gHas then { x.del with pos := wrap64 (src.gPos + o), vel := src.gVel, te := src.gTe } else x.del
  let now := s.elapsed
  let t := axHoldT s n
  let s := modAx n (fun x => { x with good := g, holdAt := now, holdT := t, fbPend := false }) s
  let s := setF (.ax n) Ax.FB_STATUS_STATE 2 s
  let s := if st = 0 then fbEntry n s else s
  let s := tenUpdate n (loopsHold n s)
  raiseAlarm 0x0721 (axisSrc n) 1 false (fbRecord n 2 secLost s)

/-- Loss of the source in use (R176): at a publish of it, at a command, and where it stops publishing at once, as no publish of it
follows (log 58). -/
def axEval (n : Fin 16) (s : State) : State :=
  let s := fbCauses n s
  if isolated s (.ax n) || regionReset s .control then s
  else
    let st := axFb s n
    if st = 0 ∧ primLost s n = true then
      if secUsable s n then fbToFallback n s
      else if 0 < axHoldT s n then fbToHoldover n false s
      else axisSafe n false s
    else if st = 1 ∧ secUsable s n = false then
      if 0 < axHoldT s n then fbToHoldover n true s else axisSafe n true s
    else s

/-- Axes that take a channel as a source. -/
def channelAxes (s : State) (c : Fin 16) : List (Fin 16) :=
  (List.finRange 16).filter (fun n => axPrim s n == c.val || axSec s n == c.val)

/-- Every axis of a channel is evaluated. -/
def channelEval (c : Fin 16) (s : State) : State := forAll (channelAxes s c) axEval s

/-- The axis's sources of a code publish nothing: they are initialised at the next publish (R225), and without publishes of the
primary the dwells of the cross-check restart (R173). -/
def srcStops (n : Fin 16) (code : Nat) (s : State) : State :=
  let p := axPrim s n == code
  let q := axSec s n == code
  modAx n (fun x => { x with prim := { x.prim with init := x.prim.init && !p }, sec := { x.sec with init := x.sec.init && !q },
                             xcAt := if p then none else x.xcAt, xcClrAt := if p then none else x.xcClrAt }) s

/-- A source stops publishing: its accumulators are initialised at its next publish (R225), and its axes lose it (R175). -/
def channelStops (c : Fin 16) (s : State) : State :=
  channelEval c (forAll (channelAxes s c) (fun n s => srcStops n c.val s) s)

/-- FALLBACK, SAFE and CLEAR of AXn_FB_CMD (R176). -/
def fbFallback (n : Fin 16) (s : State) : State := if axFb s n = 2 ∧ secUsable s n = true then fbToFallback n s else s

def fbSafe (n : Fin 16) (s : State) : State := if axFb s n = 1 ∨ axFb s n = 2 then axisSafe n false s else s

def fbClear (n : Fin 16) (s : State) : State :=
  let s := fbCauses n s
  if axFb s n != 2 && !primLost s n && !(axLoops s n).any (lpClosed s) then
    let s := setF (.ax n) Ax.FB_STATUS_SECFAIL 0 s
    if axFb s n = 0 then s
    else
      let s := modAx n (fun x => { x with useSec := false, fbPend := false }) (setFbOfs n 0 s)
      tenUpdate n (setF (.ax n) Ax.FB_STATUS_STATE 0 s)
  else raiseF (.ax n) Ax.FB_STATUS_CLRREJ s

/-- HOLDOVER_EXPIRY (R176): HOLDT in units of 2 µs of elapsed time; a write that raises HOLDT does not extend a holdover (R178). -/
def holdExpiry (n : Fin 16) (s : State) : State :=
  if live s (.ax n) && axFb s n == 2 && decide (2000 * (s.ax[n]).holdT ≤ sinceNs s (s.ax[n]).holdAt) then axisSafe n false s else s

/-- AXn_FB_CMD, in the order of R176: an expiry that is due, SAFE, loss of the source, FALLBACK, CLEAR. -/
def fbCommand (n : Fin 16) (w : Word) (s : State) : State :=
  let s := holdExpiry n s
  let s := if fieldOf w Ax.FB_CMD_SAFE = 1 then fbSafe n s else s
  let s := axEval n s
  let s := if fieldOf w Ax.FB_CMD_FALLBACK = 1 then fbFallback n s else s
  if fieldOf w Ax.FB_CMD_CLEAR = 1 then fbClear n s else s

def execHoldoverExpiry (n : Fin 16) (s : State) : Outcome := .next (holdExpiry n s)

/-! ### Accumulators (R224, R225) -/

/-- Pole pairs of a source (R223). -/
def srcPP (s : State) (n : Fin 16) (sec : Bool) (code : Nat) : Nat :=
  if code < 16 then (if sec then axFbPP s n else getF s (.ax n) Ax.SRC_PP) else 1

/-- The last publish of a source: its count, electrical position, velocity, instants, epoch and status. -/
def srcPub (s : State) (n : Fin 16) (code : Nat) : Pub :=
  if code < 16 then (s.rc[fin16 code]).pub
  else
    let e := (s.ax[n]).enc
    let c := e.pubC * 2 ^ 32 / (max 1 (getF s (.ax n) Ax.ENC_N) : Nat)
    { no := e.no, pos := c, corr := c, vel := e.pubV, t := e.pubT, te := e.pubTe, epoch := e.pubEp,
      status := e.pubSt }

/-- A source has published since the axis last took it in. -/
def srcNew (s : State) (n : Fin 16) (code : Nat) (a : SrcAcc) : Bool :=
  srcPublishes s n code && (srcPub s n code).no != a.seen

/-- A publish taken into an accumulator. -/
def accTake (s : State) (n : Fin 16) (sec : Bool) (code ofs : Int) (a : SrcAcc) : SrcAcc :=
  let c := code.toNat
  let p := srcPub s n c
  let pp := srcPP s n sec c
  let e := wrap64 p.corr
  let z : Int := if c < 16 then getI s (.lens (fin16 c)) Lens.MZERO * 2 ^ 32 else 0
  let acc := toSigned 72 (ofSigned 72 (if a.init then a.eacc + wrap64 (e - a.ePrev) else e - z))
  let pos := wrap64 (acc / (pp : Int) + ofs)
  let vel := satS 32 (roundEven p.vel pp)
  let good := p.status &&& 0xE1 == 0x80
  { a with eacc := acc, ePrev := e, init := true, seen := p.no, live := true, pos := pos, vel := vel, t := p.t, te := p.te,
           epoch := p.epoch, status := p.status, gPos := if good then pos else a.gPos, gVel := if good then vel else a.gVel,
           gTe := if good then p.te else a.gTe, gHas := a.gHas || good }

/-! ### Cross-check (R172, R173) -/

/-- P_sec(T) (R172): the secondary's last position, brought to the primary's sample instant, also where it publishes no more; a
secondary that has published nothing has no position, and the value is free (log 139). -/
def xcSecond (n : Fin 16) (s : State) : Int × State :=
  let x := s.ax[n]
  if x.sec.live then (advance x.sec.pos x.sec.vel (x.prim.te - x.sec.te), s)
  else (toSigned 64 (Config.freeValue s.free % 2 ^ 64), { s with free := s.free + 1 })

/-- The difference at a publish of the primary, and the times for which it has been beyond THR and within THR / 2. -/
def xcheck (n : Fin 16) (s : State) : State :=
  if !flag s (.ax n) Ax.FB_CFG_XCEN then modAx n (fun x => { x with xcAt := none, xcClrAt := none }) s
  else
    let (q, s) := xcSecond n s
    let x := s.ax[n]
    let d0 := x.prim.pos - (q + getI s (.ax n) Ax.XC_OFS)
    let d := if flag s (.ax n) Ax.FB_CFG_XCMODE then wrap64 d0 else toSigned 32 (ofSigned 32 d0)
    let thr := getF s (.ax n) Ax.XC_THR
    let now := s.elapsed
    let s := setI (.ax n) Ax.XC_DIFF (clampI (-(2 ^ 31 - 1)) (2 ^ 31 - 1) d) s
    modAx n (fun x => { x with xcAt := if thr < d.natAbs then some (x.xcAt.getD now) else none,
                               xcClrAt := if 2 * d.natAbs ≤ thr then some (x.xcClrAt.getD now) else none }) s

/-- A dwell of the cross-check is over. -/
def xcDue (s : State) (n : Fin 16) (at_ : Option Nat) : Bool :=
  match at_ with | none => false | some t => decide (1000 * getF s (.ax n) Ax.XC_CFG ≤ sinceNs s t)

/-- XCHECK_FAULT, at a publish of the primary: the fault is attributed, and an axis that uses the primary is evaluated (R176). -/
def xcFault (n : Fin 16) (s : State) : State :=
  if live s (.ax n) && flag s (.ax n) Ax.FB_CFG_XCEN && !(s.ax[n]).xcFault && xcDue s n (s.ax[n]).xcAt then
    let s := modAx n (fun x => { x with xcFault := true }) s
    if srcActing s n (axPrim s n) then s
    else
      let secBad := srcActiveAny s n (axSec s n) || !srcPublishes s n (axSec s n)
      let s := setF (.ax n) (if secBad then Ax.FB_STATUS_SECFAIL else Ax.FB_STATUS_XCHK) 1 s
      let s := raiseAlarm 0x0710 (axisSrc n) 1 true s
      if axFb s n = 0 then axEval n s else s
  else s

def execXcheckFault (n : Fin 16) (s : State) : Outcome := .next (xcFault n s)

/-- XCHECK_CLEAR: SECFAIL stays until a CLEAR (R181). -/
def xcClear (n : Fin 16) (s : State) : State :=
  if live s (.ax n) && (s.ax[n]).xcFault && xcDue s n (s.ax[n]).xcClrAt then
    let s := modAx n (fun x => { x with xcFault := false }) s
    fbCauses n (alarmGone 0x0710 (axisSrc n) (setF (.ax n) Ax.FB_STATUS_XCHK 0 s))
  else s

def execXcheckClear (n : Fin 16) (s : State) : Outcome := .next (xcClear n s)

/-! ### Deliveries (R174, R177, R182) -/

/-- A delivery as a lane takes it, where a step has come since its sample instant (R209): a step that left the frame grid in place moves
the instant into the present time and epoch, unless it is stated in that time already; any other step parts it from that time. -/
def keptDelivery (s : State) (d : Delivery) : Delivery :=
  let u := (timeBack s (d.te * 2 ^ 28)).1
  if u = 0 then d
  else if u % ((frameNs s * 2 ^ 28 : Nat) : Int) ≠ 0 then { d with moved := true }
  else
    let o : Int := ((s.time.now : Int) - (elapsedNs s : Int) - ((d.t : Int) - d.te)) % (timeMod : Int)
    if o ≤ 2 ∨ (timeMod : Int) - 2 ≤ o then { d with epoch := timeEpoch s }
    else { d with t := (((d.t : Int) + u / 2 ^ 28) % (timeMod : Int)).toNat, epoch := timeEpoch s }

/-- A lane receives a delivery of its axis (R208). -/
def rsReceive (n : Fin 16) (d0 : Delivery) (m : Fin 16) (s : State) : State :=
  let d := keptDelivery s d0
  if live s (.rs m) && getF s (.rs m) Rs.STATUS_STATE != 0 && getF s (.rs m) Rs.CFG_AXIS == n.val then
    let l := s.rs[m]
    { s with rs := s.rs.set m { l with win := (d :: l.win).take 8 } }
  else s

/-- A delivery becomes the axis's last; the seven before it are kept. The lanes on the axis receive it. -/
def axDeliver (n : Fin 16) (d : Delivery) (s : State) : State :=
  let now := s.elapsed
  forAll (List.finRange 16) (rsReceive n d)
    (modAx n (fun x => { x with hist := (x.del :: x.hist).take 7, del := { d with at_ := now }, toPort := true }) s)

/-- The delivery of a source's result. -/
def srcDelivery (a : SrcAcc) (ofs : Int) : Delivery :=
  { pos := wrap64 (a.pos + ofs), vel := a.vel, t := a.t, te := a.te, epoch := a.epoch, disc := bitAt a.status 1 == 1,
    validity := 0, status := a.status }

/-- The extrapolated delivery of FB_HOLDOVER at an instant, with the status byte of the source's result and its DISC (R182, R208). -/
def extrapDelivery (s : State) (n : Fin 16) (t : Nat) (te : Int) (epoch status : Nat) : Delivery :=
  let x := s.ax[n]
  { x.good with pos := wrap64 (advance x.good.pos x.good.vel (te - x.good.te)), t := t, te := te, epoch := epoch,
                disc := bitAt status 1 == 1, validity := 1, status := status }

/-- AXIS_DELIVERY: the publishes since the last one enter the accumulators; the cross-check follows, and the state table where the
source in use has published (R176), which is delivered. -/
def axisDelivery (n : Fin 16) (s : State) : State :=
  let x := s.ax[n]
  let newP := srcNew s n (axPrim s n) x.prim
  let newS := axSec s n != 0xFF && srcNew s n (axSec s n) x.sec
  if !(live s (.ax n) && (newP || newS)) then s
  else
    let ofs := x.ofsPend.getD x.ofs
    let inits := (newP && !x.prim.init) || (newS && !x.sec.init)
    let p := if newP then accTake s n false (axPrim s n) ofs x.prim else x.prim
    let q := if newS then accTake s n true (axSec s n) ofs x.sec else x.sec
    let s := modAx n (fun x => { x with ofs := ofs, ofsPend := none, prim := p, sec := q }) s
    let s := raiseIf inits (.ax n) Ax.SEL_INIT s
    let s := if newP then xcheck n s else s
    let s := if (axFb s n = 0 ∧ newP) ∨ (axFb s n = 1 ∧ newS) then axEval n s else fbCauses n s
    let st := axFb s n
    if st = 0 ∧ newP then axDeliver n (srcDelivery p 0) s
    else if st = 1 ∧ newS then
      let y := s.ax[n]
      let s := if y.fbPend then
          setFbOfs n (wrap64 (advance y.good.pos y.good.vel (q.te - y.good.te) - q.pos))
            (modAx n (fun x => { x with fbPend := false }) s)
        else s
      axDeliver n (srcDelivery q (fbOfs s n)) s
    else if st = 2 ∧ (if (s.ax[n]).useSec then newS else newP) = true then
      let a := if (s.ax[n]).useSec then q else p
      axDeliver n (extrapDelivery s n a.t a.te a.epoch a.status) s
    else s

def execAxisDelivery (n : Fin 16) (s : State) : Outcome := .next (axisDelivery n s)

/-- What an axis delivers at a frame while no publish does (R182, log 61): HELD in FB_SAFE and while isolated, EXTRAP in
FB_HOLDOVER whose source is silent. -/
def frameDelivery (s : State) (n : Fin 16) : Option Delivery :=
  let x := s.ax[n]
  let f := frameNs s
  let t := s.time.now / f * f
  let te : Int := (elapsedNs s : Int) - (s.time.now - t : Nat)
  let st := axFb s n
  if !clocked s .control || x.del.t == t then none
  else if isolated s (.ax n) || regionReset s .control || st == 3 then
    some { x.del with vel := 0, t := t, te := te, epoch := timeEpoch s, disc := flag s .time Time.STATUS_DISC, validity := 2 }
  else if st == 2 && !srcPublishes s n (if x.useSec then axSec s n else axPrim s n) then
    some (extrapDelivery s n t te (timeEpoch s) (if x.useSec then x.sec.status else x.prim.status))
  else none

/-! ### Encoder input (R227) -/

/-- Place in the quadrature cycle of a pair of levels (R188). -/
def quadIndex (a b : Bool) : Nat := match a, b with | false, false => 0 | true, false => 1 | true, true => 2 | false, true => 3

/-- Levels that the cells of an encoder input receive at an instant of the 2.5 ns grid. -/
def encCellsAt (g : Nat) (s : State) (n : Fin 16) : Bool × Bool :=
  (cellPAt g s (fin64 (getF s (.ax n) Ax.ENC_CFG_PTA)), cellPAt g s (fin64 (getF s (.ax n) Ax.ENC_CFG_PTB)))
def encCells (s : State) (n : Fin 16) : Bool × Bool := encCellsAt (grid s) s n

/-- EN written 1 or 0. -/
def encEnable (n : Fin 16) (s : State) : State :=
  let (a, b) := encCells s n
  let s := modAx n (fun x => { x with enc := { no := x.enc.no, a := a, b := b, rawA := a, rawB := b } }) s
  alarmGone 0x0708 (axisSrc n) (setF (.ax n) Ax.ENC_STATUS 0 (setF (.ax n) Ax.ENC_COUNT 0 s))

def encDisable (n : Fin 16) (s : State) : State :=
  axEval n (srcStops n 16 s)

/-- An encoder input is in service. -/
def encRuns (s : State) (n : Fin 16) : Bool := live s (.ax n) && flag s (.ax n) Ax.ENC_CFG_EN

/-- The input decodes the levels that count now, whose edge came at `now` ns of elapsed time (R227): one step of the quadrature cycle,
or a change of both lines. -/
def encStep (n : Fin 16) (now : Nat) (la lb : Bool) (s : State) : State :=
  let e := (s.ax[n]).enc
  let step := (quadIndex la lb + 4 - quadIndex e.a e.b) % 4
  let s := modAx n (fun x => { x with enc := { x.enc with a := la, b := lb } }) s
  if step = 0 then s
  else if step = 2 then fbCauses n (raiseAlarm 0x0708 (axisSrc n) 1 true (setF (.ax n) Ax.ENC_STATUS 1 s))
  else
    let up := (step == 1) != flag s (.ax n) Ax.ENC_CFG_DIR
    let c := if up then e.c + 1 else e.c - 1
    let es := (now, c) :: e.edges.filter (fun p => decide (now ≤ p.1 + 1000000))
    setI (.ax n) Ax.ENC_COUNT c (modAx n (fun x => { x with enc := { x.enc with c := c, edges := es } }) s)

/-- The sample `h` grid instants before the present one (R183, R227): a level counts once two samples have held it. -/
def encSenseAt (h : Nat) (n : Fin 16) (s : State) : State :=
  if !encRuns s n then s
  else
    let (ra, rb) := encCellsAt (grid s - h) s n
    let e := (s.ax[n]).enc
    let la := if ra = e.rawA then ra else e.a
    let lb := if rb = e.rawB then rb else e.b
    let s := modAx n (fun x => { x with enc := { x.enc with rawA := ra, rawB := rb } }) s
    encStep n ((s.elapsed - (h + 1) * 5 * 2 ^ 27) / 2 ^ 28) la lb s

/-- The two samples of a fabric cycle. -/
def encSense (n : Fin 16) (s : State) : State := encSenseAt 0 n (encSenseAt 1 n s)

/-- ENCODER_TRANSITION: levels on the cells of an encoder input that have held for two samples. -/
def encTransition (n : Fin 16) (a b : Bool) (s : State) : State :=
  let pa := fin64 (getF s (.ax n) Ax.ENC_CFG_PTA)
  let pb := fin64 (getF s (.ax n) Ax.ENC_CFG_PTB)
  let s := pinSet pb b (pinSet pa a s)
  if !encRuns s n then s
  else
    let (la, lb) := encCells s n
    let now := elapsedNs s
    encStep n now la lb (modAx n (fun x => { x with enc := { x.enc with rawA := la, rawB := lb } }) s)

def execEncoderTransition (n : Fin 16) (a b : Bool) (s : State) : Outcome := .next (encTransition n a b s)

/-- The encoder velocity: a quotient with no interval has no stated value (log 64). -/
def encVelocity (s : State) (n : Fin 16) : Int × State :=
  let e := (s.ax[n]).enc
  match e.edges with
  | [] => (0, s)
  | (tl, cl) :: rest =>
    if 1000000 < elapsedNs s - tl then (0, s)
    else
      let near := ((tl, cl) :: rest).filter (fun p => decide (tl ≤ p.1 + 1000000) && decide ((cl - p.2).natAbs ≤ 16))
      match near.getLast? with
      | none => (0, s)
      | some (t0, c0) =>
        if tl = t0 then (toSigned 32 (freeVal s), freeNext s)
        else
          let v := (cl - c0) * 2 ^ 16 * 1000000000
          (satS 32 (roundEven v (getF s (.ax n) Ax.ENC_N * (tl - t0))), s)

/-- ENCODER_SAMPLE: C is taken at a frame boundary and published. -/
def encSample (n : Fin 16) (s : State) : State :=
  let f := frameNs s
  let t := s.time.now / f * f
  let e := (s.ax[n]).enc
  if !(live s (.ax n) && flag s (.ax n) Ax.ENC_CFG_EN) || (decide (0 < e.no) && e.pubT == t) then s
  else
    let (v, s) := encVelocity s n
    let te : Int := (elapsedNs s : Int) - (s.time.now - t : Nat)
    let ep := timeEpoch s
    let st := (if flag s (.ax n) Ax.ENC_STATUS then 0 else 0x80) + 2 * getF s .time Time.STATUS_DISC
    modAx n (fun x => { x with enc := { x.enc with no := x.enc.no + 1, pubC := x.enc.c, pubV := v, pubT := t, pubTe := te,
                                                   pubEp := ep, pubSt := st } }) s

def execEncoderSample (n : Fin 16) (s : State) : Outcome := .next (encSample n s)

/-! ### Writes (R179, R181, R225, R226) -/

/-- The store of an axis register. -/
def axStore (n : Fin 16) (off : Nat) (w : Word) (s : State) : State :=
  let kept := running s (.ax n) && rwoChanged s (.ax n) off w
  let on := becomes s (.ax n) Ax.ENC_CFG_EN w 1
  let off0 := becomes s (.ax n) Ax.ENC_CFG_EN w 0
  let fb := getF s (.ax n) Ax.FB_SRC_FBSRC
  let s := storeFields (.ax n) off w s
  if off = 0x8 then
    if kept then s
    else
      let p := (srcPub s n (axPrim s n)).no
      axEval n (modAx n (fun x => { x with prim := { seen := p }, sec := { x.sec with init := false },
                                           xcAt := none, xcClrAt := none }) s)
  else if off = 0x10 then
    if kept then s
    else
      let o := toSigned 64 (getF s (.ax n) Ax.POS_OFS_LO + 2 ^ 32 * getF s (.ax n) Ax.POS_OFS_HI)
      modAx n (fun x => { x with ofsPend := some o }) s
  else if off = 0x60 then
    let t := axHoldT s n
    modAx n (fun x => { x with holdT := min x.holdT t }) s
  else if off = 0x34 then (if on then encEnable n s else if off0 then encDisable n s else s)
  else if off = 0x64 then
    if getF s (.ax n) Ax.FB_SRC_FBSRC = fb then s
    else
      let p := (srcPub s n (axSec s n)).no
      axEval n (modAx n (fun x => { x with sec := { seen := p } }) s)
  else if off = 0x78 then
    if axFb s n = 3 then
      let c := getF s (.ax n) Ax.SAFE_CMD
      forAll (axLoops s n) (fun l s => if lpState s l = 6 then setF (.lp l) Lp.U c s else s) (setF (.ax n) Ax.U c s)
    else s
  else if off = 0x7C then
    tenUpdate n (if fieldOf w Ax.TEN_ARM = 1 then modAx n (fun x => { x with armed := true }) s else s)
  else if off = 0x80 then fbCommand n w s
  else s

def axWrite (ag : Agent) (n : Fin 16) (off : Nat) (w : Word) (s : State) : State :=
  judgedWrite ag (.ax n) off w (axStore n off w) s

def execAxisFallback (ag : Agent) (n : Fin 16) (w : Word) (s : State) : Outcome := .next (axWrite ag n 0x80 w s)
def execAxisSafe (ag : Agent) (n : Fin 16) (w : Word) (s : State) : Outcome := .next (axWrite ag n 0x80 w s)
def execAxisClear (ag : Agent) (n : Fin 16) (w : Word) (s : State) : Outcome := .next (axWrite ag n 0x80 w s)
def execTenArm (ag : Agent) (n : Fin 16) (w : Word) (s : State) : Outcome := .next (axWrite ag n 0x7C w s)
def execAxisSrcWrite (ag : Agent) (n : Fin 16) (w : Word) (s : State) : Outcome := .next (axWrite ag n 0x8 w s)
def execAxisOffsetLoWrite (ag : Agent) (n : Fin 16) (w : Word) (s : State) : Outcome := .next (axWrite ag n 0xC w s)
def execAxisOffsetCommit (ag : Agent) (n : Fin 16) (w : Word) (s : State) : Outcome := .next (axWrite ag n 0x10 w s)
def execEncoderEnable (ag : Agent) (n : Fin 16) (w : Word) (s : State) : Outcome := .next (axWrite ag n 0x34 w s)

/-- A read of AXn_POS_LO captures the rest of the same delivery (R228). -/
def axSnap (n : Fin 16) (s : State) : State :=
  let d := (s.ax[n]).del
  let p := ofSigned 64 d.pos
  setF (.ax n) Ax.STAT (d.status * 2 ^ 24 + d.validity * 2 ^ 16 + d.epoch % 2 ^ 16)
    (setF (.ax n) Ax.TS (d.t % 2 ^ 32) (setI (.ax n) Ax.VEL d.vel (setF (.ax n) Ax.POS_HI (p / 2 ^ 32) s)))

end Sys2Proof.Machine
end

