-- ==== Sys2Proof/Machine/Integrity.lean ====
section
/-!
DEFINITION. The six monitors of a resolver channel (R167–R171, R178). A test point counts; MONITOR_ACTIVE and
MONITOR_INACTIVE make the transition a count has made due.
-/

namespace Sys2Proof.Machine

/-- Bit of INT_ACTIVE of a monitor (R180). -/
def monBit : Monitor → Fin 6
  | .los => 0 | .dos => 1 | .lot => 2 | .stuck => 3 | .phase => 4 | .exc => 5

def monActive (s : State) (c : Fin 16) (m : Monitor) : Bool := bitAt (getF s (.rc c) Rc.INT_ACTIVE) (monBit m) == 1

/-- Grade of a monitor's alarm (R178). -/
def monGrade (s : State) (c : Fin 16) : Monitor → Nat
  | .dos => getF s (.rc c) Rc.INT_CTRL_DOSACT
  | .phase => getF s (.rc c) Rc.INT_CTRL_PHACT
  | _ => 1

/-- A present condition of INT_CAUSE. -/
def setCause (c : Fin 16) (i : Nat) (b : Bool) (s : State) : State :=
  let v := getF s (.rc c) Rc.INT_CAUSE
  setF (.rc c) Rc.INT_CAUSE (v - bitAt v i * 2 ^ i + bitOf b * 2 ^ i) s

def setDue (c : Fin 16) (m : Monitor) (n : Nat) (d : Bool) : State → State :=
  modRc c (fun x => { x with cnt := x.cnt.set (monBit m) n, due := x.due.set (monBit m) d })

/-- One test point of a monitor that counts test points: its condition while inactive, its release while active. -/
def monTest (c : Fin 16) (m : Monitor) (cond rel : Bool) (dwell : Nat) (s : State) : State :=
  let t := if monActive s c m then rel else cond
  let k := (s.rc[c]).cnt[monBit m] + 1
  if t then setDue c m (min k 255) (decide (dwell ≤ k)) s else setDue c m 0 false s

/-- A monitor becomes active (R171): its event bit, its kept alarm; its axes show the cause and are evaluated at the next publish of the
source they use (R176). -/
def monOn (c : Fin 16) (m : Monitor) (s : State) : State :=
  let s := setF (.rc c) Rc.INT_ACTIVE (getF s (.rc c) Rc.INT_ACTIVE ||| 2 ^ (monBit m).val) (setDue c m 0 false s)
  let s := modRc c (fun x => { x with lotAt := if m = .lot then none else x.lotAt }) s
  let s := raiseBit (.rc c) Rc.INT_EVENT (monBit m) s
  forAll (channelAxes s c) fbCauses (raiseAlarm (0x0701 + (monBit m).val) (blkBase (.rc c)) (monGrade s c m) true s)

/-- A monitor becomes inactive. -/
def monOff (c : Fin 16) (m : Monitor) (s : State) : State :=
  if monActive s c m then
    let s := setF (.rc c) Rc.INT_ACTIVE (getF s (.rc c) Rc.INT_ACTIVE - 2 ^ (monBit m).val) (setDue c m 0 false s)
    let s := modRc c (fun x => { x with lotAt := if m = .lot then none else x.lotAt }) s
    forAll (channelAxes s c) fbCauses (alarmGone (0x0701 + (monBit m).val) (blkBase (.rc c)) s)
  else setDue c m 0 false s

/-- MONITOR_ACTIVE and MONITOR_INACTIVE. -/
def monitorActive (c : Fin 16) (m : Monitor) (s : State) : State :=
  if live s (.rc c) && (s.rc[c]).due[monBit m] && !monActive s c m then monOn c m s else s
def monitorInactive (c : Fin 16) (m : Monitor) (s : State) : State :=
  if live s (.rc c) && (s.rc[c]).due[monBit m] && monActive s c m then monOff c m s else s

def execMonitorActive (c : Fin 16) (m : Monitor) (s : State) : Outcome := .next (monitorActive c m s)
def execMonitorInactive (c : Fin 16) (m : Monitor) (s : State) : Outcome := .next (monitorInactive c m s)

/-- Outside TRACK the monitors LOT, DOS and PHASE and the angle-frozen test do not run (R167). -/
def monIdleTrack (c : Fin 16) (s : State) : State :=
  let s := forAll [Monitor.dos, .lot, .phase] (monOff c) s
  let s := forAll [3, 4, 5, 6, 7, 10] (fun i s => setCause c i false s) s
  modRc c (fun x => { x with lotAt := none, winAt := none, frozenAng := false, winHeld := true }) s

/-- Where the converter goes OFF or PARKED every monitor becomes inactive at once (R171); the same where the monitors do not run
any longer, in isolation, under reset and in DORMANT (R167, R179). -/
def monAllOff (c : Fin 16) (s : State) : State :=
  let s := forAll [Monitor.los, .stuck, .exc] (monOff c) (monIdleTrack c s)
  setF (.rc c) Rc.INT_CAUSE 0 (modRc c (fun x => { x with stuckAt := none, clkfAt := none }) s)

/-- The reference generator is OFF, SAFE, TRIPPED or RETRY_WAIT (R167). -/
def genDown (s : State) (c : Fin 16) : Bool :=
  match refGen s c with
  | none => false
  | some g => let st := exgState s g; st == 0 || st == 4 || st == 5 || st == 6

/-- A modulator condition lies at most 64 modulator clocks back (R100, R167, log 59). -/
def modRecent (s : State) (t : Option Nat) : Bool :=
  match t with | none => false | some t => decide (sinceNs s t < 1280)

/-! ### Test points -/

/-- LOT at a usable update (R167): its dwell is a time, its clamp part acts at once. -/
def lotTest (c : Fin 16) (clamp : Bool) (s : State) : State :=
  let thr := getF s (.rc c) Rc.INT_LOT_THR
  let ef := (s.rc[c]).ef
  let now := s.elapsed
  let s := setCause c 7 clamp (setCause c 6 (decide (thr < ef)) s)
  let act := monActive s c .lot
  if clamp && !act then setDue c .lot 0 true (modRc c (fun x => { x with lotAt := some now }) s)
  else
    let t := if act then decide (2 * ef ≤ thr) && !clamp else decide (thr < ef)
    if !t then setDue c .lot 0 false (modRc c (fun x => { x with lotAt := none }) s)
    else
      let a := (s.rc[c]).lotAt.getD now
      setDue c .lot 0 (decide (10000 * getF s (.rc c) Rc.INT_LOT_DWELL ≤ sinceNs s a))
        (modRc c (fun x => { x with lotAt := some a }) s)

/-- The effort of an axis bound to the channel exceeds INT_STK.EFF (R168, log 60). -/
def effortHigh (s : State) (c : Fin 16) : Bool :=
  (channelAxes s c).any (fun n => decide (getF s (.rc c) Rc.INT_STK_EFF * 2 ^ 15 < (getI s (.ax n) Ax.U).natAbs))

/-- The generator is ON and the effort high (R168). -/
def stuckHeld (s : State) (c : Fin 16) : Bool :=
  (match refGen s c with | some g => exgState s g == 2 | none => false) && effortHigh s c

/-- The angle-frozen window sees a published ANGLE. -/
def windowSee (c : Fin 16) (s : State) : State :=
  let a := getF s (.rc c) Rc.ANGLE_ANGLE
  let now := s.elapsed
  let held := stuckHeld s c
  modRc c (fun x =>
    match x.winAt with
    | none => { x with winAt := some now, winA := a, winLo := 0, winHi := 0, winHeld := held }
    | some _ =>
      let d := toSigned 24 (a + 2 ^ 24 - x.winA % 2 ^ 24)
      { x with winLo := min x.winLo d, winHi := max x.winHi d, winHeld := x.winHeld && held }) s

/-- STUCK_WINDOW_END (R168): pass, fail, or the outcome of the window before. -/
def stuckWindowEnd (c : Fin 16) (s : State) : State :=
  match (s.rc[c]).winAt with
  | none => s
  | some t =>
    let w := getF s (.rc c) Rc.INT_STK_WIN * 1000000
    if !(live s (.rc c) && decide (w ≤ sinceNs s t)) then s
    else
      let x := s.rc[c]
      let f :=
        if (getF s (.rc c) Rc.INT_STK_ANG : Int) < x.winHi - x.winLo then false
        else if x.winHeld then true
        else if (channelAxes s c).isEmpty then false
        else x.frozenAng
      let a := getF s (.rc c) Rc.ANGLE_ANGLE
      let held := stuckHeld s c
      let s := modRc c (fun y => { y with frozenAng := f, winAt := some (t + w * 2 ^ 28), winA := a, winLo := 0, winHi := 0,
                                          winHeld := held }) s
      let s := setCause c 10 f s
      if f && !monActive s c .stuck then setDue c .stuck 0 true s else s

def execStuckWindowEnd (c : Fin 16) (s : State) : Outcome := .next (stuckWindowEnd c s)

/-- The parts tested at every update: NOREF and the generator for LOS, whose release count they restart (R171), the modulators for
STUCK, and LOT (R167). -/
def monAtUpdate (c : Fin 16) (noref usable clamp : Bool) (s : State) : State :=
  let down := genDown s c
  let x := s.rc[c]
  let ms := modRecent s x.stuckAt
  let mc := modRecent s x.clkfAt
  let s := setCause c 9 mc (setCause c 8 ms (setCause c 2 down (setCause c 1 noref s)))
  let s := if noref || down then setDue c .los 0 (!monActive s c .los) s else s
  let stuck := ms || mc || (s.rc[c]).frozenAng
  let s := setDue c .stuck 0 (stuck != monActive s c .stuck) s
  if getF s (.rc c) Rc.TRK_STATUS_STATE = 2 ∧ usable then lotTest c clamp s else s

/-- The monitors at a carrier cycle end of the reference generator; `limited`: a limit event occurred in the cycle. -/
def monAtCycle (c g : Fin 16) (limited : Bool) (ovl : Nat) (s : State) : State :=
  let st := getF s (.rc c) Rc.TRK_STATUS_STATE
  if !(st == 1 || st == 2) then s
  else
    let a := (s.rc[c]).amp
    let v := getF s (.rc c) Rc.INT_CAUSE
    let nd := bitAt v 1 == 1 || bitAt v 2 == 1
    let thr := getF s (.rc c) Rc.INT_LOS_THR
    let known := (s.rc[c]).ampSet
    let low := known && decide (a < thr)
    let s := setCause c 0 low s
    let s := monTest c .los (low || nd) ((!known || decide (5 * thr ≤ 4 * a)) && !nd) (if nd && !monActive s c .los then 0
      else getF s (.rc c) Rc.INT_LOS_DWELL) s
    let irms := getF s (.exg g) Exg.IRMS
    let opn := getF s (.rc c) Rc.INT_EXC_OPEN
    let on := exgState s g == 2
    let sc := flag s (.exg g) Exg.STATUS_SC
    let open_ := on && decide (irms < opn)
    let short := sc || limited
    let s := setCause c 12 short (setCause c 11 open_ s)
    let s := monTest c .exc (open_ || short) (!(on && decide (4 * irms < 5 * opn)) && !short)
      (if sc && !monActive s c .exc then 0 else getF s (.rc c) Rc.INT_EXC_DWELL) s
    if st ≠ 2 then s
    else
      let lo := getF s (.rc c) Rc.INT_DOS_LO_THR
      let hi := getF s (.rc c) Rc.INT_DOS_HI_THR
      let ovls := decide (getF s (.rc c) Rc.INT_DOS_HI_OVLMAX < ovl)
      let s := setCause c 5 ovls (setCause c 4 (decide (hi < a)) (setCause c 3 (decide (a < lo)) s))
      monTest c .dos (decide (a < lo) || decide (hi < a) || ovls)
        (decide (17 * lo ≤ 16 * a) && decide (16 * a ≤ 15 * hi) && !ovls) (getF s (.rc c) Rc.INT_DOS_LO_DWELL) s

/-- PHASE at an accepted carrier cycle (R167): θ_n against BASE, both in 2^-32 cycle. -/
def monPhase (c : Fin 16) (s : State) : State :=
  let d0 := ((s.rc[c]).theta + 2 ^ 32 - getF s (.rc c) Rc.INT_PHBASE * 2 ^ 16) % 2 ^ 32
  let d := if 2 ^ 31 < d0 then 2 ^ 32 - d0 else d0
  let thr := getF s (.rc c) Rc.INT_PH_THR * 2 ^ 16
  if getF s (.rc c) Rc.TRK_STATUS_STATE = 2 then
    monTest c .phase (decide (thr < d)) (decide (2 * d ≤ thr)) (getF s (.rc c) Rc.INT_PH_DWELL) s
  else s

end Sys2Proof.Machine
end

