-- ==== Sys2Proof/Machine/Tracking.lean ====
section
/-!
DEFINITION. Tracking converters: the carrier-weighted update, publishing, the carrier cycle end with phase alignment and
coarse angle, the converter states, and the synchronising reset (R67, R116, R120, R126–R149).
-/

namespace Sys2Proof.Machine

def trkState (s : State) (n : Fin 16) : Nat := getF s (.rc n) Rc.TRK_STATUS_STATE
def setTrk (n : Fin 16) (st : Nat) : State → State := setF (.rc n) Rc.TRK_STATUS_STATE st

/-- AFLOOR in UQ2.22 (R127), and the clamp of V in 2^-64 electrical rev per 320 ns (R147). -/
def aFloor : Nat := 65536
def vMax : Int := (2 ^ 40 - 1) * 2 ^ 16

/-- ef as the converter leaves OFF: 2^24 / (2 π) (R138). -/
def efStart : Nat := (roundOpen 17 (2 ^ 24 / (2 * pi60))).toNat

/-! ### States (R136, R138) -/

/-- The held RCn_ANGLE loses LOCK, as the rows of PARKED and OFF ask; LOCKLOSS is the clearing's of R142 alone (log 136). -/
def heldUnlock (n : Fin 16) (s : State) : State :=
  let v := getF s (.rc n) Rc.ANGLE_STATUS
  setF (.rc n) Rc.ANGLE_STATUS (v % 128) (modRc n (fun x => { x with lock := false, lockN := 0 }) s)

/-- PHVHOLD ends where no cycle fails by its velocity any longer (R135). -/
def phvRelease (n : Fin 16) : State → State := setF (.rc n) Rc.TRK_STATUS_PHVHOLD 0

/-- Publishing stops: the axes lose the source, and initialise it at its next publish (R225), also where a re-acquisition had kept
their accumulators. -/
def rcSilent (n : Fin 16) (s : State) : State := channelStops n (modRc n (fun x => { x with live := false }) s)

/-- The sums of the coarse cycle are discarded: the next one starts at the next cycle end. -/
def coarseClear (n : Fin 16) : State → State :=
  modRc n (fun x => { x with whole := false, ss := 0, sc := 0, sw := 0, sn := 0 })

/-- The sums of the phase measurement are cleared for a new cycle. -/
def cycleClear (whole : Bool) (n : Fin 16) : State → State :=
  modRc n (fun x => { x with qa := 0, ia := 0, cycWhole := whole, cycBad := false, cycLow := false, cycFast := false,
                             cycOvl := 0 })

/-- θ_n set, in 2^-32 cycle, and shown in RCn_CPH. -/
def setTheta (n : Fin 16) (t : Nat) (s : State) : State :=
  setI (.rc n) Rc.CPH (roundOpen 18 ((t : Rat) / 2 ^ 16)) (modRc n (fun x => { x with theta := t % 2 ^ 32 }) s)

/-- Isolation or reset of the channel, or of the filter engine: it publishes nothing and its monitors do not run (R28, R167). -/
def rcLost (n : Fin 16) (s : State) : State := rcSilent n (monAllOff n s)

/-- Entry to COARSE that is a re-acquisition (R138, R140): TURNS, V and θ_n kept. The axes lose the source (R175) but keep their
accumulators, which the next publish passes through its difference (R225). -/
def rcReacquire (n : Fin 16) (s : State) : State :=
  let s := channelEval n (modRc n (fun x => { x with live := false }) (setTrk n 1 s))
  let s := coarseClear n (modRc n (fun x => { x with fromOff := false, reacq := true, lockN := 0 }) s)
  raiseF (.rc n) Rc.TRK_STATUS_REACQEV (monIdleTrack n s)

/-- EN written 1 in OFF. -/
def rcStart (n : Fin 16) (s : State) : State :=
  let tset := getI s (.rc n) Rc.TSET
  let s := setTrk n 1 s
  let s := modRc n (fun x => { x with p := tset * 2 ^ 64 + x.p % 2 ^ 64, v := 0, ef := efStart, amp := 0, ampSet := false,
                                      phAcq := true, phN := 0, fromOff := true, hands := [], updT := none, lockN := 0 }) s
  let s := setF (.rc n) Rc.AMP 0 (setF (.rc n) Rc.TRKERR efStart s)
  coarseClear n (cycleClear false n (setTheta n (getF s (.rc n) Rc.CPH_SET * 2 ^ 16) (phvRelease n s)))

/-- The converter goes OFF or PARKED. -/
def rcStop (n : Fin 16) (st : Nat) (s : State) : State :=
  let s := modRc n (fun x => { x with hands := [] }) (setTrk n st (phvRelease n s))
  let s := if st = 0 then lensDrop n (modRc n (fun x => { x with updT := none, ampSet := false }) s) else s
  rcSilent n (monAllOff n (heldUnlock n s))

/-- A channel leaves or joins the served set (R121, R138). -/
def rcPark (n : Fin 16) (s : State) : State := if trkState s n = 1 ∨ trkState s n = 2 then rcStop n 3 s else s
def rcUnpark (n : Fin 16) (s : State) : State :=
  if trkState s n = 3 then cycleClear false n (rcReacquire n s) else s

/-- A write of RCn_TRK_CTRL: EN written 0 wins (R138). -/
def rcControl (n : Fin 16) (w : Word) (s : State) : State :=
  if fieldOf w Rc.TRK_CTRL_EN = 0 then (if trkState s n = 0 then s else rcStop n 0 s)
  else
    let s := if trkState s n = 0 then rcStart n s else s
    if fieldOf w Rc.TRK_CTRL_REACQ = 1 then
      (if trkState s n = 2 then rcReacquire n s else if trkState s n = 1 then coarseClear n s else s)
    else s

/-- The store of a register of a resolver channel (R124, R131, R138, R169). -/
def rcStore (n : Fin 16) (off : Nat) (w : Word) (s : State) : State :=
  let s := storeFields (.rc n) off w s
  if off = 0x20 then rcControl n w s
  else if off = 0x28 then
    let k := (getF s (.rc n) Rc.TRK_K1, getF s (.rc n) Rc.TRK_K2)
    modRc n (fun x => { x with kPend := some k }) s
  else if off = 0x100 ∧ fieldOf w Rc.ACQ_CNTCLR = 1 then
    setF (.rc n) Rc.ACQCNT_SPKCNT 0 (setF (.rc n) Rc.ACQCNT_OVLCNT 0 s)
  else if off = 0x21C then setDue n .phase 0 false s
  else s

def rcWrite (ag : Agent) (n : Fin 16) (off : Nat) (w : Word) (s : State) : State :=
  judgedWrite ag (.rc n) off w (rcStore n off w) s

def execConverterEnable (ag : Agent) (n : Fin 16) (w : Word) (s : State) : Outcome := .next (rcWrite ag n 0x20 w s)
def execConverterDisable (ag : Agent) (n : Fin 16) (w : Word) (s : State) : Outcome := .next (rcWrite ag n 0x20 w s)
def execReacquire (ag : Agent) (n : Fin 16) (w : Word) (s : State) : Outcome := .next (rcWrite ag n 0x20 w s)
def execTrkK1Write (ag : Agent) (n : Fin 16) (w : Word) (s : State) : Outcome := .next (rcWrite ag n 0x24 w s)
def execTrkGainCommit (ag : Agent) (n : Fin 16) (w : Word) (s : State) : Outcome := .next (rcWrite ag n 0x28 w s)
def execAcqCountClear (ag : Agent) (n : Fin 16) (w : Word) (s : State) : Outcome := .next (rcWrite ag n 0x100 w s)

/-! ### The update (R127–R130) -/

/-- Frequency of the reference generator as its word; 400 MHz / 2^32 each (R69). -/
def rcVlim (s : State) (n : Fin 16) : Nat :=
  match refGen s n with
  | none => 0
  | some g => min (5000 * 65536) (roundOpen 11 ((getF s (.exg g) Exg.FREQ : Rat) * 400000000 / 2 ^ 19)).toNat

/-- Interval of the prediction in ns (R129, R130): the frame, but the whole interval after a gap in the sample instants. -/
def updDt (x : RcSt) (h : HandOff) : Nat :=
  let f := 320 * 2 ^ h.m
  match x.updT with
  | none => f
  | some t => if (h.te - t - f).natAbs ≤ 1 ∨ h.te ≤ t then f else (h.te - t).toNat

/-- Prediction: the acceleration part and the velocity (R129, R133). -/
def predict (s : State) (n : Fin 16) (dt : Nat) (x : RcSt) : RcSt :=
  let x :=
    if flag s (.rc n) Rc.TRK_CTRL_AFFEN then
      let a := getI s (.rc n) Rc.TRK_AFF
      { x with p := x.p + roundEven (a * dt * dt * 2 ^ 64) (512 * 1000000000000000000),
               v := x.v + roundEven (a * dt * 320 * 2 ^ 64) (256 * 1000000000000000000) }
    else x
  { x with p := toSigned 96 (ofSigned 96 (x.p + roundEven (x.v * dt) 320)) }

/-- Entry i of the converter's table, Q1.23, and its linear interpolation at a 48-bit angle (R129). -/
def trkTable (i : Nat) : Int := satS 24 (sinTurn 23 (i % 4096) 4096)
def trkSine (a : Nat) : Int :=
  let i := a / 2 ^ 36 % 4096
  let y := trkTable i
  roundOpen 6 ((y : Rat) + ((trkTable (i + 1) - y : Int) : Rat) * ((a % 2 ^ 36 : Nat) : Rat) / 2 ^ 36)

/-- The quotient, exact to 2^-24 of itself (R129, log 53). -/
def quotient (q : Rat) : Rat :=
  q + (if q < 0 then -q else q) * ((clampI (-256) 256 (Config.quotientError q) : Int) : Rat) / 2 ^ 32

/-- V held to 41 bits by its clamp (R147), and whether the clamp acted. -/
def clampV (x : RcSt) : RcSt × Bool :=
  let v := clampI (-vMax) vMax x.v
  ({ x with v := v }, v != x.v)

/-- The correction of a usable hand-off, and whether the velocity clamp acted (R129). Where the division by w × Â has no divisor the
quotient is open, `q0` in [-1, 1], and so is mag / w where w is 0, `a0` (log 56). -/
def correct (q0 : Rat) (a0 : Int) (h : HandOff) (x : RcSt) : RcSt × Bool :=
  let a := (x.p / 2 ^ 16 % 2 ^ 48).toNat
  let sn := trkSine a
  let cs := trkSine (a + 2 ^ 46)
  let w := h.r * h.r
  let mag := h.ps * sn + h.pc * cs
  let q := if w * x.amp = 0 then q0 else quotient (((h.ps * cs - h.pc * sn) * 2 ^ 11 : Int) / ((w * x.amp : Int) : Rat))
  let q := if q < -1 then -1 else if 1 < q then 1 else q
  let e := roundOpen 7 (q * 2 ^ 30 / pi60)
  let am := if w = 0 then a0 else roundOpen 8 (((mag * 2 ^ 11 : Int) : Rat) / (w : Rat))
  let amp := clampI 0 (2 ^ 24 - 1) ((x.amp : Int) + (am - x.amp) / 2 ^ (10 - h.m))
  clampV { x with amp := amp.toNat, p := toSigned 96 (ofSigned 96 (x.p + 2 ^ h.m * x.k1 * e * 2)),
                  v := x.v + roundEven (2 ^ h.m * x.k2 * e) (2 ^ 7),
                  ef := ((x.ef : Int) + ((e.natAbs / 128 : Nat) - (x.ef : Int)) / 2 ^ 8).toNat }

/-- An update's correction where the hand-off is usable, else the clamp alone (R127, R129, R147); open values are free. -/
def correctOn (usable : Bool) (h : HandOff) (x : RcSt) (s : State) : RcSt × Bool × State :=
  if usable then
    let f := s.free
    let (y, c) := correct (((Config.freeValue f % 2 ^ 32 : Nat) : Rat) / 2 ^ 31 - 1) (Config.freeValue (f + 1)) h x
    (y, c, if h.r * h.r * x.amp = 0 then { s with free := f + 2 } else s)
  else
    let (y, c) := clampV x
    (y, c, s)

/-- The lock test at a usable update (R142); LOCK_ACQUIRED sets LOCK. -/
def lockTest (n : Fin 16) (s : State) : State :=
  let thr := getF s (.rc n) Rc.TRK_LOCK
  let x := s.rc[n]
  let s := modRc n (fun x => { x with lockN := if x.ef ≤ thr then min 1024 (x.lockN + 1) else 0 }) s
  if x.lock && decide (4 * thr < x.ef) then
    raiseF (.rc n) Rc.TRK_STATUS_LOCKLOSS (modRc n (fun x => { x with lock := false }) s)
  else s

/-- ANGLE (R143), whose four low bits BEACON publishes as 0 (R413). -/
def rcAngle (s : State) (x : RcSt) : Nat :=
  let a := (x.p / 2 ^ 40 % 2 ^ 24).toNat
  if mode s = 3 then a / 16 * 16 else a

/-- V as velocity in 2^-16 electrical rev/s (R143), and whether it exceeds VLIM (R147). -/
def rcVel (x : RcSt) : Int := roundEven (x.v * 3125000) (2 ^ 48)
def rcOver (s : State) (n : Fin 16) : Bool :=
  decide (0 < rcVlim s n) && decide (rcVlim s n < (rcVel (s.rc[n])).natAbs)

/-- The result set of an update in TRACK (R143, R146), its Lens correction and what Lens learns from it. -/
def rcPublish (n : Fin 16) (h : HandOff) (s : State) : State :=
  let x := s.rc[n]
  let vel := rcVel x
  let ovspd := rcOver s n
  let extrap := h.inv || h.noref
  let st := 128 * bitOf x.lock + 64 * bitOf extrap + 32 * bitOf x.reacq + 16 * bitOf (getF s (.rc n) Rc.INT_ACTIVE != 0)
    + 8 * bitOf ovspd + 4 * bitOf x.phAcq + 2 * bitOf h.disc + bitOf (h.ovlS || h.ovlC)
  let pos := wrap64 (x.p / 2 ^ 32)
  let s := setF (.rc n) Rc.ANGLE_STATUS st (setF (.rc n) Rc.ANGLE_ANGLE (rcAngle s x) s)
  let s := raiseIf extrap (.rc n) Rc.TRK_STATUS_EXTRAPEV s
  let (corr, s) := lensCorrect n pos (lensBegin n s)
  let p : Pub := { no := x.pub.no + 1, pos := pos, turns := pos / 2 ^ 32, corr := corr, vel := vel, t := h.t, te := h.te,
                   epoch := timeEpoch s, status := st }
  lensPublish n p (windowSee n (modRc n (fun x => { x with pub := p, live := true }) s))

/-- One update on a hand-off (R126–R130, R134, R135, R141–R143). -/
def rcUpdate (n : Fin 16) (h : HandOff) (s : State) : State :=
  let x := s.rc[n]
  let x := match x.kPend with | some (a, b) => { x with k1 := a, k2 := b, kPend := none } | none => x
  let v0 := x.v
  let x := predict s n (updDt x h) { x with updT := x.updT }
  let track := trkState s n == 2
  let ovl := h.ovlS || h.ovlC
  let bad := h.inv || h.noref || ovl
  let cu := !bad && decide (2 * getF s (.rc n) Rc.TRK_WMIN ≤ h.r.natAbs)
  let usable := cu && (!track || decide (aFloor ≤ x.amp))
  let x := if !track && cu && x.whole then
      { x with ss := x.ss + h.ps, sc := x.sc + h.pc, sw := x.sw + h.r * h.r, sn := x.sn + 1 } else x
  let pw := h.s * h.s + h.c * h.c
  let x := { x with qa := x.qa + 2 * pw * h.r * h.rq, ia := x.ia + pw * (h.r * h.r - h.rq * h.rq), cycBad := x.cycBad || bad,
                    cycOvl := x.cycOvl + bitOf ovl, updT := some h.te }
  let (y, clamp, s) := correctOn usable h x s
  let fast := fun (v : Int) => match refGen s n with
    | some g => decide (getF s (.exg g) Exg.FREQ * 2 ^ 35 < v.natAbs)
    | none => false
  let y := { y with cycLow := y.cycLow || decide (x.amp < aFloor) || decide (y.amp < aFloor),
                    cycFast := y.cycFast || fast v0 || fast y.v }
  let s := modRc n (fun _ => y) s
  let s := setF (.rc n) Rc.TRKERR y.ef (setF (.rc n) Rc.AMP y.amp s)
  let s := raiseIf (rcOver s n) (.rc n) Rc.TRK_STATUS_OVSPDEV (raiseIf clamp (.rc n) Rc.TRK_STATUS_VCLAMP s)
  let s := if usable then lockTest n s else s
  let s := monAtUpdate n h.noref usable clamp s
  if track then rcPublish n h s else s

/-- CONVERTER_UPDATE: the oldest hand-off; after unfreeze the first valid one re-acquires (R138). -/
def converterUpdate (n : Fin 16) (s : State) : State :=
  if !(live s (.rc n) && live s .fe && (trkState s n == 1 || trkState s n == 2)) then s
  else
    match (s.rc[n]).hands with
    | [] => s
    | h :: t =>
      let s := modRc n (fun x => { x with hands := t }) s
      let s := if (s.rc[n]).thawed && !h.inv && !flag s .fe Fe.STATUS_SRPEND then
          (let s := modRc n (fun x => { x with thawed := false }) s
           if trkState s n = 2 then rcReacquire n s else s)
        else s
      rcUpdate n h s

def execConverterUpdate (n : Fin 16) (s : State) : Outcome := .next (converterUpdate n s)

/-- LOCK_ACQUIRED (R140, R142): 1,024 consecutive usable updates with ef at or below THR, in COARSE too; REACQ waits for the count
that TRACK begins. The result of that update carries LOCK and no REACQ (log 57). -/
def lockAcquired (n : Fin 16) (s : State) : State :=
  let x := s.rc[n]
  let track := trkState s n == 2
  if live s (.rc n) && (track || trkState s n == 1) && decide (1024 ≤ x.lockN) && (!x.lock || (x.reacq && track)) then
    let s := modRc n (fun x => { x with lock := true, reacq := x.reacq && !track }) s
    if track && x.live then
      let st := getF s (.rc n) Rc.ANGLE_STATUS
      let st := 128 + st % 128 - 32 * bitAt st 5
      setF (.rc n) Rc.ANGLE_STATUS st (modRc n (fun x => { x with pub := { x.pub with status := st } }) s)
    else s
  else s

def execLockAcquired (n : Fin 16) (s : State) : Outcome := .next (lockAcquired n s)

/-- PHASE_ACQ_DONE (R136, R169). -/
def phaseDone (n : Fin 16) (s : State) : State :=
  let x := s.rc[n]
  if live s (.rc n) && x.phAcq && decide (1024 ≤ x.phN) then
    let s := modRc n (fun x => { x with phAcq := false }) s
    if flag s (.rc n) Rc.INT_CTRL_PHAUTO then
      setDue n .phase 0 false (setI (.rc n) Rc.INT_PHBASE (roundOpen 18 ((x.theta : Rat) / 2 ^ 16)) s)
    else s
  else s

def execPhaseAcqDone (n : Fin 16) (s : State) : Outcome := .next (phaseDone n s)

/-! ### Carrier cycle end (R134–R136, R139, R140) -/

/-- Delta of the cycle in 2^-48 cycle; sums that are both 0 have no angle (log 65). -/
def cycleDelta (n : Fin 16) (s : State) : Int × State :=
  let x := s.rc[n]
  if x.qa = 0 ∧ x.ia = 0 then (toSigned 47 (freeVal s), freeNext s)
  else
    let a := atanTurn x.qa x.ia
    (roundEven (if 2 ^ 47 < a then (a : Int) - 2 ^ 48 else a) 2, s)

/-- The phase measurement of a cycle (R134–R136): the state after it and whether the cycle was accepted. -/
def phaseCycle (n g : Fin 16) (s : State) : Bool × State :=
  let x := s.rc[n]
  let pm := getF s (.rc n) Rc.TRK_CTRL_PHMODE
  let fast := x.cycWhole && pm == 0 && x.cycFast
  let acc := x.cycWhole && pm == 0 && !x.cycBad && !x.cycLow && !x.cycFast
  let s := setF (.rc n) Rc.TRK_STATUS_PHVHOLD (bitOf fast) s
  if acc then
    let (d, s) := cycleDelta n s
    let f : Rat := (getF s (.exg g) Exg.FREQ : Rat) * 400000000 / 2 ^ 32
    let b : Rat := if x.phAcq then 50 else 1
    let mv := roundOpen 9 (2 * pi60 * b / f * (d : Rat) / 2 ^ 16)
    let s := setTheta n (ofSigned 32 ((x.theta : Int) + mv)) s
    let s := setI (.rc n) Rc.CPH_RES (roundOpen 10 ((d : Rat) / 2 ^ 32)) s
    (true, modRc n (fun x => { x with phN := if x.phAcq then min 1024 (x.phN + 1) else x.phN }) s)
  else if pm = 2 then (false, setTheta n (getF s (.rc n) Rc.CPH_SET * 2 ^ 16) s)
  else (false, s)

/-- The coarse angle and amplitude of a whole cycle, and entry to TRACK (R139, R140), where the count of the lock condition starts anew
after a re-acquisition alone (R142). A converter that has published nothing since
OFF and comes from PARKED counts the turns from its last published position all the same (log 135). -/
def coarseTrack (n : Fin 16) (s : State) : State :=
  let x := s.rc[n]
  let none_ := x.ss == 0 && x.sc == 0
  let phi : Int := if none_ then ((freeVal s % 2 ^ 48 : Nat) : Int) * 2 ^ 16 else (atanTurn x.ss x.sc : Int) * 2 ^ 16
  let s := if none_ then freeNext s else s
  let sq : Rat := ((x.ss * x.ss + x.sc * x.sc : Int) : Rat) * 2 ^ 68 / ((x.sw * x.sw : Int) : Rat)
  let r := Nat.sqrt sq.floor.toNat
  let amp := satU 24 (r + bitOf (decide (((r * r : Nat) : Rat) ≠ sq) && Config.roundsUp 12 sq))
  let p :=
    if x.fromOff then getI s (.rc n) Rc.TSET * 2 ^ 64 + phi
    else
      let last := x.pub.pos * 2 ^ 32
      let d := toSigned 64 (ofSigned 64 (phi - last))
      last + (if d = -(2 ^ 63) then 2 ^ 63 else d)
  let s := setF (.rc n) Rc.AMP amp (modRc n (fun x => { x with p := toSigned 96 (ofSigned 96 p), amp := amp, ampSet := true,
                                                                 lockN := if x.fromOff then x.lockN else 0 }) s)
  setTrk n 2 (coarseClear n s)

/-- The coarse part of a cycle end (R138, R139). -/
def coarseEnd (n : Fin 16) (s : State) : State :=
  let x := s.rc[n]
  if trkState s n ≠ 1 then s
  else if !x.whole then modRc n (fun x => { x with whole := true, ss := 0, sc := 0, sw := 0, sn := 0 }) s
  else if x.sn < 16 then
    raiseF (.rc n) Rc.TRK_STATUS_COARSEFAIL (modRc n (fun x => { x with ss := 0, sc := 0, sw := 0, sn := 0 }) s)
  else coarseTrack n s

/-- A channel's part of a cycle end of its reference generator, in COARSE and TRACK alone, PHMODE = 2 too (log 137). A cycle that began
on another generator, before a write of EXG_REFMASK, is closed as whole by the new one: the model's choice (log 165). -/
def channelCycle (g : Fin 16) (limited : Bool) (n : Fin 16) (s : State) : State :=
  if !(refGen s n == some g && live s (.rc n) && live s .fe && (trkState s n == 1 || trkState s n == 2)) then s
  else
    let ovl := (s.rc[n]).cycOvl
    let (acc, s) := phaseCycle n g s
    let s := monAtCycle n g limited ovl s
    let s := if acc then monPhase n s else s
    coarseEnd n (cycleClear true n s)

/-- CARRIER_CYCLE_END (R79, R80, R84, R86, R94, R134–R139, R167), at a crossing of the carrier's phase: the generator's own part
where it is in service, and the cycle of every channel that takes its reference from it. -/
def carrierCycleEnd (g : Fin 16) (irms ipk : Nat) (s : State) : State :=
  if !cycleDue s g then s
  else if bursting s then burstCycle g irms ipk s
  else
    let now := s.cycle
    let s := modExg g (fun x => { x with endCyc := some now }) s
    let limited := (s.exg[g]).limited
    let s := if live s (.exg g) then exgCycle g irms ipk s else s
    if clocked s .acquisition then forAll (List.finRange 16) (channelCycle g limited) s else s

def execCarrierCycleEnd (g : Fin 16) (irms ipk : Nat) (s : State) : Outcome := .next (carrierCycleEnd g irms ipk s)

/-! ### Synchronising reset (R67, R116, R117, R119–R121) -/

/-- Schedule of a mode (R123). -/
def schedOf (m : Nat) : Nat := if m ≤ 3 then m else 7

/-- The last frame boundary, as network time. -/
def frameStart (s : State) : Nat := s.time.now / frameNs s * frameNs s

/-- The reset is due: a boundary has come at or after every joined cause. -/
def srDue (s : State) : Bool :=
  match s.time.srCause with
  | none => false
  | some t => flag s .fe Fe.STATUS_SRPEND && decide (s.time.now - frameStart s ≤ sinceNs s t)

/-- The boundaries of the new grid: those recorded at its instants, the others as they follow from the present state. -/
def gridFrames (s : State) : List FrameRec :=
  let u := timeUnits s % (320 * 2 ^ 28)
  let s' := { s with fe := { s.fe with gridOff := 0 } }
  ((List.range 24).filter (fun j => decide (u + j * 320 * 2 ^ 28 ≤ min s.elapsed (timeUnits s)))).map (fun j =>
    let f := recordAt (u + j * 320 * 2 ^ 28) s'
    (s.fe.frames.find? (fun r => r.el == f.el && r.t == f.t)).getD f)

/-- The grid of the lanes follows network time again (R67, R116): the samples whose ticks have come keep what their lanes
hold, and the schedule that runs completes as it began. -/
def gridAlign (s : State) : State :=
  let s := forAll (List.finRange 8) auxRun s
  let fr := gridFrames s
  let due := s.fe.auxDue.map (fun d => { d with old := true })
  mcAlign { s with fe := { s.fe with frames := fr, gridOff := 0, auxDue := due } }

/-- The synchronising reset. Where it brings another frame, the schedules after it take the instants alone whose decimation ticks
follow B (R117, R120). -/
def synchronisingReset (s : State) : State :=
  if !(clocked s .acquisition && srDue s) then s
  else
    let b := frameStart s
    let sc := schedOf (mode s)
    let ended := feFrame s
    let bEl := s.elapsed - pastMultiple s (frameNs s)
    let s := gridAlign s
    let s := { s with lanes := s.lanes.map (fun (l : LaneSt) => { l with i1 := 0, i2 := 0, i3 := 0, clear := true, inv := 4 }) }
    let f := s.fe
    let s := { s with fe := { f with stepped := false, served := f.nextServed.getD f.served, nextServed := none } }
    let s := modTime (fun t => { t with srCause := none }) s
    let s := setF .fe Fe.STATUS_SCHED sc (setF .fe Fe.STATUS_SRPEND 0 s)
    let s := if feFrame s = ended then s else { s with fe := { s.fe with lastEl := none, from_ := bEl } }
    let s := setF .fe Fe.STATUS_SRCNT (getF s .fe Fe.STATUS_SRCNT + 1) s
    let s := setF .fe Fe.SREPOCH (timeEpoch s) (setF .fe Fe.SRTIME (b % 2 ^ 32) s)
    let s := forAll (List.finRange 8) (fun k s => if 0 < (s.ai[k]).cnt then rmsAbandon k s else s) s
    forAll (List.finRange 16) (fun n s => if served s n then rcUnpark n s else rcPark n s) s

def execSynchronisingReset (s : State) : Outcome := .next (synchronisingReset s)

/-- A read of RCn_ANGLE captures the rest of the same result set (R145). -/
def rcSnap (n : Fin 16) (s : State) : State :=
  let p := (s.rc[n]).pub
  setF (.rc n) Rc.SEPOCH p.epoch (setF (.rc n) Rc.TSTAMP (p.t % 2 ^ 32) (setI (.rc n) Rc.VEL p.vel
    (setI (.rc n) Rc.TURNS p.turns s)))

end Sys2Proof.Machine
end

