-- ==== Sys2Proof/Machine/Position.lean ====
section
/-!
DEFINITION. The consumers of the Port real-time bus: encoder emulators, SSI, latch units and sector comparators
(R182, R185–R204).
-/

namespace Sys2Proof.Machine

/-! ### Emulators (R185–R191) -/

def setEm (n : Fin 16) (st : Nat) : State → State := setF (.em n) Em.STATUS_STATE st

/-- Cells an emulator drives. -/
def emCells (s : State) (n : Fin 16) : List (Fin 64) := (List.finRange 64).filter (fun c => (emLevel s n c).isSome)

/-- Debt beyond 65,536 drops counts (R187): E moves, the lines do not. -/
def emLost (n : Fin 16) (s : State) : State :=
  let d := emDebt s n 0
  let k := d.natAbs - 65536
  if k = 0 then s
  else
    let s := modEm n (fun x => { x with e := if 0 < d then x.e + k else x.e - k }) s
    let s := setF (.em n) Em.DROP (satU 32 (getF s (.em n) Em.DROP + k)) (setI (.em n) Em.COUNT (s.em[n]).e s)
    let s := raiseF (.em n) Em.STATUS_LOST s
    let s := if (s.em[n]).lostAlarm then s
      else raiseAlarm 0x0801 (blkBase (.em n)) 1 false (modEm n (fun x => { x with lostAlarm := true }) s)
    if flag s (.em n) Em.CTRL_LOSTACT then
      let g := grid s
      setEm n 3 (modEm n (fun x => { x with pulse := x.pulse && decide (g < x.tLast + x.gap / 2) }) s)
    else s

/-- GAP has passed since the last edge at an instant of the grid (R186). -/
def emGapOver (s : State) (n : Fin 16) (g : Nat) : Bool := decide ((s.em[n]).tLast + (s.em[n]).gap ≤ g)

/-- The direction line of a step output has stood GAP / 2 at the step's level (R188). -/
def emDirStood (s : State) (n : Fin 16) (up : Bool) (g : Nat) : Bool :=
  let x := s.em[n]
  emMode s n != 1 || (x.dir == up && decide (2 * x.dirAt + x.gap ≤ 2 * g))

/-- The edge that the rule of R186 emits `h` grid instants of 2.5 ns before the present one: up or down. -/
def emDue (s : State) (n : Fin 16) (h : Nat) : Option Bool :=
  let d := emDebt s n (-(5 * h : Nat) / 2)
  let g := grid s - h
  if d ≠ 0 ∧ emGapOver s n g = true ∧ emDirStood s n (decide (0 < d)) g = true
      ∧ (s.em[n]).del.at_ + h * 5 * 2 ^ 27 ≤ s.elapsed then some (decide (0 < d))
  else none

/-- Edges that wait at the present instant, none outside RUN and STOPPED: the debt but for an edge that may be emitted now. -/
def emWaiting (s : State) (n : Fin 16) : Int :=
  let st := emState s n
  if emMode s n = 2 ∨ !(st == 2 || st == 3) then 0
  else
    let d := emDebt s n 0
    if st = 2 ∧ emGapOver s n (grid s) then (if 0 < d then d - 1 else if d < 0 then d + 1 else 0) else d

/-- DEBTEV and EM_DEBTMAX follow the debt. -/
def emDebtNote (n : Fin 16) (s : State) : State :=
  let d := (emWaiting s n).natAbs
  let s := raiseIf (decide (0 < d)) (.em n) Em.STATUS_DEBTEV s
  if getF s (.em n) Em.DEBTMAX < d then setF (.em n) Em.DEBTMAX d s else s

/-- The direction line of a step output follows the edge that comes next, GAP / 2 ahead of it (R188). -/
def emDirAhead (n : Fin 16) (s : State) : State :=
  let x := s.em[n]
  let now := emDebt s n 0
  let d := if now = 0 then emDebt s n (5 * ((x.gap + 1) / 2 : Nat) / 2) else now
  let g := grid s
  if emMode s n = 1 ∧ d ≠ 0 ∧ x.dir ≠ decide (0 < d) then modEm n (fun x => { x with dir := decide (0 < d), dirAt := g }) s
  else s

/-- An emulator emits edges: in RUN, on a mode of edges, in a mode of the device in which it runs. -/
def emRuns (s : State) (n : Fin 16) : Bool := live s (.em n) && emState s n == 2 && emMode s n != 2 && decide (mode s ≤ 3)

/-- What passes at an emulator in a fabric cycle beside its edges: dropped counts, the direction line, the debt. -/
def emTick (n : Fin 16) (s : State) : State :=
  if emRuns s n then
    let s := emLost n s
    if emState s n = 2 then emDebtNote n (emDirAhead n s) else s
  else s

/-- One edge, `h` grid instants before the present one: E, the lines, t_last (R186, R188, R191). -/
def emEdge (n : Fin 16) (h : Nat) (up : Bool) (s : State) : State :=
  let g := grid s - h
  let masked := (emCells s n).any (fun c => let k := cellClaim s c; k == 1 || k == 2 || k == 3)
  let s := modEm n (fun x =>
    let e := if up then x.e + 1 else x.e - 1
    { x with e := e, ez := e, q := if up then x.q + 1 else x.q - 1, tLast := g, pulse := true }) s
  let s := setI (.em n) Em.COUNT (s.em[n]).e (occurs 8 n s)
  emDebtNote n (raiseIf masked (.em n) Em.STATUS_MASKED s)

/-- A delivery reaches an emulator (R185, R190, R191). -/
def emDeliver (d : Delivery) (n : Fin 16) (s : State) : State :=
  let st := emState s n
  if !live s (.em n) || st == 0 then s
  else
    let now := s.elapsed
    let g := grid s
    let lat := getF s (.em n) Em.LAT
    let gap := getF s (.em n) Em.GAP
    let s := modEm n (fun x => { x with del := { d with at_ := now }, lat := lat, gap := gap }) s
    if st = 1 then
      if d.validity = 2 then s
      else
        let e := (emX s n 0).floor
        let s := modEm n (fun x => { x with e := e, q := e, ez := e, tLast := g, dirAt := g, pulse := false }) s
        setEm n 2 (setI (.em n) Em.COUNT (s.em[n]).e s)
    else if st = 2 then
      let s := raiseIf (d.validity == 2) (.em n) Em.STATUS_HELDEV s
      emTick n s
    else s

/-- EN written 1 in OFF, and EN written 0 (R190). -/
def emStart (n : Fin 16) (s : State) : State :=
  let s := setF (.em n) Em.DEBTMAX 0 (setF (.em n) Em.DROP 0 (setF (.em n) Em.STATUS_LOST 0 s))
  let c := cellP s (fin64 (getF s (.em n) Em.PORT_PTA))
  setEm n 1 (modEm n (fun _ => { clk := c }) s)
def emStop (n : Fin 16) (s : State) : State := setEm n 0 (modEm n (fun x => { e := x.e }) s)

/-- The store of an emulator's register: EN acts where the write changes it (R463); in BEACON the settings alone start an emulator
(R204). -/
def emStore (n : Fin 16) (off : Nat) (w : Word) (s : State) : State :=
  let on := becomes s (.em n) Em.CTRL_EN w 1
  let off0 := becomes s (.em n) Em.CTRL_EN w 0
  let s := storeFields (.em n) off w s
  if off = 0x8 then
    if off0 then (if emState s n = 0 then s else emStop n s)
    else if on && emState s n == 0 && mode s != 3 then emStart n s
    else s
  else if off = 0x20 then
    let l := getF s (.em n) Em.SSI_LEN
    if l < getF s (.em n) Em.SSI_FBITS then setF (.em n) Em.SSI_FBITS l s else s
  else s

def emWrite (ag : Agent) (n : Fin 16) (off : Nat) (w : Word) (s : State) : State :=
  judgedWrite ag (.em n) off w (emStore n off w) s

def execEmEnable (ag : Agent) (n : Fin 16) (w : Word) (s : State) : Outcome := .next (emWrite ag n 0x8 w s)
def execEmDisable (ag : Agent) (n : Fin 16) (w : Word) (s : State) : Outcome := .next (emWrite ag n 0x8 w s)

/-! ### SSI (R192, R193) -/

/-- Even parity of the `n` low bits of a word. -/
def parity (n w : Nat) : Nat := (List.range n).foldl (fun a i => (a + bitAt w i) % 2) 0

/-- The word of R192 with its error and parity bits, and its length. -/
def ssiWord (s : State) (n : Fin 16) : Nat × Nat :=
  let len := getF s (.em n) Em.SSI_LEN
  let p := (emPos s n 0).floor
  let w := (p / 2 ^ (32 - getF s (.em n) Em.SSI_FBITS) % 2 ^ len).toNat
  let w := if flag s (.em n) Em.SSI_GRAY then w ^^^ (w / 2) else w
  let d := (s.em[n]).del
  let (w, k) := if flag s (.em n) Em.SSI_ERRB then (2 * w + bitOf (d.validity != 0 || d.disc), len + 1) else (w, len)
  if flag s (.em n) Em.SSI_PAR then (2 * w + parity k w, k + 1) else (w, k)

/-- Clock edges less than 50 ns apart set SSIOVR; the word in progress is then undefined (log 1). -/
def ssiPace (n : Fin 16) (s : State) : State :=
  let x := s.em[n]
  let now := s.elapsed
  let fast := x.run && decide (sinceNs s x.lastEdge < 50)
  let v := freeVal s
  let s := modEm n (fun x => { x with lastEdge := now, word := if fast then v % 2 ^ x.wbits else x.word }) s
  if fast then raiseF (.em n) Em.STATUS_SSIOVR (freeNext s) else s

/-- The emulator serves an SSI master. -/
def ssiServes (s : State) (n : Fin 16) : Bool := live s (.em n) && emState s n == 2 && emMode s n == 2

/-- A falling edge at the clock input (R193, log 68): the first one latches the word; during the monoflop it starts the word again,
but not while the word is being read again. -/
def ssiFallen (n : Fin 16) (s : State) : State :=
  if !ssiServes s n then s
  else
    let s := ssiPace n s
    let x := s.em[n]
    let now := s.elapsed
    match x.mono with
    | some _ => modEm n (fun x => { x with mono := some now, left := if x.low then x.wbits else x.left, low := false }) s
    | none =>
      if x.run then s
      else
        let (w, k) := ssiWord s n
        modEm n (fun x => { x with word := w, wbits := k, left := k, run := true, low := false }) s

/-- An edge from outside at the clock input of an emulator: it reaches the input where the cell does not drive itself (R183). -/
def ssiPin (n : Fin 16) (b : Bool) (act : State → State) (s : State) : State :=
  let c := fin64 (getF s (.em n) Em.PORT_PTA)
  let s := pinSet c b s
  if (cellDrive s c).isSome then s else act (modEm n (fun x => { x with clk := b }) s)

/-- SSI_CLOCK_FALL (R193). -/
def ssiFall (n : Fin 16) (s : State) : State := ssiPin n false (ssiFallen n) s

def execSsiClockFall (n : Fin 16) (s : State) : Outcome := .next (ssiFall n s)

/-- A rising edge at the clock input (R193). -/
def ssiRisen (n : Fin 16) (s : State) : State :=
  if !ssiServes s n then s
  else
    let s := ssiPace n s
    let x := s.em[n]
    let now := s.elapsed
    let mono := if x.mono.isSome then some now else none
    if x.run && decide (0 < x.left) then
      modEm n (fun x => { x with data := bitAt x.word (x.left - 1) == 1, left := x.left - 1, mono := mono }) s
    else if x.run then modEm n (fun x => { x with data := false, low := true, mono := some now }) s
    else s

/-- SSI_CLOCK_RISE (R193). -/
def ssiRise (n : Fin 16) (s : State) : State := ssiPin n true (ssiRisen n) s

def execSsiClockRise (n : Fin 16) (s : State) : Outcome := .next (ssiRise n s)

/-- SSI_MONOFLOP_EXPIRY (R193): TM µs after the last clock edge. -/
def ssiExpiry (n : Fin 16) (s : State) : State :=
  match (s.em[n]).mono with
  | none => s
  | some t =>
    if live s (.em n) && decide (1000 * getF s (.em n) Em.SSI_TM ≤ sinceNs s t) then
      modEm n (fun x => { x with mono := none, run := false, low := false, left := 0, data := true }) s
    else s

def execSsiMonoflopExpiry (n : Fin 16) (s : State) : Outcome := .next (ssiExpiry n s)

/-- The clock input of an SSI emulator in a fabric cycle: the level that its cell drives makes edges too (R183). -/
def ssiSense (n : Fin 16) (s : State) : State :=
  if emState s n = 0 ∨ emMode s n ≠ 2 then s
  else
    let c := fin64 (getF s (.em n) Em.PORT_PTA)
    let b := cellP s c
    let drv := (cellDrive s c).isSome
    let x := s.em[n]
    let s := modEm n (fun x => { x with clk := b, drv := drv }) s
    if (drv || x.drv) && b != x.clk then (if b then ssiRisen n s else ssiFallen n s) else s

/-! ### Latch units (R195–R198) -/

def modLu (n : Fin 32) (f : LuSt → LuSt) (s : State) : State := { s with lu := s.lu.set n (f (s.lu[n])) }

/-- Latch units and comparators run: not in BEACON (R204). -/
def portRuns (s : State) (b : Blk) : Bool := live s b && decide (mode s ≤ 2)

/-- Deliveries of an axis that have arrived at the ports, newest first. -/
def arrived (s : State) (a : Fin 16) : List Delivery :=
  let x := s.ax[a]
  if x.toPort then x.hist else x.del :: x.hist

/-- An edge `back` half ns ago waits for its record, or is dropped (R197). Time, epoch and DISC are those at the edge. -/
def luPend (n : Fin 32) (edge : Bool) (back : Nat) (s : State) : State :=
  let x := s.lu[n]
  let a := fin16 (getF s (.lu n) Lu.CFG_AXIS)
  if 4 ≤ x.edges.length then
    let s := modLu n (fun x => { x with lost := true, alarmed := true }) (raiseF (.lu n) Lu.STATUS_OVF s)
    if x.alarmed then s else raiseAlarm 0x0810 (blkBase (.lu n)) 0 false s
  else
    let (d, ep, disc) := timeBack s ((s.elapsed : Int) - (back * 2 ^ 27 : Nat))
    let p : PendEdge := { te2 := 2 * (s.time.now : Int) - back - d / 2 ^ 27, el2 := 2 * (elapsedNs s : Int) - back, edge := edge,
                          epoch := ep, disc := disc, seen := (arrived s a).headD {} }
    modLu n (fun x => { x with edges := x.edges ++ [p] }) s

/-- A unit detects an edge to a level, whose first sample lies `back` half ns ago (R195). -/
def luDetect (n : Fin 32) (rising : Bool) (back : Nat) (s : State) : State :=
  let sel := getF s (.lu n) Lu.CFG_EDGE
  if portRuns s (.lu n) && flag s (.lu n) Lu.CFG_EN && flag s (.lu n) Lu.STATUS_ARMED
      && (sel == 3 || sel == (if rising then 1 else 2)) then
    let s := if flag s (.lu n) Lu.CFG_ONESHOT then setF (.lu n) Lu.STATUS_ARMED 0 s else s
    luPend n rising back s
  else s

def luCell (s : State) (n : Fin 32) : Fin 64 := fin64 (getF s (.lu n) Lu.CFG_PT)

/-- The first sample of the new level lies FILT samples back, or one more, as the fabric cycle holds two (R195). -/
def luFiltered (s : State) (n : Fin 32) (age : Nat) : Bool :=
  let f := getF s (.lu n) Lu.CFG_FILT
  decide (f ≤ age) && decide (age ≤ f + 1)

/-- LATCH_EDGE (R195): the level from outside has changed `age` samples of 2.5 ns ago; it reaches the unit where the cell does not
drive itself (R183). -/
def luEdge (n : Fin 32) (rising : Bool) (age : Nat) (s : State) : State :=
  let c := luCell s n
  let s := pinSet c rising s
  if (cellDrive s c).isSome || !luFiltered s n age then s
  else luDetect n rising (5 * age) (modLu n (fun x => { x with lvl := rising, cand := none }) s)

/-- A level that has been new since the sample at grid instant `u.1`, elapsed time `u.2`, is taken. -/
def luTake (n : Fin 32) (b drv : Bool) (u : Nat × Nat) (s : State) : State :=
  let now := s.elapsed
  luDetect n b ((now - u.2) / 2 ^ 27) (modLu n (fun x => { x with lvl := b, cand := none, drv := drv }) s)

/-- A unit's input at the sample `h` grid instants before the present one: a level that its cell drives, and the filter over it (R183,
R195). A level that ends is taken where it had held for FILT + 1 samples. -/
def luSenseAt (h : Nat) (n : Fin 32) (s : State) : State :=
  if !flag s (.lu n) Lu.CFG_EN then s
  else
    let g := grid s - h
    let b := cellPAt g s (luCell s n)
    let drv := (cellDriveAt g s (luCell s n)).isSome
    let x := s.lu[n]
    let f := getF s (.lu n) Lu.CFG_FILT
    let t := s.elapsed - h * 5 * 2 ^ 27
    if !(portRuns s (.lu n) && (drv || x.drv || x.cand.isSome)) then modLu n (fun x => { x with lvl := b, cand := none, drv := drv }) s
    else
      let s := match x.cand with
        | some u => if b = x.lvl ∧ f + 1 ≤ g - u.1 then luTake n (!b) drv u s else s
        | none => s
      if b = (s.lu[n]).lvl then modLu n (fun x => { x with cand := none, drv := drv }) s
      else
        let u := ((s.lu[n]).cand).getD (g, t)
        if f ≤ g - u.1 then luTake n b drv u s else modLu n (fun x => { x with cand := some u, drv := drv }) s

/-- The two samples of a fabric cycle. -/
def luSense (n : Fin 32) (s : State) : State := luSenseAt 0 n (luSenseAt 1 n s)

def execLatchEdge (n : Fin 32) (rising : Bool) (age : Nat) (s : State) : Outcome := .next (luEdge n rising age s)

/-- The inputs that name a cell of the emulator sample its new level, `h` grid instants before the present one (R183, R195, R227). -/
def emSeen (n : Fin 16) (h : Nat) (s : State) : State :=
  let cs := emCells s n
  let ls := (List.finRange 32).filter (fun k => cs.contains (luCell s k))
  let es := (List.finRange 16).filter (fun a =>
    cs.contains (fin64 (getF s (.ax a) Ax.ENC_CFG_PTA)) || cs.contains (fin64 (getF s (.ax a) Ax.ENC_CFG_PTB)))
  forAll es (encSenseAt h) (forAll ls (luSenseAt h) s)

/-- EM_EDGE_EMIT: the edge of the fabric cycle, at the first of its two grid instants that asks for one. -/
def emEmit (n : Fin 16) (s : State) : State :=
  let s := emTick n s
  if !emRuns s n then s
  else match emDue s n 1 with
    | some up => emSeen n 0 (emSeen n 1 (emEdge n 1 up s))
    | none =>
      match emDue s n 0 with
      | some up => emSeen n 0 (emEdge n 0 up s)
      | none => s

def execEmEdgeEmit (n : Fin 16) (s : State) : Outcome := .next (emEmit n s)

/-- Half ns from a delivery's sample instant to an edge: by network time in one epoch, else by elapsed time (R465). -/
def edgeSince (e : PendEdge) (d : Delivery) : Int :=
  if d.epoch = e.epoch then e.te2 - 2 * (d.t : Int) else e.el2 - 2 * d.te

/-- The position of an edge, X and HELD, from a delivery and its velocity. -/
def edgeExtrap (e : PendEdge) (d : Delivery) : Int × Bool × Bool :=
  let v : Int := if d.validity = 2 then 0 else d.vel
  (wrap64 (ratRound ((d.pos : Rat) + (v : Rat) * 2 ^ 16 * (edgeSince e d : Rat) / 2000000000)), true, d.validity == 2)

/-- The record's position where it can be formed (R196). -/
def edgeResult (s : State) (n : Fin 32) (e : PendEdge) : Option (Int × Bool × Bool) :=
  if flag s (.lu n) Lu.CFG_MODE then some (edgeExtrap e e.seen)
  else
    let ds := arrived s (fin16 (getF s (.lu n) Lu.CFG_AXIS))
    let later := ds.filter (fun d => decide (edgeSince e d < 0))
    let before := ds.filter (fun d => decide (0 ≤ edgeSince e d))
    match later.getLast? with
    | none => none
    | some a =>
      match before.head? with
      | none => some (edgeExtrap e a)
      | some b =>
        if a.validity = 0 ∧ b.validity = 0 ∧ a.epoch = e.epoch ∧ b.epoch = e.epoch ∧ a.disc = false ∧ b.disc = false then
          let k := edgeSince e b
          let m := k - edgeSince e a
          some (wrap64 (b.pos + roundEven (wrap64 (a.pos - b.pos) * k) m.toNat), false, false)
        else some (edgeExtrap e b)

/-- LATCH_RECORD_POST: the oldest waiting edge whose deliveries have arrived. -/
def luRecord (n : Fin 32) (s : State) : State :=
  if !(portRuns s (.lu n) && flag s (.lu n) Lu.CFG_EN) then s
  else
    match (s.lu[n]).edges with
    | [] => s
    | e :: rest =>
      match edgeResult s n e with
      | none => s
      | some (p, x, held) =>
        let t := ((e.te2 / 2) % (timeMod : Int)).toNat
        let w0 := word0 0x30 (seqOf s clsLatch n) e.epoch
          (getF s (.lu n) Lu.CFG_AXIS * 2 ^ 10 + n.val * 2 ^ 5 + bitOf e.edge * 16 + bitOf e.disc * 8 + bitOf x * 4
            + bitOf held * 2 + bitOf (s.lu[n]).lost)
        let u := ofSigned 64 p
        let r : QEntry := { w0 := w0, w1 := wordOf t, w2 := wordOf u, w3 := wordOf (u / 2 ^ 32) }
        let s := postRecord (fin16 (getF s (.lu n) Lu.CFG_EVQ)) srcLatch [r] (seqNext clsLatch n s)
        let s := modLu n (fun y => { y with edges := rest, lost := false, recPos := u, recW0 := w0.toNat }) s
        let s := setF (.lu n) Lu.TIME t (setF (.lu n) Lu.STATUS_RECCNT (getF s (.lu n) Lu.STATUS_RECCNT + 1) s)
        let s := raiseIf x (.lu n) Lu.STATUS_XEV (raiseF (.lu n) Lu.STATUS_RECEV s)
        if getF s .cap Cap.TRIG_MODE = 5 ∧ getF s .cap Cap.TRIG_IDX = n.val then
          { s with cap := { s.cap with trigReq := true } }
        else s

def execLatchRecordPost (n : Fin 32) (s : State) : Outcome := .next (luRecord n s)

/-- The store of a latch unit's register: EN, ARM and SWTRIG (R195, R197, R198). -/
def luStore (n : Fin 32) (off : Nat) (w : Word) (s : State) : State :=
  let on := becomes s (.lu n) Lu.CFG_EN w 1
  let off0 := becomes s (.lu n) Lu.CFG_EN w 0
  let s := storeFields (.lu n) off w s
  if off ≠ 0x8 then s
  else
    let s :=
      if on then
        let b := cellP s (luCell s n)
        setF (.lu n) Lu.STATUS_ARMED 1
          (modLu n (fun x => { x with edges := [], lost := false, alarmed := false, lvl := b, cand := none, drv := false }) s)
      else if off0 then setF (.lu n) Lu.STATUS_ARMED 0 (modLu n (fun x => { x with edges := [] }) s)
      else s
    let en := flag s (.lu n) Lu.CFG_EN
    let s := if en && fieldOf w Lu.CFG_ARM == 1 then setF (.lu n) Lu.STATUS_ARMED 1 s else s
    if en && fieldOf w Lu.CFG_SWTRIG == 1 then luPend n false 0 s else s

def luWrite (ag : Agent) (n : Fin 32) (off : Nat) (w : Word) (s : State) : State :=
  judgedWrite ag (.lu n) off w (luStore n off w) s

def execLatchSwtrig (ag : Agent) (n : Fin 32) (w : Word) (s : State) : Outcome := .next (luWrite ag n 0x8 w s)
def execLatchArm (ag : Agent) (n : Fin 32) (w : Word) (s : State) : Outcome := .next (luWrite ag n 0x8 w s)
def execLatchEnable (ag : Agent) (n : Fin 32) (w : Word) (s : State) : Outcome := .next (luWrite ag n 0x8 w s)

/-- A read of LU_TIME captures the rest of the last record (R198). -/
def luSnap (n : Fin 32) (s : State) : State :=
  let x := s.lu[n]
  setF (.lu n) Lu.REC0 x.recW0 (setF (.lu n) Lu.POS_LO x.recPos (setF (.lu n) Lu.POS_HI (x.recPos / 2 ^ 32) s))

/-! ### Sector comparators (R199–R203) -/

def modSec (n : Fin 64) (f : SecSt → SecSt) (s : State) : State := { s with sec := s.sec.set n (f (s.sec[n])) }

def secFull (s : State) (n : Fin 64) : Bool := flag s (.sec n) Sec.CFG_MODE

/-- Lower edge and upper edge of the window in use: fractions in FRAC, signed 64-bit positions in FULL. -/
def secLo (s : State) (n : Fin 64) : Int :=
  let x := s.sec[n]
  if secFull s n then toSigned 64 (x.loL + 2 ^ 32 * x.loH) else x.loL
def secHi (s : State) (n : Fin 64) : Int :=
  let x := s.sec[n]
  if secFull s n then toSigned 64 (x.hiL + 2 ^ 32 * x.hiH) else x.hiL

/-- Width of the window; 0 where it is empty (R199). -/
def secWidth (s : State) (n : Fin 64) : Int :=
  let d := secHi s n - secLo s n
  if secFull s n then max d 0 else d % 2 ^ 32

/-- The position lies in the window widened by `h` on both sides (R199, R200). -/
def secIn (s : State) (n : Fin 64) (p h : Int) : Bool :=
  let w := secWidth s n
  if secFull s n then decide (secLo s n - h ≤ p) && decide (p < secHi s n + h) && (decide (0 < w) || decide (0 < h))
  else if 2 ^ 32 ≤ w + 2 * h then true
  else decide ((p - (secLo s n - h)) % 2 ^ 32 < w + 2 * h)

/-- The line between two positions outside the window passes through it (R202). -/
def secPasses (s : State) (n : Fin 64) (p q : Int) : Bool :=
  let a := min p q
  let b := max p q
  let w := secWidth s n
  if w = 0 then false
  else if secFull s n then decide (a < secLo s n) && decide (secLo s n < b)
  else decide (a + (secLo s n - a) % 2 ^ 32 < b)

/-- A sector record (R201). -/
def secRecord (n : Fin 64) (d : Delivery) (skip in_ : Bool) (s : State) : State :=
  if flag s (.sec n) Sec.CFG_EVT then
    let w0 := word0 0x31 (seqOf s clsSector n) d.epoch (n.val * 2 ^ 8 + getF s (.sec n) Sec.CFG_AXIS * 16 + bitOf skip * 8
      + bitOf d.disc * 4 + bitOf (d.validity == 1) * 2 + bitOf in_)
    let u := ofSigned 64 d.pos
    let r : QEntry := { w0 := w0, w1 := wordOf (d.t % 2 ^ 32), w2 := wordOf u, w3 := wordOf (u / 2 ^ 32) }
    postRecord (fin16 (getF s (.sec n) Sec.CFG_EVQ)) srcSector [r] (seqNext clsSector n s)
  else s

/-- A held window commits at a delivery (R199). -/
def secCommit (n : Fin 64) (s : State) : State :=
  match (s.sec[n]).commit with
  | none => s
  | some (a, b, c, d) => modSec n (fun x => { x with loL := a, loH := b, hiL := c, hiH := d, commit := none }) s

/-- A delivery reaches a comparator. -/
def secDeliver (d : Delivery) (n : Fin 64) (s : State) : State :=
  if !(portRuns s (.sec n) && flag s (.sec n) Sec.CFG_EN) then s
  else
    let s := secCommit n s
    let s := raiseIf (secFull s n && secWidth s n == 0) (.sec n) Sec.STATUS_CFGERR s
    let held := d.validity == 2
    let x := s.sec[n]
    let s := modSec n (fun x => { x with last := d.pos, tested := x.tested || !held }) (setF (.sec n) Sec.STATUS_STALE (bitOf held) s)
    let inside := secIn s n d.pos 0
    if !x.tested then (if held then s else setF (.sec n) Sec.STATUS_IN (bitOf inside) s)
    else if !inside && !secIn s n x.last 0 && secPasses s n x.last d.pos then
      let s := secRecord n d true false (raiseF (.sec n) Sec.STATUS_SKIPEV s)
      raiseAlarm 0x0820 (blkBase (.sec n)) 0 false s
    else if held then s
    else
      let was := flag s (.sec n) Sec.STATUS_IN
      let h : Int := (getF s (.sec n) Sec.CFG_HYST * 2 ^ 12 : Nat)
      let now := inside || (was && secIn s n d.pos h)
      if now = was then s
      else if now then
        let s := setF (.sec n) Sec.STATUS_CNT (getF s (.sec n) Sec.STATUS_CNT + 1) (setF (.sec n) Sec.STATUS_IN 1 s)
        secRecord n d false true (raiseF (.sec n) Sec.STATUS_ENTEV s)
      else secRecord n d false false (raiseF (.sec n) Sec.STATUS_EXITEV (setF (.sec n) Sec.STATUS_IN 0 s))

def secStore (n : Fin 64) (off : Nat) (w : Word) (s : State) : State :=
  let on := becomes s (.sec n) Sec.CFG_EN w 1
  let s := storeFields (.sec n) off w s
  if off = 0x8 ∧ on then modSec n (fun x => { x with tested := false }) s
  else if off = 0x18 then
    let c := (getF s (.sec n) Sec.LO_L, getF s (.sec n) Sec.LO_H, getF s (.sec n) Sec.HI_L, getF s (.sec n) Sec.HI_H)
    modSec n (fun x => { x with commit := some c }) s
  else s

def secWrite (ag : Agent) (n : Fin 64) (off : Nat) (w : Word) (s : State) : State :=
  judgedWrite ag (.sec n) off w (secStore n off w) s

def execSectorWindowCommit (ag : Agent) (n : Fin 64) (w : Word) (s : State) : Outcome := .next (secWrite ag n 0x18 w s)

/-! ### Deliveries (R182) -/

/-- An axis's delivery reaches every emulator, then every comparator on it; latch units read it from the axis. -/
def portDeliver (a : Fin 16) (s : State) : State :=
  let d := (s.ax[a]).del
  let s := modAx a (fun x => { x with toPort := false }) s
  let s := forAll ((List.finRange 16).filter (fun n => getF s (.em n) Em.CTRL_AXIS == a.val)) (emDeliver d) s
  forAll ((List.finRange 64).filter (fun n => getF s (.sec n) Sec.CFG_AXIS == a.val)) (secDeliver d) s

/-- PORT_DELIVERY. -/
def portDelivery (a : Fin 16) (s : State) : State :=
  if clocked s .port && (s.ax[a]).toPort then portDeliver a s else s

def execPortDelivery (a : Fin 16) (s : State) : Outcome := .next (portDelivery a s)

/-- HELD_DELIVERY. -/
def heldDelivery (a : Fin 16) (s : State) : State :=
  match frameDelivery s a with
  | none => s
  | some d => portDeliver a (axDeliver a d s)

def execHeldDelivery (a : Fin 16) (s : State) : Outcome := .next (heldDelivery a s)

end Sys2Proof.Machine
end

