-- ==== Sys2Proof/Machine/Resampling.lean ====
section
/-!
DEFINITION. Resampler lanes and their shaping filters (R205–R222).
-/

namespace Sys2Proof.Machine

def modRs (n : Fin 16) (f : RsSt → RsSt) (s : State) : State := { s with rs := s.rs.set n (f (s.rs[n])) }
def rsState (s : State) (n : Fin 16) : Nat := getF s (.rs n) Rs.STATUS_STATE

/-! ### Shaping filter (R217–R221) -/

def shActive (s : State) (n : Fin 16) : Fin 2 := if flag s (.rs n) Rs.SH_STATUS_ACTIVE then 1 else 0
def otherBank (b : Fin 2) : Fin 2 := if b = 0 then 1 else 0

/-- Coefficient c of section i of a bank, Q3.29. -/
def shCoef (s : State) (n : Fin 16) (b : Fin 2) (i : Fin 4) (c : Nat) : Int :=
  getI s (.rs n) (if b = 0 then Rs.SHCOEF_A (5 * i.val + c) else Rs.SHCOEF_B (5 * i.val + c))

/-- One section: its output, whether it saturated, and its histories. -/
def biquad (s : State) (n : Fin 16) (b : Fin 2) (i : Fin 4) (x : Int) (h : ShBank) : Int × Bool × ShBank :=
  let c := shCoef s n b i
  let v := roundEven (c 0 * x + c 1 * h.x1[i] + c 2 * h.x2[i] - c 3 * h.y1[i] - c 4 * h.y2[i]) (2 ^ 29)
  let y := satS 32 v
  (y, y != v, { x1 := h.x1.set i x, x2 := h.x2.set i h.x1[i], y1 := h.y1.set i y, y2 := h.y2.set i h.y1[i] })

/-- Every history of a section set to its input. -/
def seedSection (i : Fin 4) (x : Int) (h : ShBank) : ShBank :=
  { x1 := h.x1.set i x, x2 := h.x2.set i x, y1 := h.y1.set i x, y2 := h.y2.set i x }

/-- The cascade of a bank on one input. -/
def cascade (s : State) (n : Fin 16) (b : Fin 2) (x : Int) (h : ShBank) : Int × Bool × ShBank :=
  (List.finRange 4).foldl (fun (a : Int × Bool × ShBank) (i : Fin 4) =>
    let r := biquad s n b i a.1 a.2.2
    (r.1, a.2.1 || r.2.1, r.2.2)) (x, false, h)

/-- A bank becomes active. -/
def shSwitch (n : Fin 16) (b : Nat) (s : State) : State :=
  raiseF (.rs n) Rs.SH_STATUS_FADEEV (setF (.rs n) Rs.SH_STATUS_ACTIVE b s)

/-- FADE_COMPLETE (R220, R221): the target becomes active; a latched request starts the next fade or is discarded. -/
def fadeDone (n : Fin 16) (s : State) : State :=
  let x := s.rs[n]
  if flag s (.rs n) Rs.SH_STATUS_FADING && !x.startFade && decide (x.fadeF ≤ x.fadeJ) then
    let pend := flag s (.rs n) Rs.SH_STATUS_REQPEND
    let c := s.cycle
    let nop := getF s (.rs n) Rs.SH_STATUS_NOP
    let s := shSwitch n x.fadeTgt (modRs n (fun x => { x with fadeJ := 0, fadeF := 0, ended := some (c, pend, nop) }) s)
    let t := getF s (.rs n) Rs.SH_STATUS_REQTGT
    let s := setF (.rs n) Rs.SH_STATUS_REQPEND 0 s
    if pend && t != x.fadeTgt then modRs n (fun x => { x with startFade := true, fadeTgt := t }) s
    else raiseIf pend (.rs n) Rs.SH_STATUS_NOP (setF (.rs n) Rs.SH_STATUS_FADING 0 s)
  else s

def execFadeComplete (n : Fin 16) (s : State) : Outcome :=
  .next (if live s (.rs n) then fadeDone n s else s)

/-- What waits for a servo instant (R221): the request latched when SHEN was written 0, also where a new fade is to start at that
instant, then a bank that becomes active. -/
def shWaiting (n : Fin 16) (s : State) : State :=
  let s := if (s.rs[n]).reqDue then
      (let t := getF s (.rs n) Rs.SH_STATUS_REQTGT
       let s := setF (.rs n) Rs.SH_STATUS_REQPEND 0 (modRs n (fun y => { y with reqDue := false }) s)
       if t = (shActive s n).val then raiseF (.rs n) Rs.SH_STATUS_NOP s else shSwitch n t s)
    else s
  match (s.rs[n]).switchTo with
  | some t => shSwitch n t (modRs n (fun y => { y with switchTo := none }) s)
  | none => s

/-- The histories of a bank set to its sections' inputs (R218). -/
def seeded (s : State) (n : Fin 16) (b : Fin 2) (x : Int) (h : ShBank) : ShBank :=
  ((List.finRange 4).foldl (fun (a : Int × ShBank) (i : Fin 4) =>
    let h := seedSection i a.1 a.2
    ((biquad s n b i a.1 h).1, h)) (x, h)).2

/-- A fade starts (R220): the target takes over the histories of the active bank. One whose target has become active meanwhile has
nothing to fade (log 143). -/
def fadeStart (n : Fin 16) (s : State) : State :=
  let l := s.rs[n]
  if !l.startFade then s
  else
    let a := shActive s n
    let f := getF s (.rs n) Rs.SH_CTRL_FADE
    let s := modRs n (fun y => { y with startFade := false, fadeJ := 0, fadeF := f }) s
    if l.fadeTgt = a.val then raiseF (.rs n) Rs.SH_STATUS_NOP (setF (.rs n) Rs.SH_STATUS_FADING 0 s)
    else modRs n (fun y => { y with banks := y.banks.set (otherBank a) (y.banks[a]) }) s

/-- The filter's output at a servo instant (R217, R218, R220). -/
def shOutput (n : Fin 16) (x : Int) (s : State) : Int × State :=
  let s := shWaiting n (fadeDone n s)
  if !flag s (.rs n) Rs.SH_CTRL_SHEN then (x, s)
  else
    let a := shActive s n
    let b := otherBank a
    let h := if (s.rs[n]).seed then seeded s n a x ((s.rs[n]).banks[a]) else (s.rs[n]).banks[a]
    let s := fadeStart n (modRs n (fun y => { y with seed := false, banks := y.banks.set a h }) s)
    let l := s.rs[n]
    let (ya, sa, ha) := cascade s n a x (l.banks[a])
    let s := modRs n (fun y => { y with banks := y.banks.set a ha }) s
    if flag s (.rs n) Rs.SH_STATUS_FADING then
      let (yb, sb, hb) := cascade s n b x (l.banks[b])
      let j := l.fadeJ + 1
      let s := modRs n (fun y => { y with banks := y.banks.set b hb, fadeJ := j }) s
      let y := if l.fadeF ≤ j then yb else roundEven (ya * l.fadeF + (yb - ya) * j) l.fadeF
      (y, raiseIf (sa || sb) (.rs n) Rs.SH_STATUS_SAT s)
    else (ya, raiseIf sa (.rs n) Rs.SH_STATUS_SAT s)

/-- A request in the fabric cycle in which a fade has ended is taken as made during that fade (R221): it replaces what was latched
then, and what that led to. -/
def shRequestAtEnd (n : Fin 16) (tgt : Nat) (pend : Bool) (nop : Nat) (s : State) : State :=
  let c := s.cycle
  let s := raiseIf pend (.rs n) Rs.SH_STATUS_REQREPL (setF (.rs n) Rs.SH_STATUS_REQTGT tgt s)
  let s := setF (.rs n) Rs.SH_STATUS_NOP nop (modRs n (fun x => { x with ended := some (c, true, nop) }) s)
  if tgt = (shActive s n).val then
    raiseF (.rs n) Rs.SH_STATUS_NOP (setF (.rs n) Rs.SH_STATUS_FADING 0 (modRs n (fun x => { x with startFade := false }) s))
  else setF (.rs n) Rs.SH_STATUS_FADING 1 (modRs n (fun x => { x with startFade := true, fadeTgt := tgt }) s)

/-- The end of a fade in this fabric cycle: whether a request was latched, and NOP before it. -/
def fadeEnded (s : State) (n : Fin 16) : Option (Bool × Nat) :=
  match (s.rs[n]).ended with
  | some (c, r) => if c = s.cycle then some r else none
  | none => none

/-- A request (R221). -/
def shRequest (n : Fin 16) (tgt : Nat) (s : State) : State :=
  match fadeEnded s n with
  | some (pend, nop) => shRequestAtEnd n tgt pend nop s
  | none =>
    if flag s (.rs n) Rs.SH_STATUS_FADING then
      let s := raiseIf (flag s (.rs n) Rs.SH_STATUS_REQPEND) (.rs n) Rs.SH_STATUS_REQREPL s
      setF (.rs n) Rs.SH_STATUS_REQTGT tgt (setF (.rs n) Rs.SH_STATUS_REQPEND 1 (modRs n (fun x => { x with reqDue := false }) s))
    else if tgt = (shActive s n).val then raiseF (.rs n) Rs.SH_STATUS_NOP s
    else if flag s (.rs n) Rs.SH_CTRL_SHEN then
      setF (.rs n) Rs.SH_STATUS_FADING 1 (modRs n (fun x => { x with startFade := true, fadeTgt := tgt }) s)
    else modRs n (fun x => { x with switchTo := some tgt }) s

/-- SHEN written 0 (R221): a fade ends on its target; a latched request is applied at the next servo instant. -/
def shOff (n : Fin 16) (s : State) : State :=
  if flag s (.rs n) Rs.SH_STATUS_FADING then
    let b := (s.rs[n]).fadeTgt
    let due := flag s (.rs n) Rs.SH_STATUS_REQPEND
    shSwitch n b (setF (.rs n) Rs.SH_STATUS_FADING 0
      (modRs n (fun x => { x with fadeJ := 0, fadeF := 0, startFade := false, ended := none, reqDue := due }) s))
  else modRs n (fun x => { x with ended := none }) s

/-- A write of RS_SH_IN: the value before the fabric cycle serves the servo instants of this cycle (R218). -/
def shInStore (n : Fin 16) (w : Word) (s : State) : State :=
  let c := s.cycle
  let old := getI s (.rs n) Rs.SH_IN
  modRs n (fun x => { x with shPrev := match x.shPrev with
    | some (k, v) => if k = c then some (k, v) else some (c, old)
    | none => some (c, old) }) (storeFields (.rs n) 0x40 w s)

/-- The filter input of SRC = 1 at a servo instant of this fabric cycle. -/
def shIn (s : State) (n : Fin 16) : Int :=
  match (s.rs[n]).shPrev with
  | some (k, v) => if k = s.cycle then v else getI s (.rs n) Rs.SH_IN
  | none => getI s (.rs n) Rs.SH_IN

/-- A coefficient write (R219): to the bank that is not active, while no fade runs. -/
def shCoefWrite (n : Fin 16) (b : Fin 2) (c : Nat) (w : Word) (s : State) : State :=
  if b = shActive s n ∨ flag s (.rs n) Rs.SH_STATUS_FADING = true then raiseF (.rs n) Rs.SH_STATUS_WREJ s
  else setF (.rs n) (if b = 0 then Rs.SHCOEF_A c else Rs.SHCOEF_B c) w.toNat s

/-- A coefficient word's bank and number, by its offset (R222). -/
def shCoefOff (off : Nat) : Option (Fin 2 × Nat) :=
  if 0x60 ≤ off ∧ off < 0xB0 then some (0, (off - 0x60) / 4)
  else if 0xB0 ≤ off ∧ off < 0x100 then some (1, (off - 0xB0) / 4)
  else none

/-! ### Writes (R215, R216, R222) -/

def rsStore (n : Fin 16) (off : Nat) (w : Word) (s : State) : State :=
  match shCoefOff off with
  | some (b, c) => shCoefWrite n b c w s
  | none =>
    let on := becomes s (.rs n) Rs.CFG_EN w 1
    let off0 := becomes s (.rs n) Rs.CFG_EN w 0
    let shOn := becomes s (.rs n) Rs.SH_CTRL_SHEN w 1
    let sh0 := becomes s (.rs n) Rs.SH_CTRL_SHEN w 0
    let s := if off = 0x40 then shInStore n w s else storeFields (.rs n) off w s
    if off = 0x8 then
      if on then
        let ph := getF s (.rs n) Rs.PHASE % getF s (.rs n) Rs.PERIOD
        let s := setF (.rs n) Rs.STATUS_STATE 1 (setF (.rs n) Rs.PHASE ph s)
        modRs n (fun x => { x with win := [], lastAt := none, prevRec := 0, gb := true, gbEnable := true, stepped := false }) s
      else if off0 then setF (.rs n) Rs.STATUS_STATE 0 s
      else s
    else if off = 0x38 then
      if shOn then modRs n (fun x => { x with seed := true }) s else if sh0 then shOff n s else s
    else if off = 0x3C ∧ fieldOf w Rs.SH_CMD_REQ = 1 then shRequest n (fieldOf w Rs.SH_CMD_TGT) s
    else s

/-- A write to a lane; a coefficient word from another agent than the owner also sets WREJ (R219). -/
def rsWrite (ag : Agent) (n : Fin 16) (off : Nat) (w : Word) (s : State) : State :=
  let other := judge ag (.rs n) off w s == .own && (shCoefOff off).isSome
  let s := judgedWrite ag (.rs n) off w (rsStore n off w) s
  raiseIf other (.rs n) Rs.SH_STATUS_WREJ s

def execRsEnable (ag : Agent) (n : Fin 16) (w : Word) (s : State) : Outcome := .next (rsWrite ag n 0x8 w s)
def execRsDisable (ag : Agent) (n : Fin 16) (w : Word) (s : State) : Outcome := .next (rsWrite ag n 0x8 w s)
def execShapeEnable (ag : Agent) (n : Fin 16) (w : Word) (s : State) : Outcome := .next (rsWrite ag n 0x38 w s)
def execShapeDisable (ag : Agent) (n : Fin 16) (w : Word) (s : State) : Outcome := .next (rsWrite ag n 0x38 w s)
def execShapeCoefWrite (ag : Agent) (n : Fin 16) (b : Fin 2) (c : Fin 20) (w : Word) (s : State) : Outcome :=
  .next (rsWrite ag n ((if b = 0 then 0x60 else 0xB0) + 4 * c.val) w s)
def execShapeRequest (ag : Agent) (n : Fin 16) (w : Word) (s : State) : Outcome := .next (rsWrite ag n 0x3C w s)

/-! ### The estimate (R209–R213) -/

/-- Coefficients of the basis polynomial of node j over the nodes 0 to 7, lowest power first (R211). -/
def lagrange (j : Nat) : List Rat :=
  (List.range 8).foldl (fun (p : List Rat) (i : Nat) =>
    if i = j then p
    else
      let d : Rat := (j : Rat) - (i : Rat)
      List.zipWith (fun (a b : Rat) => (a - (i : Rat) * b) / d) (0 :: p) (p ++ [0])) [1]

/-- Value of a polynomial and of its derivatives. -/
def polyAt (p : List Rat) (x : Rat) : Rat := p.foldr (fun a r => a + x * r) 0
def polyDer (p : List Rat) : List Rat := (p.zipIdx.drop 1).map (fun a => a.1 * (a.2 : Rat))

/-- The window is complete (R209): eight deliveries, one frame apart, usable and of one epoch. -/
def rsComplete (s : State) (w : List Delivery) : Bool :=
  let p := frameNs s
  let k := w.headD {}
  w.length == 8 && w.zipIdx.all (fun x => x.1.t + x.2 * p == k.t && decide (x.1.validity ≤ 1) && bitAt x.1.status 6 == 0
    && x.1.epoch == k.epoch) && k.t % p == 0

/-- ns from a delivery's sample instant to a servo instant at network time `ts`, elapsed time `te`: exact (R210), and in elapsed time
where a step that moved the frame grid lies between them (R465). -/
def rsLead (ts : Nat) (te : Int) (d : Delivery) : Int := if d.moved then te - d.te else (ts : Int) - (d.t : Int)

/-- The estimate of R210: position and velocity in 2^-32 turn and 2^-32 turn per ns. -/
def rsEstimate (s : State) (n : Fin 16) (lead : Int) (w : List Delivery) : Rat × Rat :=
  let p : Rat := frameNs s
  let k := w.headD {}
  let d : Rat := lead
  let m : Int := (d / p).floor
  let u : Int := (64 * (d / p - (m : Rat))).floor
  let x : Rat := 3 + (u : Rat) / 64
  let dt : Rat := d + 4 * p - (u : Rat) * p / 64
  let q := w.reverse.map (fun y => ((wrap64 (y.pos - k.pos) : Int) : Rat))
  let sum := fun (f : List Rat → List Rat) => q.zipIdx.foldl (fun (a : Rat) (y : Rat × Nat) =>
    a + polyAt (f (lagrange y.2)) x * y.1) 0
  let xh : Rat := (k.pos : Rat) + sum id
  let vh := sum polyDer / p
  let ah := sum (fun c => polyDer (polyDer c)) / (p * p)
  if flag s (.rs n) Rs.CFG_ACC then (xh + vh * dt + ah * dt * dt / 2, vh + ah * dt) else (xh + vh * dt, vh)

/-! ### Servo instants (R205–R207, R214, R215) -/

/-- The servo instant the lane handles at this tick (R205, R206). -/
def servoDue (s : State) (n : Fin 16) : Option Nat :=
  let l := s.rs[n]
  gridDue s (getF s (.rs n) Rs.PERIOD) (getF s (.rs n) Rs.PHASE) l.lastAt l.lastTs l.stepped

/-- The records of an output (R214). -/
def rsRecords (n : Fin 16) (w0 : Nat) (shv vsat : Bool) (prev : Nat) (s : State) : State :=
  let rec_ := getF s (.rs n) Rs.CFG_REC
  if rec_ = 0 then s
  else
    let l := s.rs[n]
    let u := ofSigned 64 l.posOut
    let ep := l.epochOut
    let e0 : QEntry := { w0 := wordOf w0, w1 := wordOf l.tsOut, w2 := wordOf u, w3 := wordOf (u / 2 ^ 32) }
    let e1 : QEntry := { w0 := word0 0x41 (seqOf s clsLane n) ep (n.val * 2 ^ 10 + bitOf shv * 2 ^ 9 + bitOf vsat * 2 ^ 8),
                         w1 := wordOf (ofSigned 32 l.velOut), w2 := if shv then wordOf (ofSigned 32 l.shOut) else 0,
                         w3 := wordOf prev }
    postRecord (fin16 (getF s (.rs n) Rs.CFG_EVQ)) srcLane (if rec_ = 2 then [e0, e1] else [e0]) (seqNext clsLane n s)

/-- The output of a servo instant. -/
def servoOutput (n : Fin 16) (ts : Nat) (s : State) : State :=
  let l := s.rs[n]
  let te : Int := (elapsedNs s : Int) - (s.time.now - ts : Nat)
  let k := l.win.headD {}
  let held := k.validity == 2
  let full := rsComplete s l.win && !held
  let lead := rsLead ts te k
  let (p, v) : Rat × Rat :=
    if full then rsEstimate s n lead l.win
    else
      let v : Int := if held then 0 else k.vel
      ((k.pos : Rat) + (v : Rat) * 2 ^ 16 * (lead : Rat) / 1000000000, (v : Rat) * 2 ^ 16 / 1000000000)
  let vel := ratRound (v * 1000000000 / 2 ^ 16)
  let vsat := decide (2 ^ 31 ≤ vel.natAbs)
  let vel := clampI (-(2 ^ 31 - 1)) (2 ^ 31 - 1) vel
  let used := if full then l.win else [k]
  let disc := (timeBack s (instEl s ts : Nat)).2.2 || used.any (fun d => d.disc)
  let x := used.any (fun d => d.validity == 1)
  let first := rsState s n == 1
  let gb := l.gb || first
  let s := setF (.rs n) Rs.STATUS_STATE 2 s
  let low := n.val * 2 ^ 10 + getF s (.rs n) Rs.CFG_AXIS * 2 ^ 6 + bitOf gb * 32 + bitOf (!full) * 16 + bitOf disc * 8
    + bitOf x * 4 + bitOf held * 2 + bitOf (getF s (.rs n) Rs.CFG_REC == 2)
  let w0 := (word0 0x40 (seqOf s clsLane n) (timeEpoch s) low).toNat
  let inp := if flag s (.rs n) Rs.SH_CTRL_SRC then shIn s n else vel
  let (sh, s) := shOutput n inp s
  let ep := timeEpoch s
  let t32 := ts % 2 ^ 32
  let at_ := instEl s ts
  let prev := if l.gbEnable then 0 else l.prevRec
  let s := modRs n (fun y => { y with posOut := wrap64 (ratRound p), velOut := vel, w0 := w0, shOut := sh, epochOut := ep,
                                      leadOut := satU 16 lead.toNat, tsOut := t32, lastAt := some at_, lastTs := ts,
                                      gb := false, gbEnable := false, stepped := false, prevRec := t32 }) s
  let s := setF (.rs n) Rs.STATUS_RECCNT (getF s (.rs n) Rs.STATUS_RECCNT + 1) (setF (.rs n) Rs.TSERVO t32 s)
  let s := raiseIf vsat (.rs n) Rs.STATUS_VSATEV (raiseIf held (.rs n) Rs.STATUS_HELDEV s)
  let s := raiseIf (!full) (.rs n) Rs.STATUS_SHORTEV (raiseIf gb (.rs n) Rs.STATUS_GBEV (raiseF (.rs n) Rs.STATUS_RECEV s))
  rsRecords n w0 (flag s (.rs n) Rs.SH_CTRL_SHEN) vsat prev s

/-- The groups locked to a lane come to the end of their batches at its servo instant (R242, R244). -/
def rgJudge (n : Fin 16) (s : State) : State :=
  if !lpeRuns s then s
  else forAll (List.finRange 4) (fun k s =>
    if flag s .lpe (Lpe.RG_CFG_EN k) && flag s .lpe (Lpe.RG_CFG_LOCK k) && getF s .lpe (Lpe.RG_CFG_LANE k) == n.val then rgOverrun k s
    else s) s

/-- SERVO_INSTANT. -/
def servoInstant (n : Fin 16) (s : State) : State :=
  if !(live s (.rs n) && (rsState s n == 1 || rsState s n == 2)) then s
  else
    match servoDue s n with
    | none => s
    | some t => if (s.rs[n]).win.isEmpty then s else rgJudge n (servoOutput n t s)

def execServoInstant (n : Fin 16) (s : State) : Outcome := .next (servoInstant n s)

/-- A read of RS_TSERVO captures the rest of the same output (R216). -/
def rsSnap (n : Fin 16) (s : State) : State :=
  let l := s.rs[n]
  let u := ofSigned 64 l.posOut
  let s := setF (.rs n) Rs.POS_LO u (setF (.rs n) Rs.POS_HI (u / 2 ^ 32) (setI (.rs n) Rs.VEL l.velOut s))
  let s := setF (.rs n) Rs.W0 l.w0 (setI (.rs n) Rs.SHOUT l.shOut s)
  setF (.rs n) Rs.LEAD l.leadOut (setF (.rs n) Rs.EPOCH l.epochOut s)

end Sys2Proof.Machine
end

