-- ==== Sys2Proof/Machine/Capture.lean ====
section
/-!
DEFINITION. The capture unit (R257–R265).
-/

namespace Sys2Proof.Machine

def modCap (f : CapSt → CapSt) (s : State) : State := { s with cap := f s.cap }
def capState (s : State) : Nat := getF s .cap Cap.STATUS_STATE

/-- Words of one channel buffer (R257). -/
def capC (s : State) : Nat := 16384 / 2 ^ getF s .cap Cap.CFG_NCH

/-- Samples per channel in force. -/
def capLen (s : State) : Nat := min (getF s .cap Cap.LEN_LEN) (capC s)

/-! ### The capture memory -/

/-- The word of the capture memory with an index (R257, R263). -/
def capWord (s : State) (i : Nat) : Word :=
  match assocGet i s.cap.mem with
  | some w => w
  | none => match s.cap.undef with
    | none => 0
    | some c => BitVec.ofNat 32 (Config.freeValue (c + i))

/-- A word written by the unit. -/
def capSet (i : Nat) (w : Word) (c : CapSt) : CapSt :=
  { c with mem := match c.undef with
    | none => assocSet 0 i w c.mem
    | some _ => assocPut i w c.mem }

/-- The contents become undefined (R261): every word reads a free value until the unit writes it. -/
def capForget (s : State) : State :=
  let c := s.free
  { s with free := s.free + 16384, cap := { s.cap with mem := [], undef := some c } }

/-! ### Commands and registers (R261, R262, R265) -/

/-- LEN and PRE as a write stores them: the nearer limits (R265). -/
def capFit (s : State) (w : Word) : Nat × Nat :=
  let len := clampN 16 (capC s) (fieldOf w Cap.LEN_LEN)
  (len, min (fieldOf w Cap.LEN_PRE) (len - 1))

/-- ARM (R261). -/
def capStart (s : State) : State :=
  let roll := flag s .cap Cap.CFG_ROLL
  let seen := (s.inj[fin4 (getF s .cap Cap.TRIG_IDX)]).firstInst
  let k := fin16 (getF s .cap Cap.CLK_IDX)
  let last := if getF s .cap Cap.CLK_SRC = 1 then
      (match (s.rs[k]).lastAt with | some a => if 100 ≤ sinceNs s a then some a else none | none => none) else none
  let s := setF .cap Cap.WP 0 (setF .cap Cap.STATUS_STATE (if roll then 4 else 1) s)
  let s := modCap (fun c => { c with rp := if roll then 0 else c.rp, rpLen := none, taken := 0, met := false, dly := 0, post := 0, prev := none, trigReq := false,
                                     injSeen := seen, gbDue := false, gbIn := false, skipIn := false, shortIn := false,
                                     due := [], lastAt := last, staged := none, commitDue := false }) s
  if roll then s
  else
    let s := modCap (fun c => { c with ovr := 0, wraps := 0 }) s
    let s := setF .cap Cap.RPSKIP 0 (setF .cap Cap.SKIPCNT 0 s)
    forAll [Cap.STATUS_CUT, Cap.STATUS_SHORTPRE, Cap.STATUS_GB, Cap.STATUS_SKIPEV, Cap.STATUS_TRIGEV, Cap.STATUS_DONEEV]
      (fun f s => setF .cap f 0 s) s

/-- The unit enters DONE with a trigger sample taken: its record (R264). -/
def capRecord (cut : Bool) (s : State) : State :=
  let c := s.cap
  let low := bitOf c.gbIn * 8 + bitOf c.skipIn * 4 + bitOf c.shortIn * 2 + bitOf cut
  let npre := getF s .cap Cap.TIDX_NPRE
  let e : QEntry := { w0 := word0 0x50 (seqOf s clsCap 0) c.trigEpoch low, w1 := wordOf (getF s .cap Cap.TTIME),
                      w2 := wordOf (getF s .cap Cap.TIDX_TIDX * 2 ^ 16 + npre), w3 := wordOf (npre + c.post) }
  postRecord (fin16 (getF s .cap Cap.CFG_EVQ)) srcCap [e] (seqNext clsCap 0 s)

/-- STOP (R261). -/
def capHalt (s : State) : State :=
  let st := capState s
  if st = 4 then setF .cap Cap.STATUS_STATE 3 s
  else if st = 1 ∨ st = 2 then
    let s := raiseF .cap Cap.STATUS_CUT (setF .cap Cap.STATUS_STATE 3 s)
    if st = 2 then capRecord true s else s
  else s

/-- A write of CAP_CMD: STOP goes before a trigger and before an ARM of the same word (R261, log 71). -/
def capCommand (w : Word) (s : State) : State :=
  if fieldOf w Cap.CMD_STOP = 1 then capHalt s
  else
    let st := capState s
    let s := if fieldOf w Cap.CMD_ARM = 1 ∧ (st = 0 ∨ st = 3) then capStart s else s
    if fieldOf w Cap.CMD_TRIG = 1 ∧ capState s = 1 ∧ getF s .cap Cap.TRIG_MODE = 4 then
      modCap (fun c => { c with trigReq := true }) s
    else s

/-- A staged length commits (R262); the read index wraps at the old length for the rest of its pass, as a queue's does (R330). -/
def capCommit (s : State) : State :=
  match s.cap.staged with
  | some (len, pre) =>
    if s.cap.commitDue && capState s == 4 then
      let old := capLen s
      let rp := s.cap.rp
      let s := setF .cap Cap.LEN_PRE pre (setF .cap Cap.LEN_LEN len s)
      let s := modCap (fun c => { c with staged := none, commitDue := false }) s
      if rp = getF s .cap Cap.WP then s
      else if len ≤ rp then
        setF .cap Cap.RPSKIP (getF s .cap Cap.RPSKIP + (old - rp)) (modCap (fun c => { c with rp := 0 }) s)
      else modCap (fun c => { c with rpLen := some old }) s
    else s
  | none => s

/-- The store of a register. -/
def capStore (off : Nat) (w : Word) (s : State) : State :=
  let st := capState s
  if off = 0x18 then
    let s := capCommit s
    let (len, pre) := capFit s w
    if st = 4 then modCap (fun c => { c with staged := some (len, pre) }) s
    else if running s .cap then s
    else setF .cap Cap.LEN_PRE pre (setF .cap Cap.LEN_LEN len s)
  else if off = 0x1C then capCommand w s
  else if off = 0x28 then
    if st = 4 then
      let r := fieldOf w Cap.RP
      modCap (fun c => { c with rp := r, rpLen := if r < c.rp then none else c.rpLen }) s
    else s
  else storeFields .cap off w s

/-- A write to the unit. In ROLL a write of CAP_LEN changes no RWO field: it is staged (R262). -/
def capWrite (ag : Agent) (off : Nat) (w : Word) (s : State) : State :=
  if off = 0x18 ∧ capState s = 4 ∧ judge ag .cap off w s = .runw then
    capStore off w s
  else judgedWrite ag .cap off w (capStore off w) s

def execCapArm (ag : Agent) (w : Word) (s : State) : Outcome := .next (capWrite ag 0x1C w s)
def execCapStop (ag : Agent) (w : Word) (s : State) : Outcome := .next (capWrite ag 0x1C w s)
def execCapTrig (ag : Agent) (w : Word) (s : State) : Outcome := .next (capWrite ag 0x1C w s)
def execCapLenWrite (ag : Agent) (w : Word) (s : State) : Outcome := .next (capWrite ag 0x18 w s)

def execCapLenCommit (s : State) : Outcome := .next (if live s .cap then capCommit s else s)

/-! ### Sources (R259) -/

/-- Sample of the source with a code, as a word. -/
def capSource (s : State) (code : Nat) : Nat :=
  let kind := bits code 15 12
  let i := bits code 11 6
  let f := bits code 5 0
  match kind with
  | 1 =>
    let n := fin64 i
    let b : Blk := .lp n
    let x := s.lp[n]
    if lpState s n = 0 then 0
    else
      match f with
      | 7 => storedWord s b Lp.STATUS_STATE.off
      | 0 => getF s b Lp.U
      | 1 => ofSigned 32 (satS 32 x.upre)
      | 2 => ofSigned 32 x.e
      | 3 => ofSigned 32 (lpI32 s n)
      | 4 => ofSigned 32 x.rEval
      | 5 => ofSigned 32 x.y
      | 6 => ofSigned 32 x.inj
      | _ => 0
  | 2 =>
    if 16 ≤ i then 0
    else
      let n := fin16 i
      let d := (s.ax[n]).del
      if f = 0 then getF s (.ax n) Ax.U
      else if f = 1 then ofSigned 32 d.vel
      else if 32 ≤ f then ofSigned 64 d.pos / 2 ^ (f - 32) % 2 ^ 32
      else 0
  | 3 =>
    if 16 ≤ i then 0
    else
      let n := fin16 i
      if trkState s n = 0 then 0
      else if f = 0 then storedWord s (.rc n) Rc.ANGLE_ANGLE.off else if f = 1 then ofSigned 32 (s.rc[n]).pub.vel else 0
  | 4 =>
    if 8 ≤ i then 0
    else
      let b : Blk := .ai (fin8 i)
      if !flag s b Ai.CTRL_EN then 0
      else match f with
      | 0 => getF s b Ai.VALUE | 1 => getF s b Ai.PEAK | 2 => getF s b Ai.ENV | _ => 0
  | 5 => if 4 ≤ i ∨ f ≠ 0 then 0 else getF s (.inj (fin4 i)) Inj.OUT
  | 6 =>
    if 16 ≤ i then 0
    else
      let n := fin16 i
      let l := s.rs[n]
      if rsState s n = 0 then 0
      else
        match f with
        | 0 => ofSigned 32 l.velOut | 1 => ofSigned 32 l.shOut | 2 => ofSigned 32 l.posOut | _ => 0
  | _ => 0

/-- Sample of channel c. -/
def capChannel (s : State) (c : Nat) : Nat := capSource s (getF s .cap (Cap.SRC c)) % 2 ^ 32

/-! ### Samples (R258, R260, R262) -/

/-- A sample due: its instant, whether its batch was overrun, and the elapsed time of the instant (R258). -/
def capDue (s : State) : Option (Nat × Bool × Option Nat) :=
  let c := s.cap
  match getF s .cap Cap.CLK_SRC with
  | 0 => match c.due with
    | (t, o) :: _ => some (t, o, none)
    | [] => none
  | 1 =>
    let k := fin16 (getF s .cap Cap.CLK_IDX)
    match (s.rs[k]).lastAt with
    | some a => if rsState s k = 2 ∧ 100 ≤ sinceNs s a ∧ c.lastAt ≠ some a then some ((s.rs[k]).lastTs, false, some a) else none
    | none => none
  | _ =>
    let p := frameNs s
    if s.time.now < 1000 then none
    else
      let b := (s.time.now - 1000) / p * p
      let again := match c.lastAt with | some a => decide (2 * sinceNs s a < p) | none => false
      if s.time.now * 2 ^ 28 + s.time.frac < (b + 1000) * 2 ^ 28 + s.time.inc ∧ b % 1000000000 / p % (getF s .cap Cap.CLK_DIV + 1) = 0 ∧ again = false then
        some (b, false, some s.elapsed)
      else none

/-- The trigger condition at a sample (R260); a level is crossed upwards from below it to it or above, downwards from above
it to it or below (log 72). A capture armed between instant j = 0 and its sample still takes it; where the clock is not that group, the
first sample after it is one that the arming may have missed. -/
def capMeets (s : State) (inst : Nat) : Bool :=
  let idx := getF s .cap Cap.TRIG_IDX
  let thr := getI s .cap Cap.THR
  let now : Int := toSigned 32 (capChannel s idx)
  let chan := decide (idx < 2 ^ getF s .cap Cap.CFG_NCH)
  match getF s .cap Cap.TRIG_MODE with
  | 0 => true
  | 1 =>
    let x := (s.inj[fin4 idx]).firstInst
    decide (idx < 4) && (match x with
      | some f => if getF s .cap Cap.CLK_SRC = 0
            ∧ getF s .cap Cap.CLK_IDX = (lpGroup s (fin64 (getF s (.inj (fin4 idx)) Inj.CFG_LOOP))).val
          then inst == f else x != s.cap.injSeen && decide (f ≤ inst)
      | none => false)
  | 2 => chan && (match s.cap.prev with | some p => decide (p < thr) && decide (thr ≤ now) | none => false)
  | 3 => chan && (match s.cap.prev with | some p => decide (thr < p) && decide (now ≤ thr) | none => false)
  | _ => s.cap.trigReq

/-- A row written at the write index; a word written anew holds no ECC error. -/
def capRow (s : State) (i : Nat) : State :=
  let n := 2 ^ getF s .cap Cap.CFG_NCH
  let c := capC s
  let s := modCap (fun x => (List.range n).foldl (fun (x : CapSt) (k : Nat) => capSet (k * c + i) (wordOf (capChannel s k)) x) x) s
  { s with ecc := (List.range n).foldl (fun l k => assocErase (0x29000000 + 4 * (k * c + i)) l) s.ecc }

/-- The unit moves the read index on (R262), which wraps at the length of its pass. After a commit to a shorter ring a read index moved to
the new length is at or beyond it: it is set to 0 and what is skipped so counts in CAP_RPSKIP (log 166). -/
def capPushRp (len : Nat) (s : State) : State :=
  let old := s.cap.rpLen.getD len
  let last := decide (min old len ≤ s.cap.rp + 1)
  let skip := if last then old - (s.cap.rp + 1) else 0
  setF .cap Cap.RPSKIP (getF s .cap Cap.RPSKIP + skip) (modCap (fun c =>
    { c with rp := if last then 0 else c.rp + 1, rpLen := if last then none else c.rpLen, ovr := (c.ovr + 1) % 2 ^ 32 }) s)

/-- The write index advances (R261, R262). -/
def capAdvance (s : State) : State :=
  let i := getF s .cap Cap.WP
  let len := capLen s
  let i' := if len ≤ i + 1 then 0 else i + 1
  let s := setF .cap Cap.WP i' s
  let s := if i' = 0 then
      modCap (fun c => { c with wraps := (c.wraps + 1) % 2 ^ 32, commitDue := c.staged.isSome }) s else s
  if capState s = 4 ∧ i' = s.cap.rp then capPushRp len s else s

/-- The trigger sample is taken (R260). -/
def capTrigger (i inst : Nat) (s : State) : State :=
  let pre := getF s .cap Cap.LEN_PRE
  let n := min pre s.cap.taken
  let short := decide (s.cap.taken < pre)
  let ep := timeEpoch s
  let s := setF .cap Cap.TTIME (inst % 2 ^ 32) (setF .cap Cap.TIDX_NPRE n (setF .cap Cap.TIDX_TIDX i s))
  let s := raiseIf short .cap Cap.STATUS_SHORTPRE (raiseF .cap Cap.STATUS_TRIGEV (setF .cap Cap.STATUS_STATE 2 s))
  modCap (fun c => { c with post := 1, trigEpoch := ep, shortIn := short }) s

/-- LEN − PRE samples have been taken from the trigger sample on. -/
def capFull (s : State) : Bool :=
  capState s == 2 && decide (capLen s ≤ s.cap.post + getF s .cap Cap.LEN_PRE)

/-- One sample (R258–R262). -/
def capSample (inst : Nat) (ovr : Bool) (mark : Option Nat) (s : State) : State :=
  let s := capCommit s
  let i := getF s .cap Cap.WP
  let roll := capState s == 4
  let s := if ovr then
      modCap (fun c => { c with skipIn := true })
        (raiseF .cap Cap.STATUS_SKIPEV (setF .cap Cap.SKIPCNT (getF s .cap Cap.SKIPCNT + 1) s)) else s
  let s := if s.cap.gbDue then
      modCap (fun c => { c with gbIn := true, gbDue := false }) (raiseF .cap Cap.STATUS_GB (setF .cap Cap.GBIDX i s)) else s
  let s := capRow s i
  let meets := capMeets s inst
  let idx := getF s .cap Cap.TRIG_IDX
  let prev : Int := toSigned 32 (capChannel s idx)
  let s :=
    if roll then s
    else if capState s = 2 then modCap (fun c => { c with post := c.post + 1 }) s
    else
      let d := if s.cap.met then s.cap.dly - 1 else getF s .cap Cap.TRIG_DLY
      if s.cap.met || meets then
        let s := modCap (fun c => { c with met := true, dly := d }) s
        if d = 0 then capTrigger i inst s else s
      else s
  let s := modCap (fun c => { c with prev := some prev, taken := c.taken + 1, due := c.due.drop 1,
                                     lastAt := match mark with | some a => some a | none => c.lastAt }) s
  capAdvance s

/-- CAPTURE_SAMPLE. -/
def captureSample (s : State) : State :=
  if live s .cap && running s .cap && !capFull s then
    match capDue s with
    | some (t, o, m) => capSample t o m s
    | none => s
  else s

def execCaptureSample (s : State) : Outcome := .next (captureSample s)

/-- CAPTURE_COMPLETE (R261, R264). -/
def captureComplete (s : State) : State :=
  if live s .cap && capFull s then
    raiseF .cap Cap.STATUS_DONEEV (capRecord false (setF .cap Cap.STATUS_STATE 3 s))
  else s

def execCaptureComplete (s : State) : Outcome := .next (captureComplete s)

/-- A read of CAP_WP captures the rest (R263). -/
def capSnap (s : State) : State :=
  setF .cap Cap.WRAPS s.cap.wraps (setF .cap Cap.OVR s.cap.ovr (setF .cap Cap.RP s.cap.rp s))

/-- Isolation or reset of the Control region (R261). -/
def capLost (s : State) : State := capForget (setF .cap Cap.STATUS_STATE 0 s)

end Sys2Proof.Machine
end

