-- ==== Sys2Proof/Machine/Flags.lean ====
section
/-!
DEFINITION. The flag computations of the Jarharus instructions (R298–R302), and their shifts. A flag result is a mask of the
flags an instruction writes with their values.
-/

namespace Sys2Proof.Machine

/-- ST bits (R298): Z [0], N [1], C [2], V [3], GV [4], LV [5]. -/
def flagBits (z n c v gv lv : Bool) : BitVec 6 :=
  BitVec.ofBool lv ++ BitVec.ofBool gv ++ BitVec.ofBool v ++ BitVec.ofBool c ++ BitVec.ofBool n ++ BitVec.ofBool z

/-- Z and N of a result. -/
def flagsZN (r : Word) : EWrite := .flags 0b000011 (flagBits (r == 0) r.msb false false false false)

/-- Z, N and V. -/
def flagsZNV (r : Word) (v : Bool) : EWrite := .flags 0b001011 (flagBits (r == 0) r.msb false v false false)

/-- Z, N and C; a shift of 0 leaves C unchanged (R300). -/
def flagsZNC (r : Word) (c : Option Bool) : EWrite :=
  match c with
  | some c => .flags 0b000111 (flagBits (r == 0) r.msb c false false false)
  | none => flagsZN r

/-- Z, N, C and V. -/
def flagsZNCV (r : Word) (c v : Bool) : EWrite := .flags 0b001111 (flagBits (r == 0) r.msb c v false false)

/-- C and V. -/
def flagsCV (c v : Bool) : EWrite := .flags 0b001100 (flagBits false false c v false false)

/-- GV set where an accumulator wraps (R271). -/
def flagsGV (wrapped : Bool) : List EWrite := if wrapped then [.flags 0b010000 0b010000] else []

/-- Z and N, and LV set where the result saturated (R273). -/
def flagsLV (z n sat : Bool) : List EWrite :=
  .flags 0b000011 (flagBits z n false false false false) :: (if sat then [.flags 0b100000 0b100000] else [])

/-- a + b + c: result, carry and signed overflow. -/
def addCarry (a b : Word) (c : Bool) : Word × Bool × Bool :=
  let n := a.toNat + b.toNat + (if c then 1 else 0)
  let i := a.toInt + b.toInt + (if c then 1 else 0)
  let r := BitVec.ofNat 32 n
  (r, decide (2 ^ 32 ≤ n), r.toInt != i)

/-- a − b − (1 − c): result, no borrow, and signed overflow (R298). -/
def subCarry (a b : Word) (c : Bool) : Word × Bool × Bool :=
  let r := a - b - (if c then 0 else 1)
  let i := a.toInt - b.toInt - (if c then 0 else 1)
  (r, decide (b.toNat + (if c then 0 else 1) ≤ a.toNat), r.toInt != i)

/-- A value saturated to signed 32 bits, and whether it saturated. -/
def sat32 (i : Int) : Word × Bool :=
  let c := clampI (-(2 ^ 31)) (2 ^ 31 - 1) i
  (BitVec.ofInt 32 c, c != i)

/-- Shift left by n with the last bit shifted out. -/
def shiftLeft (a : Word) (n : Nat) : Word × Option Bool :=
  if n = 0 then (a, none) else (a <<< n, some (decide (n ≤ 32) && a.getLsbD (32 - n)))

/-- Logical shift right. -/
def shiftRight (a : Word) (n : Nat) : Word × Option Bool :=
  if n = 0 then (a, none) else (a >>> n, some (decide (n ≤ 32) && a.getLsbD (n - 1)))

/-- Arithmetic shift right. -/
def shiftArith (a : Word) (n : Nat) : Word × Option Bool :=
  if n = 0 then (a, none) else (a.sshiftRight n, some (if n ≤ 32 then a.getLsbD (n - 1) else a.msb))

/-- Leading zero bits. -/
def leadingZeros (a : Word) : Nat := 32 - Nat.size a.toNat

/-- The test of a condition code on ST (R299). -/
def condHolds (c : Fin 16) (st : BitVec 6) : Bool :=
  let z := st.getLsbD 0
  let n := st.getLsbD 1
  let cf := st.getLsbD 2
  let v := st.getLsbD 3
  let gv := st.getLsbD 4
  match c.val with
  | 0 => true | 1 => z | 2 => !z | 3 => cf | 4 => !cf | 5 => n | 6 => !n | 7 => v | 8 => !v
  | 9 => cf && !z | 10 => !cf || z | 11 => n == v | 12 => n != v | 13 => !z && n == v | 14 => z || n != v
  | _ => gv

end Sys2Proof.Machine
end

