-- ==== Sys2Proof/Machine/Operands.lean ====
section
/-!
DEFINITION. Operands of the Lantern engines: the registers of the present level (R269, R285), accumulators (R271–R274), the
post-modified pointers (R275), the checks of an address (R276, R277) and the results of an instruction (R281, R303).
-/

namespace Sys2Proof.Machine

def modLe (k : Fin 8) (f : LeSt → LeSt) (s : State) : State := { s with le := s.le.set k (f (s.le[k])) }

/-- Present interrupt level: 1 in the handler. -/
def leLevel (s : State) (k : Fin 8) : Bool := flag s (.le k) Le.STATUS_LEVEL

/-! ### Registers of a level -/

/-- Gi at a level; G0 reads 0 (R269). -/
def gReg (e : LeSt) (lv : Bool) (i : Fin 32) : Word :=
  if i = 0 then 0 else if lv = true ∧ 24 ≤ i.val then e.gx[i.val % 8] else e.g[i]

def pReg (e : LeSt) (lv : Bool) (i : Fin 8) : Word := if lv = true ∧ 6 ≤ i.val then e.px[i.val % 2] else e.p[i]
def lReg (e : LeSt) (lv : Bool) (i : Fin 8) : BitVec 20 := if lv = true ∧ 6 ≤ i.val then e.lx[i.val % 2] else e.l[i]
def kReg (e : LeSt) (lv : Bool) (i : Fin 8) : BitVec 20 := if lv = true ∧ 6 ≤ i.val then e.kx[i.val % 2] else e.k[i]
def aReg (e : LeSt) (lv : Bool) (i : Fin 4) : Accum := if lv = true ∧ i = 3 then e.ax else e.a[i]

/-- A G register written; a write to G0 is discarded (R269). -/
def setG (lv : Bool) (i : Nat) (v : Word) (e : LeSt) : LeSt :=
  if i % 32 = 0 then e
  else if lv = true ∧ 24 ≤ i % 32 then { e with gx := e.gx.set (i % 8) v (Nat.mod_lt _ (by decide)) }
  else { e with g := e.g.set (i % 32) v (Nat.mod_lt _ (by decide)) }

def setP (lv : Bool) (i : Nat) (v : Word) (e : LeSt) : LeSt :=
  if lv = true ∧ 6 ≤ i % 8 then { e with px := e.px.set (i % 2) v (Nat.mod_lt _ (by decide)) }
  else { e with p := e.p.set (i % 8) v (Nat.mod_lt _ (by decide)) }

def setL (lv : Bool) (i : Nat) (v : BitVec 20) (e : LeSt) : LeSt :=
  if lv = true ∧ 6 ≤ i % 8 then { e with lx := e.lx.set (i % 2) v (Nat.mod_lt _ (by decide)) }
  else { e with l := e.l.set (i % 8) v (Nat.mod_lt _ (by decide)) }

def setK (lv : Bool) (i : Nat) (v : BitVec 20) (e : LeSt) : LeSt :=
  if lv = true ∧ 6 ≤ i % 8 then { e with kx := e.kx.set (i % 2) v (Nat.mod_lt _ (by decide)) }
  else { e with k := e.k.set (i % 8) v (Nat.mod_lt _ (by decide)) }

def setAcc (lv : Bool) (i : Nat) (v : Accum) (e : LeSt) : LeSt :=
  if lv = true ∧ i % 4 = 3 then { e with ax := v }
  else { e with a := e.a.set (i % 4) v (Nat.mod_lt _ (by decide)) }

/-- One result written. -/
def applyWrite (k : Fin 8) (s : State) (w : EWrite) : State :=
  let lv := leLevel s k
  match w with
  | .g i v => modLe k (setG lv i v) s
  | .p i v => modLe k (setP lv i v) s
  | .l i v => modLe k (setL lv i v) s
  | .k i v => modLe k (setK lv i v) s
  | .acc i v => modLe k (setAcc lv i v) s
  | .accLd i v => modLe k (setAcc lv i v) s
  | .flags m v => modLe k (fun e => { e with st := (e.st &&& ~~~m) ||| (v &&& m) }) s
  | .dmem a v => setWord (dramBase k + a) v s
  | .ien g n => setF (.le k) Le.IEN_GIE g (setF (.le k) Le.IEN_IEN n s)

/-- Results written in order. -/
def applyWrites (k : Fin 8) (ws : List EWrite) (s : State) : State := ws.foldl (applyWrite k) s

/-- The results that the last instruction left for the next but one become visible (R281). -/
def settle (k : Fin 8) (s : State) : State :=
  modLe k (fun e => { e with pend := [] }) (applyWrites k (s.le[k]).pend s)

/-! ### Accumulators (R271–R274) -/

/-- Value of an accumulator. -/
def Accum.int (a : Accum) : Int := a.v.toInt

/-- An accumulator that holds a value exactly. -/
def accOf (i : Int) : Accum := { v := BitVec.ofInt 72 i, nw := 0, lost := false }

/-- NW moved, pinned under R272. -/
def moveNw (a : Accum) (d : Int) : Accum :=
  if a.lost then a
  else
    let n := a.nw + d
    if 127 < n then { a with nw := 127, lost := true }
    else if n < -128 then { a with nw := -128, lost := true }
    else { a with nw := n }

/-- A sum modulo 2^72, and the wrap of its exact result: 1 above, −1 below (R271). -/
def accSum (a : Accum) (x : Int) : BitVec 72 × Int :=
  let i := a.int + x
  (BitVec.ofInt 72 i, if 2 ^ 71 - 1 < i then 1 else if i < -(2 ^ 71) then -1 else 0)

/-- A product added to an accumulator, and whether it wrapped. -/
def accAdd (a : Accum) (x : Int) : Accum × Bool :=
  let (v, w) := accSum a x
  ({ moveNw a w with v := v }, w != 0)

/-- AADD and ASUB (R307). -/
def accCombine (a b : Accum) (sub : Bool) : Accum × Bool :=
  let (v, w) := accSum a (if sub then -b.int else b.int)
  let m := moveNw a ((if sub then -b.nw else b.nw) + w)
  ({ v := v, nw := m.nw, lost := m.lost || b.lost }, w != 0)

/-- The accumulating operand: what an instruction before it computed is seen at once (R281). -/
def accOperand (e : LeSt) (lv : Bool) (i : Fin 4) : Accum :=
  e.pend.foldl (fun (x : Accum) (w : EWrite) => match w with
    | .acc j v => if j = i.val then v else x
    | _ => x) (aReg e lv i)

/-- A saturating move to 32 bits of the exact value divided by 2^sh (R273, R308): the word, and whether it saturated. -/
def accMove (a : Accum) (sh : Nat) (convergent : Bool) : Word × Bool :=
  if a.nw = 0 then sat32 (if convergent then roundEven a.int (2 ^ sh) else a.int / (2 ^ sh : Int))
  else if 0 < a.nw then (0x7FFFFFFF, true) else (0x80000000, true)

/-- RND (R307): the accumulator, and whether it saturated. -/
def accRound (a : Accum) (pos : Nat) : Accum × Bool :=
  let top : Int := (2 ^ 71 - 1) / 2 ^ pos * 2 ^ pos
  if a.nw = 0 then
    let r := roundEven a.int (2 ^ pos) * 2 ^ pos
    if 2 ^ 71 - 1 < r then (accOf top, true) else (accOf r, false)
  else if 0 < a.nw then (accOf top, true) else (accOf (-(2 ^ 71)), true)

/-- The exact product of two words in a mode (R305). -/
def mulProduct (m : MulMode) (a b : Word) : Int :=
  match m with
  | .ss => a.toInt * b.toInt
  | .su => a.toInt * (b.toNat : Int)
  | .uu => (a.toNat : Int) * (b.toNat : Int)

/-! ### Address generation (R275–R277) -/

/-- The smallest power of two at or above a length. -/
def pow2Above (n : Nat) : Nat := if n ≤ 1 then 1 else 2 ^ Nat.size (n - 1)

/-- Pn after its post-modification (R275). -/
def postMod (p : Word) (l k : BitVec 20) : Word :=
  if l = 0 then p + k.signExtend 32
  else
    let b := p.toNat / pow2Above l.toNat * pow2Above l.toNat
    BitVec.ofInt 32 ((b : Int) + (((p.toNat - b : Nat) : Int) + k.toInt) % (l.toNat : Int))

/-- The post-modification an instruction calls for. -/
def postWrite (e : LeSt) (lv post : Bool) (p : Fin 8) : List EWrite :=
  if post then [.p p.val (postMod (pReg e lv p) (lReg e lv p) (kReg e lv p))] else []

/-- The fault an address meets (R276, R277, R290): ALIGN first, then the range of the space. -/
def addrFault (sp : Space) (size a : Nat) : Option Nat :=
  if a % size ≠ 0 then some 6
  else
    match sp with
    | .d => if 0x8000 ≤ a then some 5 else none
    | .x => if 0x80000 ≤ a then some 7 else none
    | .c => none

/-- A word of an engine's data RAM. -/
def dWord (s : State) (k : Fin 8) (a : Nat) : Word := memWord s (dramBase k + a)

/-- The words of the data RAM from an address hold an uncorrectable error: a load of them faults with DECC (R280). -/
def dBad (s : State) (k : Fin 8) (a words : Nat) : Bool :=
  (List.range words).any (fun i => eccBad s (dramBase k + a + 4 * i))

/-- Addresses of the corrected errors that a load of these words meets (R280). -/
def dMeets (s : State) (k : Fin 8) (a words : Nat) : List Nat :=
  ((List.range words).map (fun i => dramBase k + a + 4 * i)).filter (fun x => (eccAt s x).isSome)

/-- A 64-bit accumulator load: the guard bits copy bit 63 (R309). -/
def accLoad (lo hi : Word) : Accum := accOf (hi ++ lo : BitVec 64).toInt

/-! ### Results of an instruction -/

/-- How an instruction ends. -/
inductive JCtl where
  /-- the next instruction follows, after a number of cycles -/
  | seq (cycles : Nat)
  /-- the next instruction follows a load of the data RAM, which met corrected errors at these addresses (R280) -/
  | meet (addrs : List Nat)
  /-- a branch, call or return: its target if it is taken, and whether it ends the loops it leaves: a call does not (R282,
  R283) -/
  | branch (taken : Option Nat) (leaves : Bool := true)
  /-- LOOP: end of the body and count (R283) -/
  | loop (fin count : Nat)
  /-- WAIT with its conditions (R318) -/
  | wait (w : WaitSt)
  /-- the pipeline stalls in X2 (R278, R310, R316) -/
  | stall (x : Stall)
  /-- a posted store enters the write buffer (R278) -/
  | post (e : StoreEnt)
  | rtf
  | halt
  deriving DecidableEq, Repr

/-- What an instruction does: results the next instruction sees, results only the second sees, further effects, and how it
ends. A fault does nothing. -/
inductive JRes where
  | fault (cause : Nat)
  | ok (now later : List EWrite) (ctl : JCtl)
  deriving DecidableEq, Repr

/-- An instruction with one result word in Gd and flags (R281: G seen at once, flags by the second instruction). -/
def aluRes (d : Fin 32) (r : Word) (fl : List EWrite) : JRes := .ok [.g d.val r] fl (.seq 1)

end Sys2Proof.Machine
end

