-- ==== Sys2Proof/Machine/Engines.lean ====
section
/-!
DEFINITION. The life of a Lantern engine (R268, R281–R294): how an instruction retires, delay slots, hardware loops, faults,
interrupts, commands and the register window.
-/

namespace Sys2Proof.Machine

/-- STATE of LE_STATUS: 0 IDLE, 1 RUN, 2 WAIT, 3 STOPPED, 4 HALTED, 5 FAULT, 6 PAUSED. -/
def leState (s : State) (k : Fin 8) : Nat := getF s (.le k) Le.STATUS_STATE
def setLeState (k : Fin 8) (n : Nat) (s : State) : State := setF (.le k) Le.STATUS_STATE n s
def lePc (s : State) (k : Fin 8) : Nat := getF s (.le k) Le.PC
def setPc (k : Fin 8) (n : Nat) (s : State) : State := setF (.le k) Le.PC n s

/-- The engine processes: it is live, or it is isolated and runs on to the first point where an interrupt could enter, where the
STOP of its isolation takes effect (R289, log 134). -/
def leLive (s : State) (k : Fin 8) : Bool :=
  live s (.le k) || (clocked s .control && !underReset s (.le k) && isolated s (.le k) && (s.le[k]).stopHeld)

/-- The engine has a clock in a mode (R268). -/
def leClock (m : Nat) (k : Fin 8) : Bool := decide (m ≤ 1) || (m == 2 && decide (k.val < 2))

/-- Instructions execute: RUN, or a STEP in progress, with no stall (R289). -/
def leReady (s : State) (k : Fin 8) : Bool :=
  leLive s k && leClock (mode s) k && (s.le[k]).stall.isNone
    && (leState s k == 1 || (leState s k == 3 && (s.le[k]).stepLeft != 0))

/-- The queue write of an engine's QW as the controller meets it (R316). -/
def qwRec (s : State) (k : Fin 8) (q : Fin 16) (e : QEntry) : InRec :=
  { queue := q, src := 32 + (Agent.le k).code, entries := [e], cyc := s.cycle, qw := some k }

/-- The queue write of engine k is not answered and is held back (R287, R328). -/
def qwHeld (s : State) (k : Fin 8) (q : Fin 16) (e : QEntry) : Bool :=
  (s.le[k]).qwDone.isNone && !pushRefused (.le k) q e s && qwBlocked q (qwRec s k q e) s

/-- The engine stands where an interrupt may enter: no delay slot, and no stall but a queue write that BLOCK holds back
(R285, R287). -/
def entryPoint (s : State) (k : Fin 8) : Bool :=
  (s.le[k]).slots == 0 && (match (s.le[k]).stall with
    | none => true
    | some (.qw q e) => (s.le[k]).wbuf.isEmpty && qwHeld s k (fin16 q) e
    | some _ => false)

/-- Cycles in RUN are counted (R293); a STEP's are not. -/
def leCount (k : Fin 8) (n : Nat) (s : State) : State :=
  if leState s k = 1 then modLe k (fun e => { e with cyc := e.cyc + n }) s else s

/-! ### Hardware loops (R283) -/

/-- The instruction after the one at `pc`, and the loop stack: the innermost loop of the level whose end it is returns to its start
until its count is used up. -/
def loopNext (lv : Bool) (pc : Nat) : List LoopEnt → Nat × List LoopEnt
  | [] => (pc + 1, [])
  | l :: t =>
    if l.fin = pc ∧ l.lv = lv then
      (if 1 < l.count then (l.start, { l with count := l.count - 1 } :: t) else loopNext lv pc t)
    else (pc + 1, l :: t)

/-- Loops of the level whose body a taken branch from `src` to `t` leaves end (log 73). -/
def loopLeave (lv : Bool) (src t : Nat) (l : List LoopEnt) : List LoopEnt :=
  l.dropWhile (fun e => e.lv == lv && decide (e.start ≤ src) && decide (src ≤ e.fin)
    && !(decide (e.start ≤ t) && decide (t ≤ e.fin)))

/-- The instruction is one of the last two of a loop body in progress at its level. -/
def loopTail (s : State) (k : Fin 8) (pc : Nat) : Bool :=
  (s.le[k]).loops.any (fun l => l.lv == leLevel s k && (l.fin == pc || l.fin == pc + 1) && decide (l.start ≤ pc))

/-! ### Retirement -/

/-- A STOP that was held takes effect at the first point where an interrupt could enter (R289). -/
def leStopNow (k : Fin 8) (s : State) : State :=
  let s := settle k s
  setLeState k 3 (modLe k (fun e => { e with stopHeld := false, wait := none, stall := none, stepLeft := 0 }) s)

def leStopPoint (k : Fin 8) (s : State) : State :=
  if (s.le[k]).stopHeld && leState s k == 1 && entryPoint s k then leStopNow k s else s

/-- The engine goes on to the next instruction: delay slots, loops, and a held STOP. -/
def leAdvance (k : Fin 8) (cycles : Nat) (s : State) : State :=
  let e := s.le[k]
  let pc := lePc s k
  let lv := leLevel s k
  let s := leCount k cycles (modLe k (fun e => { e with stall := none, stepLeft := e.stepLeft - 1 }) s)
  let s :=
    match e.slots, e.target with
    | 1, some t => setPc k t (modLe k (fun e => { e with slots := 0, target := none,
                                                         loops := if e.leaves then loopLeave lv (pc - 2) t e.loops else e.loops }) s)
    | n, _ =>
      let (pc', ls) := loopNext lv pc e.loops
      setPc k pc' (modLe k (fun e => { e with slots := n - 1, loops := ls }) s)
  leStopPoint k s

/-- The engine faults at `pc` (R290): older instructions complete, LE_FAULT is written and the alarm raised; IECC and DECC are a cell
fault of its RAM too (R425). -/
def leFault (k : Fin 8) (cause pc : Nat) (s : State) : State :=
  let s := settle k s
  let s := if cause = 8 ∨ cause = 9 then blkMet (.le k) .cell s else s
  let s := modLe k (fun e => { e with stall := none, wait := none, qwDone := none, stopHeld := false, stepLeft := 0 }) s
  let s := setF (.le k) Le.FAULT_CAUSE cause (setF (.le k) Le.FAULT_PC pc (setLeState k 5 s))
  let s := raiseF (.le k) Le.STATUS_FAULTEV s
  let s := raiseIf (cause == 10) (.le k) Le.STATUS_WDOGEV s
  raiseAlarm (if cause = 10 then 0x0C02 else 0x0C01) (blkBase (.le k)) 2 false s

/-- IPEND: bit 1 follows the level of the queue LE_MBQ names (R284). -/
def leIpend (s : State) (k : Fin 8) : Nat :=
  let v := getF s (.le k) Le.IPEND
  v - bitAt v 1 * 2 + bitOf (getF s (.q (fin16 (getF s (.le k) Le.MBQ))) Q.LEVEL_LEVEL != 0) * 2

/-- A source is both pending and enabled. -/
def leSource (s : State) (k : Fin 8) : Bool := (leIpend s k) &&& (getF s (.le k) Le.IEN_IEN) != 0

/-- The conditions of a WAIT that hold, T W Q I from bit 0 (R318). -/
def waitHolds (s : State) (k : Fin 8) (w : WaitSt) : Nat :=
  bitOf (w.t && passed s w.target) + bitOf (w.w && (s.le[k]).wk) * 2
    + bitOf (w.q && decide (w.level ≤ getF s (.q (fin16 w.queue)) Q.LEVEL_LEVEL)) * 4 + bitOf (w.i && leSource s k) * 8

/-- A WAIT completes (R318). -/
def waitDone (k : Fin 8) (w : WaitSt) (s : State) : State :=
  let m := waitHolds s k w
  let lv := leLevel s k
  let s := modLe k (fun e => setG lv w.d (wordOf m) { e with wk := if w.w then false else e.wk, wait := none }) s
  leAdvance k 1 (if leState s k = 2 then setLeState k 1 s else s)

/-- A store enters the write buffer, or stalls where its four entries are taken (R278). -/
def lePost (k : Fin 8) (x : StoreEnt) (s : State) : State :=
  if (s.le[k]).wbuf.length < 4 then leAdvance k 1 (modLe k (fun e => { e with wbuf := e.wbuf ++ [x] }) s)
  else modLe k (fun e => { e with stall := some (.store x) }) s

/-- An instruction ends. -/
def leControl (k : Fin 8) (c : JCtl) (s : State) : State :=
  let pc := lePc s k
  match c with
  | .seq n => leAdvance k n s
  | .meet l => leAdvance k 1 (l.foldl (fun s a => eccMeet (.le k) a s) s)
  | .branch t leaves =>
    let s := leCount k 1 (modLe k (fun e => { e with slots := 2, target := t, leaves := leaves,
                                                     stepLeft := if e.stepLeft = 0 then 0 else e.stepLeft + 1 }) s)
    setPc k (loopNext (leLevel s k) pc (s.le[k]).loops).1 s
  | .loop fin count =>
    if 2 ≤ (s.le[k]).loops.length then leFault k 3 pc s
    else if count = 0 then
      leStopPoint k (setPc k (fin + 1) (leCount k 3 (modLe k (fun e => { e with stepLeft := e.stepLeft - 1 }) s)))
    else
      let l : LoopEnt := { start := pc + 1, fin := fin, count := count, lv := leLevel s k }
      let s := leCount k 1 (modLe k (fun e => { e with stepLeft := e.stepLeft - 1, loops := l :: e.loops }) s)
      leStopPoint k (setPc k (pc + 1) s)
  | .wait w =>
    if waitHolds s k w ≠ 0 then waitDone k w s
    else if leState s k = 3 then modLe k (fun e => { e with stepLeft := 0 }) s
    else if (s.le[k]).stopHeld then leStopNow k s
    else setLeState k 2 (modLe k (fun e => { e with wait := some w }) s)
  | .stall x => modLe k (fun e => { e with stall := some x }) s
  | .post x => lePost k x s
  | .rtf =>
    let s := leCount k 7 (setF (.le k) Le.STATUS_LEVEL 0 (setPc k (s.le[k]).ilr s))
    leStopPoint k (modLe k (fun e => { e with st := e.ist, stepLeft := e.stepLeft - 1,
                                              loops := e.loops.filter (fun l => !l.lv) }) s)
  | .halt =>
    let s := settle k (leCount k 1 (modLe k (fun e => { e with stepLeft := 0, stopHeld := false }) s))
    raiseF (.le k) Le.STATUS_HALTEV (setLeState k 4 (setPc k (pc + 1) s))

/-- Instructions that may not stand in a delay slot or in the last two places of a loop body (R282, R283). -/
def JCtl.slotBarred : JCtl → Bool
  | .branch _ _ | .loop _ _ | .wait _ | .rtf | .halt => true
  | .seq _ | .meet _ | .stall _ | .post _ => false

/-- An instruction retires. `barred` names the instructions of R282; `f` computes what it does from the state as it sees it,
before the results that R281 keeps from it. -/
def leRetire (k : Fin 8) (barred : Bool) (f : State → JRes) (s : State) : State :=
  let pc := lePc s k
  if 12287 < pc then leFault k 4 pc s
  else
    let slot := (s.le[k]).slots != 0 || loopTail s k pc
    match f s with
    | .fault c => leFault k (if barred && slot then 2 else c) pc s
    | .ok now later ctl =>
      if barred && slot then leFault k 2 pc s
      else leControl k ctl (modLe k (fun e => { e with pend := later }) (applyWrites k now (settle k s)))

/-- The engine executes an instruction if it is ready to. -/
def leRun (k : Fin 8) (barred : Bool) (f : State → JRes) (s : State) : State :=
  if leReady s k then leRetire k barred f s else s

/-! ### Interrupts (R285–R287) -/

/-- INTERRUPT_ENTRY. -/
def interruptEntry (k : Fin 8) (s : State) : State :=
  let st := leState s k
  if live s (.le k) && leClock (mode s) k && (st == 1 || st == 2) && !leLevel s k && flag s (.le k) Le.IEN_GIE
      && leSource s k && entryPoint s k && !(s.le[k]).stopHeld then
    let s := settle k s
    let pc := lePc s k
    let s := modLe k (fun e => { e with ilr := pc, ist := e.st, wait := none, stall := none }) s
    setPc k (getF s (.le k) Le.IVEC) (setF (.le k) Le.STATUS_LEVEL 1 (leCount k 4 (setLeState k 1 s)))
  else s

def execInterruptEntry (k : Fin 8) (s : State) : Outcome := .next (interruptEntry k s)

/-- WATCHDOG_EXPIRY (R291). -/
def watchdogExpiry (k : Fin 8) (s : State) : State :=
  let p := getF s (.le k) Le.WDOG
  if live s (.le k) && (leState s k == 1 || leState s k == 2) && p != 0
      && decide (p * 1000 * 2 ^ 28 ≤ (s.le[k]).wdogRun) then leFault k 10 (lePc s k) s
  else s

def execWatchdogExpiry (k : Fin 8) (s : State) : Outcome := .next (watchdogExpiry k s)

/-- WAIT_COMPLETE (R318). -/
def waitComplete (k : Fin 8) (s : State) : State :=
  if live s (.le k) && leClock (mode s) k && leState s k == 2 then
    match (s.le[k]).wait with
    | some w => if waitHolds s k w ≠ 0 then waitDone k w s else s
    | none => s
  else s

def execWaitComplete (k : Fin 8) (s : State) : Outcome := .next (waitComplete k s)

/-! ### Commands (R289, R315) -/

/-- An engine without a clock in the mode is in PAUSED (R268, R289). -/
def lePause (k : Fin 8) (s : State) : State :=
  let st := leState s k
  if (st = 1 ∨ st = 2) ∧ leClock (mode s) k = false then setLeState k 6 (modLe k (fun e => { e with before := st }) s) else s

/-- The engine is clocked again (R289): its state before PAUSED, then a STOP that was held. -/
def leUnpause (k : Fin 8) (s : State) : State :=
  if leState s k = 6 ∧ leClock (mode s) k = true then
    let s := setLeState k (s.le[k]).before s
    if (s.le[k]).stopHeld && (leState s k == 2 || entryPoint s k) then leStopNow k s else s
  else s

/-- RUN (R289). -/
def leStart (k : Fin 8) (s : State) : State :=
  let s := modLe k (fun e => { e with loops := [], slots := 0, target := none, stall := none, wait := none, qwDone := none,
                                      stopHeld := false, wk := false, wdogRun := 0, stepLeft := 0 }) s
  let s := setF (.le k) Le.STATUS_LEVEL 0 (setPc k (getF s (.le k) Le.ENTRY) s)
  lePause k (setLeState k 1 s)

/-- STOP (R289). -/
def leHalt (k : Fin 8) (s : State) : State :=
  if leState s k = 2 then leStopNow k s
  else if leState s k = 1 ∧ entryPoint s k = true then leStopNow k s
  else modLe k (fun e => { e with stopHeld := true }) s

/-- RESET (R289): the registers are cleared, the RAMs and the write buffer kept. -/
def leClear (k : Fin 8) (s : State) : State :=
  let s := modLe k (fun e =>
    { ({} : LeSt) with ilr := e.ilr, ist := e.ist, cyc := e.cyc, s11 := e.s11, wbuf := e.wbuf, before := e.before }) s
  let s := setF (.le k) Le.STATUS_LEVEL 0 (setF (.le k) Le.IPEND 0 (setF (.le k) Le.FBAXES 0 s))
  setLeState k 0 s

/-- Acceptance of LE_CMD.CMD (R289), but for the execution of STEP's instruction. -/
def leCommand (k : Fin 8) (cmd : Nat) (s : State) : State :=
  let st := leState s k
  let rej := raiseF (.le k) Le.STATUS_CMDREJ s
  match cmd with
  | 1 => if st = 0 ∨ st = 3 ∨ st = 4 ∨ st = 5 then leStart k s else rej
  | 2 => if st = 1 ∨ st = 2 ∨ st = 6 then leHalt k s else rej
  | 3 => if st = 3 then modLe k (fun e => { e with stepLeft := 1 }) s else rej
  | 4 => if st = 3 then lePause k (setLeState k 1 (modLe k (fun e => { e with wdogRun := 0 }) s)) else rej
  | 5 => leClear k s
  | _ => s

/-- The store of a register of the control area; SWI follows a RESET of the same write (R289, R293). -/
def leStore (k : Fin 8) (off : Nat) (w : Word) (s : State) : State :=
  if off = 0x8 then
    let s := leCommand k (fieldOf w Le.CMD_CMD) s
    if fieldOf w Le.CMD_SWI = 1 then raiseBit (.le k) Le.IPEND 4 s else s
  else storeFields (.le k) off w s

def leWrite (ag : Agent) (k : Fin 8) (off : Nat) (w : Word) (s : State) : State :=
  judgedWrite ag (.le k) off w (leStore k off w) s

def execLeRun (ag : Agent) (k : Fin 8) (w : Word) (s : State) : Outcome := .next (leWrite ag k 0x8 w s)
def execLeStop (ag : Agent) (k : Fin 8) (w : Word) (s : State) : Outcome := .next (leWrite ag k 0x8 w s)
def execLeResume (ag : Agent) (k : Fin 8) (w : Word) (s : State) : Outcome := .next (leWrite ag k 0x8 w s)
def execLeReset (ag : Agent) (k : Fin 8) (w : Word) (s : State) : Outcome := .next (leWrite ag k 0x8 w s)
def execLeSwi (ag : Agent) (k : Fin 8) (w : Word) (s : State) : Outcome := .next (leWrite ag k 0x8 w s)

/-- Isolation (R289): STOPPED from any state but PAUSED, as STOP; the STOP of an engine inside a delay slot or a stall is held. -/
def leIsolate (k : Fin 8) (s : State) : State :=
  let st := leState s k
  if st = 6 then s
  else if st = 1 ∨ st = 2 then leHalt k s
  else setLeState k 3 (modLe k (fun e => { e with stepLeft := 0 }) (settle k s))

/-- The cycle counters as a read shows them (R293): the low word, and the high word captured. -/
def leCycSnap (k : Fin 8) (s : State) : State := setF (.le k) Le.CYC_HI ((s.le[k]).cyc / 2 ^ 32) s

/-! ### The register window (R294) -/

/-- The window shows the live registers (R294); while the device is frozen it does so in every state (R438). -/
def windowOpen (s : State) (k : Fin 8) : Bool :=
  let st := leState s k
  st == 0 || st == 3 || st == 4 || st == 5 || frozen s

/-- Words of an accumulator in the window. -/
def accWord (a : Accum) (i : Nat) : Word :=
  match i with
  | 0 => a.v.extractLsb' 0 32
  | 1 => a.v.extractLsb' 32 32
  | 2 => wordOf ((a.v.extractLsb' 64 8).toNat + ofSigned 8 a.nw * 2 ^ 8 + bitOf a.lost * 2 ^ 16)
  | _ => 0

/-- An accumulator with one word of the window written. -/
def accPut (a : Accum) (i : Nat) (w : Word) : Accum :=
  let v := a.v.toNat
  match i with
  | 0 => { a with v := BitVec.ofNat 72 (v / 2 ^ 32 * 2 ^ 32 + w.toNat) }
  | 1 => { a with v := BitVec.ofNat 72 (v / 2 ^ 64 * 2 ^ 64 + w.toNat * 2 ^ 32 + v % 2 ^ 32) }
  | 2 => { v := BitVec.ofNat 72 (w.toNat % 256 * 2 ^ 64 + v % 2 ^ 64), nw := toSigned 8 (w.toNat / 256),
           lost := bitAt w.toNat 16 == 1 }
  | _ => a

/-- Entry j of the loop stack, the outer loop being entry 0. -/
def loopEntry (e : LeSt) (j : Nat) : LoopEnt := e.loops.reverse[j]?.getD default

/-- Entry j of the loop stack replaced; a stack that does not hold it grows by it (log 74). -/
def loopPut (j : Nat) (f : LoopEnt → LoopEnt) (e : LeSt) : LeSt :=
  let l := e.loops.reverse
  let l := if l.length ≤ j then l ++ List.replicate (j + 1 - l.length) default else l
  { e with loops := (l.modify j f).reverse }

/-- Word of the register window at an offset in the control area. -/
def windowWord (e : LeSt) (off : Nat) : Word :=
  let i := off % 0x100 / 4
  if off < 0x180 then e.g[i % 32]
  else if off < 0x1A0 then e.p[i % 8]
  else if off < 0x1C0 then (e.l[i % 8]).setWidth 32
  else if off < 0x1E0 then (e.k[i % 8]).signExtend 32
  else if off = 0x1E0 then e.st.setWidth 32
  else if off = 0x1E4 then wordOf e.ilr
  else if off = 0x1E8 then e.ist.setWidth 32
  else if off = 0x1F0 then wordOf ((loopEntry e 0).fin * 2 ^ 16 + (loopEntry e 0).start)
  else if off = 0x1F4 then wordOf ((loopEntry e 1).fin * 2 ^ 16 + (loopEntry e 1).start)
  else if off = 0x1F8 then wordOf (loopEntry e 0).count
  else if off = 0x1FC then wordOf (loopEntry e 1).count
  else if off < 0x240 then accWord (e.a[(off - 0x200) / 16 % 4]) (off % 16 / 4)
  else if off < 0x260 then e.gx[(off - 0x240) / 4 % 8]
  else if off < 0x268 then e.px[i % 2]
  else if off < 0x270 then (e.lx[i % 2]).setWidth 32
  else if off < 0x278 then (e.kx[i % 2]).signExtend 32
  else accWord e.ax (off % 16 / 4)

/-- A word of the window written. -/
def windowPut (off : Nat) (w : Word) (e : LeSt) : LeSt :=
  let i := off % 0x100 / 4
  if off < 0x180 then (if i = 0 then e else { e with g := e.g.set (i % 32) w (Nat.mod_lt _ (by decide)) })
  else if off < 0x1A0 then { e with p := e.p.set (i % 8) w (Nat.mod_lt _ (by decide)) }
  else if off < 0x1C0 then { e with l := e.l.set (i % 8) (w.setWidth 20) (Nat.mod_lt _ (by decide)) }
  else if off < 0x1E0 then { e with k := e.k.set (i % 8) (w.setWidth 20) (Nat.mod_lt _ (by decide)) }
  else if off = 0x1E0 then { e with st := w.setWidth 6 }
  else if off = 0x1E4 then { e with ilr := w.toNat % 2 ^ 14 }
  else if off = 0x1E8 then { e with ist := w.setWidth 6 }
  else if off = 0x1F0 ∨ off = 0x1F4 then
    loopPut (i % 2) (fun l => { l with fin := bits w.toNat 29 16, start := bits w.toNat 13 0 }) e
  else if off = 0x1F8 ∨ off = 0x1FC then loopPut (i % 2) (fun l => { l with count := w.toNat }) e
  else if off < 0x240 then
    let j := (off - 0x200) / 16 % 4
    { e with a := e.a.set j (accPut (e.a[j]'(Nat.mod_lt _ (by decide))) (off % 16 / 4) w) (Nat.mod_lt _ (by decide)) }
  else if off < 0x260 then { e with gx := e.gx.set ((off - 0x240) / 4 % 8) w (Nat.mod_lt _ (by decide)) }
  else if off < 0x268 then { e with px := e.px.set (i % 2) w (Nat.mod_lt _ (by decide)) }
  else if off < 0x270 then { e with lx := e.lx.set (i % 2) (w.setWidth 20) (Nat.mod_lt _ (by decide)) }
  else if off < 0x278 then { e with kx := e.kx.set (i % 2) (w.setWidth 20) (Nat.mod_lt _ (by decide)) }
  else { e with ax := accPut e.ax (off % 16 / 4) w }

/-- Judgement of a write to a location that only the owner writes, and only while the engine does not run (R279, R294):
like a write that changes an RWO field. -/
def lockedVerdict (ag : Agent) (k : Fin 8) (changes : Bool) (s : State) : Verdict :=
  if !awake s then .asleep
  else if regionReset s .control then .reset
  else if isolated s (.le k) then .iso
  else if ag.code ≠ owner s (.le k) then .own
  else if running s (.le k) && changes then .runw
  else .ok

/-- Such a write: rejections are recorded with the offset from the base of the window (R26, R267). -/
def lockedWrite (ag : Agent) (k : Fin 8) (off : Nat) (changes : Bool) (store : State → State) (s : State) : State :=
  match lockedVerdict ag k changes s with
  | .asleep => s
  | .reset => resetWrite ag (.le k) off s
  | .iso => blkErr (.le k) .iso ag.code off s
  | .own => blkErr (.le k) .own ag.code off s
  | .runw => blkErr (.le k) .runw ag.code off s
  | .ok => store s

/-- A write to the register window. -/
def windowWrite (ag : Agent) (k : Fin 8) (off : Nat) (w : Word) (s : State) : State :=
  lockedWrite ag k off (windowWord (windowPut off w (s.le[k])) off != windowWord (s.le[k]) off)
    (modLe k (windowPut off w)) s

/-- A write to an engine's RAM, at an offset of the RAM's window whose base is given (R279). -/
def ramWrite (ag : Agent) (k : Fin 8) (base off : Nat) (w : Word) (s : State) : State :=
  lockedWrite ag k off (memWord s (base + off) != w) (setWord (base + off) w) s

end Sys2Proof.Machine
end

