-- ==== Sys2Proof/Machine/Jarharus.lean ====
section
/-!
DEFINITION. The Jarharus instructions (R300–R319): what each does to its engine, as results the next instruction sees,
results only the second sees, and how it ends. A row of an instruction is the execution of that instruction by engine k at
its PC (log 76).
-/

namespace Sys2Proof.Machine

/-- Ga as an instruction of engine k reads it. -/
def rd (s : State) (k : Fin 8) (i : Fin 32) : Word := gReg (s.le[k]) (leLevel s k) i

/-- The flags as an instruction reads them: not those of the instruction before it (R281). -/
def rdSt (s : State) (k : Fin 8) : BitVec 6 := (s.le[k]).st

/-! ### Integer instructions (R300, R301) -/

/-- An ALU operation with Z and N. -/
def resZN (d : Fin 32) (r : Word) : JRes := aluRes d r [flagsZN r]

/-- One with Z, N, C and V. -/
def resZNCV (d : Fin 32) (x : Word × Bool × Bool) : JRes := aluRes d x.1 [flagsZNCV x.1 x.2.1 x.2.2]

/-- A shift. -/
def resShift (d : Fin 32) (x : Word × Option Bool) : JRes := aluRes d x.1 [flagsZNC x.1 x.2]

/-- A saturated result. -/
def resSat (d : Fin 32) (x : Word × Bool) : JRes := aluRes d x.1 [flagsZNV x.1 x.2]

/-- ADD (R300). -/
def jAdd (k : Fin 8) (d a b : Fin 32) (s : State) : JRes := resZNCV d (addCarry (rd s k a) (rd s k b) false)
def execAdd (k : Fin 8) (d a b : Fin 32) (s : State) : Outcome :=
  .next (leRun k false (jAdd k d a b) s)

/-- ADDC (R300). -/
def jAddc (k : Fin 8) (d a b : Fin 32) (s : State) : JRes := resZNCV d (addCarry (rd s k a) (rd s k b) ((rdSt s k).getLsbD 2))
def execAddc (k : Fin 8) (d a b : Fin 32) (s : State) : Outcome :=
  .next (leRun k false (jAddc k d a b) s)

/-- SUB (R300). -/
def jSub (k : Fin 8) (d a b : Fin 32) (s : State) : JRes := resZNCV d (subCarry (rd s k a) (rd s k b) true)
def execSub (k : Fin 8) (d a b : Fin 32) (s : State) : Outcome :=
  .next (leRun k false (jSub k d a b) s)

/-- SUBC (R300). -/
def jSubc (k : Fin 8) (d a b : Fin 32) (s : State) : JRes := resZNCV d (subCarry (rd s k a) (rd s k b) ((rdSt s k).getLsbD 2))
def execSubc (k : Fin 8) (d a b : Fin 32) (s : State) : Outcome :=
  .next (leRun k false (jSubc k d a b) s)

/-- AND (R300). -/
def jAnd (k : Fin 8) (d a b : Fin 32) (s : State) : JRes := resZN d (rd s k a &&& rd s k b)
def execAnd (k : Fin 8) (d a b : Fin 32) (s : State) : Outcome :=
  .next (leRun k false (jAnd k d a b) s)

/-- OR (R300). -/
def jOr (k : Fin 8) (d a b : Fin 32) (s : State) : JRes := resZN d (rd s k a ||| rd s k b)
def execOr (k : Fin 8) (d a b : Fin 32) (s : State) : Outcome :=
  .next (leRun k false (jOr k d a b) s)

/-- XOR (R300). -/
def jXor (k : Fin 8) (d a b : Fin 32) (s : State) : JRes := resZN d (rd s k a ^^^ rd s k b)
def execXor (k : Fin 8) (d a b : Fin 32) (s : State) : Outcome :=
  .next (leRun k false (jXor k d a b) s)

/-- ANDN (R300). -/
def jAndn (k : Fin 8) (d a b : Fin 32) (s : State) : JRes := resZN d (rd s k a &&& ~~~(rd s k b))
def execAndn (k : Fin 8) (d a b : Fin 32) (s : State) : Outcome :=
  .next (leRun k false (jAndn k d a b) s)

/-- SHL (R300): by b[5:0]. -/
def jShl (k : Fin 8) (d a b : Fin 32) (s : State) : JRes := resShift d (shiftLeft (rd s k a) ((rd s k b).toNat % 64))
def execShl (k : Fin 8) (d a b : Fin 32) (s : State) : Outcome :=
  .next (leRun k false (jShl k d a b) s)

/-- SHR (R300): by b[5:0]. -/
def jShr (k : Fin 8) (d a b : Fin 32) (s : State) : JRes := resShift d (shiftRight (rd s k a) ((rd s k b).toNat % 64))
def execShr (k : Fin 8) (d a b : Fin 32) (s : State) : Outcome :=
  .next (leRun k false (jShr k d a b) s)

/-- ASR (R300): by b[5:0]. -/
def jAsr (k : Fin 8) (d a b : Fin 32) (s : State) : JRes := resShift d (shiftArith (rd s k a) ((rd s k b).toNat % 64))
def execAsr (k : Fin 8) (d a b : Fin 32) (s : State) : Outcome :=
  .next (leRun k false (jAsr k d a b) s)

/-- ROR (R300): by b[4:0]. -/
def jRor (k : Fin 8) (d a b : Fin 32) (s : State) : JRes := resZN d ((rd s k a).rotateRight ((rd s k b).toNat % 32))
def execRor (k : Fin 8) (d a b : Fin 32) (s : State) : Outcome :=
  .next (leRun k false (jRor k d a b) s)

/-- MIN (R300). -/
def jMin (k : Fin 8) (d a b : Fin 32) (s : State) : JRes := resZN d (if (rd s k a).toInt ≤ (rd s k b).toInt then rd s k a else rd s k b)
def execMin (k : Fin 8) (d a b : Fin 32) (s : State) : Outcome :=
  .next (leRun k false (jMin k d a b) s)

/-- MAX (R300). -/
def jMax (k : Fin 8) (d a b : Fin 32) (s : State) : JRes := resZN d (if (rd s k b).toInt ≤ (rd s k a).toInt then rd s k a else rd s k b)
def execMax (k : Fin 8) (d a b : Fin 32) (s : State) : Outcome :=
  .next (leRun k false (jMax k d a b) s)

/-- MINU (R300). -/
def jMinu (k : Fin 8) (d a b : Fin 32) (s : State) : JRes := resZN d (if (rd s k a).toNat ≤ (rd s k b).toNat then rd s k a else rd s k b)
def execMinu (k : Fin 8) (d a b : Fin 32) (s : State) : Outcome :=
  .next (leRun k false (jMinu k d a b) s)

/-- MAXU (R300). -/
def jMaxu (k : Fin 8) (d a b : Fin 32) (s : State) : JRes := resZN d (if (rd s k b).toNat ≤ (rd s k a).toNat then rd s k a else rd s k b)
def execMaxu (k : Fin 8) (d a b : Fin 32) (s : State) : Outcome :=
  .next (leRun k false (jMaxu k d a b) s)

/-- ABS (R300). -/
def jAbs (k : Fin 8) (d a : Fin 32) (s : State) : JRes := resSat d (sat32 |(rd s k a).toInt|)
def execAbs (k : Fin 8) (d a : Fin 32) (s : State) : Outcome :=
  .next (leRun k false (jAbs k d a) s)

/-- NEG (R300). -/
def jNeg (k : Fin 8) (d a : Fin 32) (s : State) : JRes := resSat d (sat32 (-(rd s k a).toInt))
def execNeg (k : Fin 8) (d a : Fin 32) (s : State) : Outcome :=
  .next (leRun k false (jNeg k d a) s)

/-- CLZ (R300). -/
def jClz (k : Fin 8) (d a : Fin 32) (s : State) : JRes := resZN d (wordOf (leadingZeros (rd s k a)))
def execClz (k : Fin 8) (d a : Fin 32) (s : State) : Outcome :=
  .next (leRun k false (jClz k d a) s)

/-- CMP (R300): no register is written. -/
def jCmp (k : Fin 8) (a b : Fin 32) (s : State) : JRes := 
  let x := subCarry (rd s k a) (rd s k b) true
  .ok [] [flagsZNCV x.1 x.2.1 x.2.2] (.seq 1)
def execCmp (k : Fin 8) (a b : Fin 32) (s : State) : Outcome :=
  .next (leRun k false (jCmp k a b) s)

/-- TCMP (R300): C := 0, V := 0. -/
def jTcmp (k : Fin 8) (a b : Fin 32) (s : State) : JRes := 
  let x := rd s k a - rd s k b
  .ok [] [flagsZNCV x false false] (.seq 1)
def execTcmp (k : Fin 8) (a b : Fin 32) (s : State) : Outcome :=
  .next (leRun k false (jTcmp k a b) s)

/-- ADDS (R300). -/
def jAdds (k : Fin 8) (d a b : Fin 32) (s : State) : JRes := resSat d (sat32 ((rd s k a).toInt + (rd s k b).toInt))
def execAdds (k : Fin 8) (d a b : Fin 32) (s : State) : Outcome :=
  .next (leRun k false (jAdds k d a b) s)

/-- SUBS (R300). -/
def jSubs (k : Fin 8) (d a b : Fin 32) (s : State) : JRes := resSat d (sat32 ((rd s k a).toInt - (rd s k b).toInt))
def execSubs (k : Fin 8) (d a b : Fin 32) (s : State) : Outcome :=
  .next (leRun k false (jSubs k d a b) s)

/-- ADDI (R301). -/
def jAddi (k : Fin 8) (d a : Fin 32) (imm : BitVec 16) (s : State) : JRes := resZNCV d (addCarry (rd s k a) (imm.signExtend 32) false)
def execAddi (k : Fin 8) (d a : Fin 32) (imm : BitVec 16) (s : State) : Outcome :=
  .next (leRun k false (jAddi k d a imm) s)

/-- ANDI (R301). -/
def jAndi (k : Fin 8) (d a : Fin 32) (imm : BitVec 16) (s : State) : JRes := resZN d (rd s k a &&& imm.setWidth 32)
def execAndi (k : Fin 8) (d a : Fin 32) (imm : BitVec 16) (s : State) : Outcome :=
  .next (leRun k false (jAndi k d a imm) s)

/-- ORI (R301). -/
def jOri (k : Fin 8) (d a : Fin 32) (imm : BitVec 16) (s : State) : JRes := resZN d (rd s k a ||| imm.setWidth 32)
def execOri (k : Fin 8) (d a : Fin 32) (imm : BitVec 16) (s : State) : Outcome :=
  .next (leRun k false (jOri k d a imm) s)

/-- XORI (R301). -/
def jXori (k : Fin 8) (d a : Fin 32) (imm : BitVec 16) (s : State) : JRes := resZN d (rd s k a ^^^ imm.setWidth 32)
def execXori (k : Fin 8) (d a : Fin 32) (imm : BitVec 16) (s : State) : Outcome :=
  .next (leRun k false (jXori k d a imm) s)

/-- SHI (R301): flags as the register form. -/
def jShi (k : Fin 8) (d a : Fin 32) (kind : ShiftKind) (amt : Fin 32) (s : State) : JRes := 
  match kind with
  | .shl => resShift d (shiftLeft (rd s k a) amt.val)
  | .shr => resShift d (shiftRight (rd s k a) amt.val)
  | .asr => resShift d (shiftArith (rd s k a) amt.val)
  | .ror => resZN d ((rd s k a).rotateRight amt.val)
def execShi (k : Fin 8) (d a : Fin 32) (kind : ShiftKind) (amt : Fin 32) (s : State) : Outcome :=
  .next (leRun k false (jShi k d a kind amt) s)

/-- CMPI (R301). -/
def jCmpi (k : Fin 8) (a : Fin 32) (imm : BitVec 16) (s : State) : JRes := 
  let x := subCarry (rd s k a) (imm.signExtend 32) true
  .ok [] [flagsZNCV x.1 x.2.1 x.2.2] (.seq 1)
def execCmpi (k : Fin 8) (a : Fin 32) (imm : BitVec 16) (s : State) : Outcome :=
  .next (leRun k false (jCmpi k a imm) s)

/-- MOVI (R301). -/
def jMovi (_k : Fin 8) (d : Fin 32) (imm : BitVec 16) (_s : State) : JRes := aluRes d (imm.signExtend 32) []
def execMovi (k : Fin 8) (d : Fin 32) (imm : BitVec 16) (s : State) : Outcome :=
  .next (leRun k false (jMovi k d imm) s)

/-- MOVHI (R301): the low half is kept. -/
def jMovhi (k : Fin 8) (d : Fin 32) (imm : BitVec 16) (s : State) : JRes := aluRes d (imm ++ (rd s k d).setWidth 16 : BitVec 32) []
def execMovhi (k : Fin 8) (d : Fin 32) (imm : BitVec 16) (s : State) : Outcome :=
  .next (leRun k false (jMovhi k d imm) s)

/-! ### Multiplication (R302, R303): Gd is seen by the second instruction -/

def resMul (d : Fin 32) (r : Word) : JRes := .ok [] [.g d.val r, flagsZN r] (.seq 1)

/-- MUL (R302). -/
def jMul (k : Fin 8) (d a b : Fin 32) (s : State) : JRes := resMul d (rd s k a * rd s k b)
def execMul (k : Fin 8) (d a b : Fin 32) (s : State) : Outcome :=
  .next (leRun k false (jMul k d a b) s)

/-- MULH (R302). -/
def jMulh (k : Fin 8) (d a b : Fin 32) (s : State) : JRes := resMul d (BitVec.ofInt 32 ((rd s k a).toInt * (rd s k b).toInt / 2 ^ 32))
def execMulh (k : Fin 8) (d a b : Fin 32) (s : State) : Outcome :=
  .next (leRun k false (jMulh k d a b) s)

/-- MULHU (R302). -/
def jMulhu (k : Fin 8) (d a b : Fin 32) (s : State) : JRes := resMul d (wordOf ((rd s k a).toNat * (rd s k b).toNat / 2 ^ 32))
def execMulhu (k : Fin 8) (d a b : Fin 32) (s : State) : Outcome :=
  .next (leRun k false (jMulhu k d a b) s)

/-- MULR (R302). -/
def jMulr (k : Fin 8) (d a b : Fin 32) (s : State) : JRes := 
  let x := sat32 (roundEven ((rd s k a).toInt * (rd s k b).toInt) (2 ^ 31))
  .ok [] (.g d.val x.1 :: flagsLV (x.1 == 0) x.1.msb x.2) (.seq 1)
def execMulr (k : Fin 8) (d a b : Fin 32) (s : State) : Outcome :=
  .next (leRun k false (jMulr k d a b) s)

/-! ### Register moves (R303, R304): MVP, MVL and MVK are seen by the second instruction -/

/-- MVP (R304). -/
def jMvp (k : Fin 8) (d : Fin 8) (a : Fin 32) (s : State) : JRes := .ok [] [.p d.val (rd s k a)] (.seq 1)
def execMvp (k : Fin 8) (d : Fin 8) (a : Fin 32) (s : State) : Outcome :=
  .next (leRun k false (jMvp k d a) s)

/-- MVL (R304). -/
def jMvl (k : Fin 8) (d : Fin 8) (a : Fin 32) (s : State) : JRes := .ok [] [.l d.val ((rd s k a).setWidth 20)] (.seq 1)
def execMvl (k : Fin 8) (d : Fin 8) (a : Fin 32) (s : State) : Outcome :=
  .next (leRun k false (jMvl k d a) s)

/-- MVK (R304). -/
def jMvk (k : Fin 8) (d : Fin 8) (a : Fin 32) (s : State) : JRes := .ok [] [.k d.val ((rd s k a).setWidth 20)] (.seq 1)
def execMvk (k : Fin 8) (d : Fin 8) (a : Fin 32) (s : State) : Outcome :=
  .next (leRun k false (jMvk k d a) s)

/-- MPV (R304). -/
def jMpv (k : Fin 8) (d : Fin 32) (a : Fin 8) (s : State) : JRes := aluRes d (pReg (s.le[k]) (leLevel s k) a) []
def execMpv (k : Fin 8) (d : Fin 32) (a : Fin 8) (s : State) : Outcome :=
  .next (leRun k false (jMpv k d a) s)

/-- MLV (R304). -/
def jMlv (k : Fin 8) (d : Fin 32) (a : Fin 8) (s : State) : JRes := aluRes d ((lReg (s.le[k]) (leLevel s k) a).setWidth 32) []
def execMlv (k : Fin 8) (d : Fin 32) (a : Fin 8) (s : State) : Outcome :=
  .next (leRun k false (jMlv k d a) s)

/-- MKV (R304). -/
def jMkv (k : Fin 8) (d : Fin 32) (a : Fin 8) (s : State) : JRes := aluRes d ((kReg (s.le[k]) (leLevel s k) a).signExtend 32) []
def execMkv (k : Fin 8) (d : Fin 32) (a : Fin 8) (s : State) : Outcome :=
  .next (leRun k false (jMkv k d a) s)

/-- A special register as MVS reads it (R270); none where the read is no instruction (R304). -/
def special (s : State) (k : Fin 8) (n : Nat) : Option Word :=
  let e := s.le[k]
  match n with
  | 0 => some (e.st.setWidth 32)
  | 1 => some (wordOf (getF s (.le k) Le.IEN_GIE * 2 ^ 31 + getF s (.le k) Le.IEN_IEN))
  | 2 => some (wordOf (leIpend s k))
  | 3 => some (wordOf (getF s (.le k) Le.FBAXES))
  | 4 => some (wordOf e.ilr)
  | 5 => some (e.ist.setWidth 32)
  | 6 => some (wordOf (loopEntry e 0).count)
  | 7 => some (wordOf (loopEntry e 1).count)
  | 8 => some (wordOf k.val)
  | 10 => some (wordOf e.cyc)
  | 11 => some e.s11
  | _ => none

/-- MVS (R304). -/
def jMvs (k : Fin 8) (d : Fin 32) (sr : Fin 32) (s : State) : JRes :=
  match special s k sr.val with
  | some v => aluRes d v []
  | none => .fault 1

/-- A read of S10 captures S11 (R270). -/
def execMvs (k : Fin 8) (d : Fin 32) (sr : Fin 32) (s : State) : Outcome :=
  let hi := wordOf ((s.le[k]).cyc / 2 ^ 32)
  let s' := if leReady s k && sr == 10 then modLe k (fun e => { e with s11 := hi }) s else s
  .next (leRun k false (jMvs k d sr) s')

/-- Bits of a W1C field cleared by an engine's own write (R270, R304): one set in this cycle stays (R9). -/
def leClearBits (k : Fin 8) (f : Fld) (w : Word) (s : State) : State := clearW1c (.le k) f w s

/-- MSV (R304): whether it is an instruction, and its results. S1 acts on interrupt entry after the next instruction
(R303). -/
def jMsv (k : Fin 8) (sr : Fin 32) (a : Fin 32) (s : State) : JRes :=
  let v := rd s k a
  match sr.val with
  | 0 => .ok [] [.flags 0b111111 (v.setWidth 6)] (.seq 1)
  | 1 => .ok [] [.ien (v.toNat / 2 ^ 31) (v.toNat % 32)] (.seq 1)
  | 2 | 3 | 9 => .ok [] [] (.seq 1)
  | 4 | 5 => if leLevel s k then .ok [] [] (.seq 1) else .fault 1
  | _ => .fault 1

/-- What MSV does beside its results: S2 and S3 clear bits, S4 and S5 are written, S9 restarts the watchdog (R270, R291). -/
def msvEffect (k : Fin 8) (sr : Fin 32) (v : Word) (s : State) : State :=
  match sr.val with
  | 2 => leClearBits k Le.IPEND v s
  | 3 => leClearBits k Le.FBAXES v s
  | 4 => if leLevel s k then modLe k (fun e => { e with ilr := v.toNat % 2 ^ 14 }) s else s
  | 5 => if leLevel s k then modLe k (fun e => { e with ist := v.setWidth 6 }) s else s
  | 9 => modLe k (fun e => { e with wdogRun := 0 }) s
  | _ => s

def execMsv (k : Fin 8) (sr : Fin 32) (a : Fin 32) (s : State) : Outcome :=
  let s' := if leReady s k && decide (lePc s k ≤ 12287) then msvEffect k sr (rd s k a) s else s
  .next (leRun k false (jMsv k sr a) s')

/-! ### Multiply-accumulate and accumulators (R305–R308) -/

/-- An accumulator as an instruction reads it, but for an accumulating operand. -/
def rdA (s : State) (k : Fin 8) (i : Fin 4) : Accum := aReg (s.le[k]) (leLevel s k) i

/-- An accumulating result: seen at once by a further accumulation (R281). -/
def resAcc (i : Fin 4) (x : Accum × Bool) : JRes := .ok [] (.acc i.val x.1 :: flagsGV x.2) (.seq 1)

/-- MPY (R305). -/
def jMpy (k : Fin 8) (acc : Fin 4) (a b : Fin 32) (mode : MulMode) (s : State) : JRes := resAcc acc (accOf (mulProduct mode (rd s k a) (rd s k b)), false)
def execMpy (k : Fin 8) (acc : Fin 4) (a b : Fin 32) (mode : MulMode) (s : State) : Outcome :=
  .next (leRun k false (jMpy k acc a b mode) s)

/-- MAC (R305). -/
def jMac (k : Fin 8) (acc : Fin 4) (a b : Fin 32) (mode : MulMode) (s : State) : JRes := resAcc acc (accAdd (accOperand (s.le[k]) (leLevel s k) acc) (mulProduct mode (rd s k a) (rd s k b)))
def execMac (k : Fin 8) (acc : Fin 4) (a b : Fin 32) (mode : MulMode) (s : State) : Outcome :=
  .next (leRun k false (jMac k acc a b mode) s)

/-- MSU (R305). -/
def jMsu (k : Fin 8) (acc : Fin 4) (a b : Fin 32) (mode : MulMode) (s : State) : JRes := resAcc acc (accAdd (accOperand (s.le[k]) (leLevel s k) acc) (-mulProduct mode (rd s k a) (rd s k b)))
def execMsu (k : Fin 8) (acc : Fin 4) (a b : Fin 32) (mode : MulMode) (s : State) : Outcome :=
  .next (leRun k false (jMsu k acc a b mode) s)

/-- MACD (R306). -/
def jMacd (k : Fin 8) (acc : Fin 4) (pi pj : Fin 8) (modI modJ sub : Bool) (mode : MulMode) (s : State) : JRes := 
  let e := s.le[k]
  let lv := leLevel s k
  let ai := (pReg e lv pi).toNat
  let aj := (pReg e lv pj).toNat
  match addrFault .d 4 ai, addrFault .d 4 aj with
  | some c, _ => .fault c
  | none, some c => .fault c
  | none, none =>
    if dBad s k ai 1 || dBad s k aj 1 then .fault 9
    else
    let x := mulProduct mode (dWord s k ai) (dWord s k aj)
    let r := accAdd (accOperand e lv acc) (if sub then -x else x)
    let post := if pi = pj then postWrite e lv (modI || modJ) pi else postWrite e lv modI pi ++ postWrite e lv modJ pj
    .ok post (.acc acc.val r.1 :: flagsGV r.2) (.meet (dMeets s k ai 1 ++ dMeets s k aj 1))
def execMacd (k : Fin 8) (acc : Fin 4) (pi pj : Fin 8) (modI modJ sub : Bool) (mode : MulMode) (s : State) : Outcome :=
  .next (leRun k false (jMacd k acc pi pj modI modJ sub mode) s)

/-- ACLR (R307). -/
def jAclr (_k : Fin 8) (acc : Fin 4) (_s : State) : JRes := resAcc acc (accOf 0, false)
def execAclr (k : Fin 8) (acc : Fin 4) (s : State) : Outcome :=
  .next (leRun k false (jAclr k acc) s)

/-- ALD (R307). -/
def jAld (k : Fin 8) (acc : Fin 4) (a : Fin 32) (sh : Fin 64) (s : State) : JRes := 
  if 40 < sh.val then .fault 1 else resAcc acc (accOf ((rd s k a).toInt * 2 ^ sh.val), false)
def execAld (k : Fin 8) (acc : Fin 4) (a : Fin 32) (sh : Fin 64) (s : State) : Outcome :=
  .next (leRun k false (jAld k acc a sh) s)

/-- AADD (R307). -/
def jAadd (k : Fin 8) (acc b : Fin 4) (s : State) : JRes := resAcc acc (accCombine (accOperand (s.le[k]) (leLevel s k) acc) (rdA s k b) false)
def execAadd (k : Fin 8) (acc b : Fin 4) (s : State) : Outcome :=
  .next (leRun k false (jAadd k acc b) s)

/-- ASUB (R307). -/
def jAsub (k : Fin 8) (acc b : Fin 4) (s : State) : JRes := resAcc acc (accCombine (accOperand (s.le[k]) (leLevel s k) acc) (rdA s k b) true)
def execAsub (k : Fin 8) (acc b : Fin 4) (s : State) : Outcome :=
  .next (leRun k false (jAsub k acc b) s)

/-- RND (R307). -/
def jRnd (k : Fin 8) (acc : Fin 4) (pos : Fin 64) (s : State) : JRes := 
  if pos = 0 then .fault 1
  else
    let x := accRound (rdA s k acc) pos.val
    .ok [] (.acc acc.val x.1 :: flagsLV (x.1.v == 0) x.1.v.msb x.2) (.seq 1)
def execRnd (k : Fin 8) (acc : Fin 4) (pos : Fin 64) (s : State) : Outcome :=
  .next (leRun k false (jRnd k acc pos) s)

/-- MVR (R308). -/
def jMvr (k : Fin 8) (acc : Fin 4) (d : Fin 32) (sh : Fin 64) (s : State) : JRes := 
  let x := accMove (rdA s k acc) sh.val true
  aluRes d x.1 (flagsLV (x.1 == 0) x.1.msb x.2)
def execMvr (k : Fin 8) (acc : Fin 4) (d : Fin 32) (sh : Fin 64) (s : State) : Outcome :=
  .next (leRun k false (jMvr k acc d sh) s)

/-- MVT (R308). -/
def jMvt (k : Fin 8) (acc : Fin 4) (d : Fin 32) (sh : Fin 64) (s : State) : JRes := 
  let x := accMove (rdA s k acc) sh.val false
  aluRes d x.1 (flagsLV (x.1 == 0) x.1.msb x.2)
def execMvt (k : Fin 8) (acc : Fin 4) (d : Fin 32) (sh : Fin 64) (s : State) : Outcome :=
  .next (leRun k false (jMvt k acc d sh) s)

/-- MVA (R308). -/
def jMva (k : Fin 8) (acc : Fin 4) (d : Fin 32) (part : Fin 64) (s : State) : JRes := 
  let x := rdA s k acc
  match part.val with
  | 0 => aluRes d (x.v.extractLsb' 0 32) []
  | 1 => aluRes d (x.v.extractLsb' 32 32) []
  | 2 => aluRes d ((x.v.extractLsb' 64 8).signExtend 32) []
  | 3 => aluRes d (wordOf (ofSigned 8 x.nw + bitOf x.lost * 2 ^ 8)) []
  | _ => .fault 1
def execMva (k : Fin 8) (acc : Fin 4) (d : Fin 32) (part : Fin 64) (s : State) : Outcome :=
  .next (leRun k false (jMva k acc d part) s)

/-! ### Loads and stores (R309, R310) -/

/-- A load of one or two words into G registers or an accumulator. -/
def loadRes (k : Fin 8) (words : Nat) (acc : Bool) (r : Fin 32) (p : Fin 8) (sp : Space) (post : Bool) (s : State) : JRes :=
  let e := s.le[k]
  let lv := leLevel s k
  let a := (pReg e lv p).toNat
  match addrFault sp (4 * words) a with
  | some c => .fault c
  | none =>
    let pm := postWrite e lv post p
    match sp with
    | .d =>
      let meets := JCtl.meet (dMeets s k a words)
      if dBad s k a words then .fault 9
      else if acc then .ok pm [.accLd r.val (accLoad (dWord s k a) (dWord s k (a + 4)))] meets
      else if words = 1 then .ok pm [.g r.val (dWord s k a)] meets
      else .ok pm [.g r.val (dWord s k a), .g (r.val + 1) (dWord s k (a + 4))] meets
    | .x => .ok pm [] (.stall (.load false a words r.val acc))
    | .c => .ok pm [] (.stall (.load true a words r.val acc))

/-- A store of one or two words. -/
def storeRes (k : Fin 8) (ws : List Word) (p : Fin 8) (sp : Space) (post : Bool) (s : State) : JRes :=
  let e := s.le[k]
  let lv := leLevel s k
  let a := (pReg e lv p).toNat
  match addrFault sp (4 * ws.length) a with
  | some c => .fault c
  | none =>
    let pm := postWrite e lv post p
    let w := ws.zipIdx.map (fun x => (a + 4 * x.2, x.1))
    match sp with
    | .d => .ok pm (w.map (fun x => .dmem x.1 x.2)) (.seq 1)
    | .x => .ok pm [] (.post { cspace := false, writes := w })
    | .c => .ok pm [] (.post { cspace := true, writes := w })

/-- LD (R309). -/
def jLd (k : Fin 8) (r : Fin 32) (p : Fin 8) (sp : Space) (post : Bool) (s : State) : JRes := loadRes k 1 false r p sp post s
def execLd (k : Fin 8) (r : Fin 32) (p : Fin 8) (sp : Space) (post : Bool) (s : State) : Outcome :=
  .next (leRun k false (jLd k r p sp post) s)

/-- ST (R309). -/
def jSt (k : Fin 8) (r : Fin 32) (p : Fin 8) (sp : Space) (post : Bool) (s : State) : JRes := storeRes k [rd s k r] p sp post s
def execSt (k : Fin 8) (r : Fin 32) (p : Fin 8) (sp : Space) (post : Bool) (s : State) : Outcome :=
  .next (leRun k false (jSt k r p sp post) s)

/-- LDP (R309): r is even (R297). -/
def jLdp (k : Fin 8) (r : Fin 32) (p : Fin 8) (sp : Space) (post : Bool) (s : State) : JRes := if r.val % 2 = 1 then .fault 1 else loadRes k 2 false r p sp post s
def execLdp (k : Fin 8) (r : Fin 32) (p : Fin 8) (sp : Space) (post : Bool) (s : State) : Outcome :=
  .next (leRun k false (jLdp k r p sp post) s)

/-- STP (R309): r is even (R297). -/
def jStp (k : Fin 8) (r : Fin 32) (p : Fin 8) (sp : Space) (post : Bool) (s : State) : JRes := 
  if r.val % 2 = 1 then .fault 1
  else storeRes k [rd s k r, rd s k (fin32 (r.val + 1))] p sp post s
def execStp (k : Fin 8) (r : Fin 32) (p : Fin 8) (sp : Space) (post : Bool) (s : State) : Outcome :=
  .next (leRun k false (jStp k r p sp post) s)

/-- LDA (R309): r[4:2] = 0. -/
def jLda (k : Fin 8) (r : Fin 32) (p : Fin 8) (sp : Space) (post : Bool) (s : State) : JRes := if 4 ≤ r.val then .fault 1 else loadRes k 2 true r p sp post s
def execLda (k : Fin 8) (r : Fin 32) (p : Fin 8) (sp : Space) (post : Bool) (s : State) : Outcome :=
  .next (leRun k false (jLda k r p sp post) s)

/-- STA (R309): r[4:2] = 0; bits [63:0], unsaturated. -/
def jSta (k : Fin 8) (r : Fin 32) (p : Fin 8) (sp : Space) (post : Bool) (s : State) : JRes := 
  if 4 ≤ r.val then .fault 1
  else
    let x := rdA s k (fin4 r.val)
    storeRes k [x.v.extractLsb' 0 32, x.v.extractLsb' 32 32] p sp post s
def execSta (k : Fin 8) (r : Fin 32) (p : Fin 8) (sp : Space) (post : Bool) (s : State) : Outcome :=
  .next (leRun k false (jSta k r p sp post) s)

/-- CRB (R310): n + 1 words. -/
def jCrb (k : Fin 8) (r : Fin 32) (p : Fin 8) (n : Fin 4) (post : Bool) (s : State) : JRes := 
  let e := s.le[k]
  let lv := leLevel s k
  let a := (pReg e lv p).toNat
  if 31 < r.val + n.val then .fault 1
  else if a % 4 ≠ 0 then .fault 6
  else .ok (postWrite e lv post p) [] (.stall (.load true a (n.val + 1) r.val false))
def execCrb (k : Fin 8) (r : Fin 32) (p : Fin 8) (n : Fin 4) (post : Bool) (s : State) : Outcome :=
  .next (leRun k false (jCrb k r p n post) s)

/-- CWB (R310): one write-buffer entry. -/
def jCwb (k : Fin 8) (r : Fin 32) (p : Fin 8) (n : Fin 4) (post : Bool) (s : State) : JRes := 
  let e := s.le[k]
  let lv := leLevel s k
  let a := (pReg e lv p).toNat
  if 31 < r.val + n.val then .fault 1
  else if a % 4 ≠ 0 then .fault 6
  else
    let w := (List.range (n.val + 1)).map (fun i => ((a + 4 * i) % 2 ^ 32, rd s k (fin32 (r.val + i))))
    .ok (postWrite e lv post p) [] (.post { cspace := true, writes := w })
def execCwb (k : Fin 8) (r : Fin 32) (p : Fin 8) (n : Fin 4) (post : Bool) (s : State) : Outcome :=
  .next (leRun k false (jCwb k r p n post) s)

/-! ### Branches and loops (R311, R312) -/

/-- A transfer of control: taken where its condition holds, with its link (R311). -/
def branchRes (k : Fin 8) (cond : Fin 16) (t : Nat) (link : Bool) (s : State) : JRes :=
  if condHolds cond (rdSt s k) then
    .ok (if link then [.g 31 (wordOf (lePc s k + 3))] else []) [] (.branch (some t) (!link))
  else .ok [] [] (.branch none)

/-- B (R311). -/
def jB (k : Fin 8) (cond : Fin 16) (target : Fin 16384) (s : State) : JRes := branchRes k cond target.val false s
def execB (k : Fin 8) (cond : Fin 16) (target : Fin 16384) (s : State) : Outcome :=
  .next (leRun k true (jB k cond target) s)

/-- BR (R311): Ga[31:14] is ignored. -/
def jBr (k : Fin 8) (cond : Fin 16) (a : Fin 32) (s : State) : JRes := branchRes k cond ((rd s k a).toNat % 2 ^ 14) false s
def execBr (k : Fin 8) (cond : Fin 16) (a : Fin 32) (s : State) : Outcome :=
  .next (leRun k true (jBr k cond a) s)

/-- CALL (R311). -/
def jCall (k : Fin 8) (cond : Fin 16) (target : Fin 16384) (s : State) : JRes := branchRes k cond target.val true s
def execCall (k : Fin 8) (cond : Fin 16) (target : Fin 16384) (s : State) : Outcome :=
  .next (leRun k true (jCall k cond target) s)

/-- CALLR (R311). -/
def jCallr (k : Fin 8) (cond : Fin 16) (a : Fin 32) (s : State) : JRes := branchRes k cond ((rd s k a).toNat % 2 ^ 14) true s
def execCallr (k : Fin 8) (cond : Fin 16) (a : Fin 32) (s : State) : Outcome :=
  .next (leRun k true (jCallr k cond a) s)

/-- RET (R311). -/
def jRet (k : Fin 8) (cond : Fin 16) (s : State) : JRes := branchRes k cond ((rd s k 31).toNat % 2 ^ 14) false s
def execRet (k : Fin 8) (cond : Fin 16) (s : State) : Outcome :=
  .next (leRun k true (jRet k cond) s)

/-- A LOOP: its end must exceed its own index (R312). -/
def loopRes (k : Fin 8) (fin count : Nat) (s : State) : JRes :=
  if fin ≤ lePc s k then .fault 1 else .ok [] [] (.loop fin count)

/-- LOOP with an immediate count (R312). -/
def jLoop (k : Fin 8) (fin : Fin 16384) (count : Fin 4096) (s : State) : JRes := loopRes k fin.val count.val s
def execLoop (k : Fin 8) (fin : Fin 16384) (count : Fin 4096) (s : State) : Outcome :=
  .next (leRun k true (jLoop k fin count) s)

/-- LOOP with a register count (R312). -/
def jLoopReg (k : Fin 8) (fin : Fin 16384) (c : Fin 32) (s : State) : JRes := loopRes k fin.val (rd s k c).toNat s
def execLoopReg (k : Fin 8) (fin : Fin 16384) (c : Fin 32) (s : State) : Outcome :=
  .next (leRun k true (jLoopReg k fin c) s)

/-! ### Time and timed actions (R313, R314) -/

/-- TNOW (R313). -/
def jTnow (_k : Fin 8) (d : Fin 32) (s : State) : JRes := aluRes d (wordOf (timeNs s)) []
def execTnow (k : Fin 8) (d : Fin 32) (s : State) : Outcome :=
  .next (leRun k false (jTnow k d) s)

/-- TNOWE (R313). -/
def jTnowe (_k : Fin 8) (d : Fin 32) (s : State) : JRes := 
  aluRes d (wordOf (timeEpoch s + getF s .time Time.STATUS_DISC * 2 ^ 16 + getF s .time Time.STATUS_HOLDOVER * 2 ^ 17)) []
def execTnowe (k : Fin 8) (d : Fin 32) (s : State) : Outcome :=
  .next (leRun k false (jTnowe k d) s)

/-- TARM (R314): SLOT_TARGET, then ARM. -/
def jTarm (k : Fin 8) (slot : Fin 64) (t : Fin 32) (s : State) : JRes := 
  let b := blkBase (.slot slot)
  .ok [] [] (.post { cspace := true, writes := [(b + Slot.TARGET.off, rd s k t),
    (b + Slot.CMD_ARM.off, wordOf (2 ^ Slot.CMD_ARM.lo))] })
def execTarm (k : Fin 8) (slot : Fin 64) (t : Fin 32) (s : State) : Outcome :=
  .next (leRun k false (jTarm k slot t) s)

/-- TDIS (R314). -/
def jTdis (_k : Fin 8) (slot : Fin 64) (_s : State) : JRes := 
  .ok [] [] (.post { cspace := true, writes := [(blkBase (.slot slot) + Slot.CMD_DISARM.off,
    wordOf (2 ^ Slot.CMD_DISARM.lo))] })
def execTdis (k : Fin 8) (slot : Fin 64) (s : State) : Outcome :=
  .next (leRun k false (jTdis k slot) s)

/-! ### Queues and fences (R316, R317): the controller answers at LOAD_DATA_RETURN -/

/-- QW (R316). -/
def jQw (k : Fin 8) (q : Fin 16) (quad : Fin 8) (s : State) : JRes :=
  let g := fun i => rd s k (fin32 (4 * quad.val + i))
  .ok [] [] (.stall (.qw q.val { w0 := g 0, w1 := g 1, w2 := g 2, w3 := g 3 }))
def execQw (k : Fin 8) (q : Fin 16) (quad : Fin 8) (s : State) : Outcome :=
  .next (leRun k false (jQw k q quad) s)

/-- QR (R316). -/
def jQr (_k : Fin 8) (q : Fin 16) (quad : Fin 8) (_s : State) : JRes := .ok [] [] (.stall (.qr q.val quad.val))
def execQr (k : Fin 8) (q : Fin 16) (quad : Fin 8) (s : State) : Outcome :=
  .next (leRun k false (jQr k q quad) s)

/-- QL (R316). -/
def jQl (_k : Fin 8) (q : Fin 16) (d : Fin 32) (_s : State) : JRes := .ok [] [] (.stall (.ql q.val d.val))
def execQl (k : Fin 8) (q : Fin 16) (d : Fin 32) (s : State) : Outcome :=
  .next (leRun k false (jQl k q d) s)

/-- FENCE (R317). -/
def jFence (k : Fin 8) (a b : Fin 32) (s : State) : JRes := .ok [] [] (.stall (.fence (rd s k a) (rd s k b)))
def execFence (k : Fin 8) (a b : Fin 32) (s : State) : Outcome :=
  .next (leRun k false (jFence k a b) s)

/-! ### Waiting and engine control (R318, R319) -/

/-- WAIT (R318): a mask of 0 is no instruction. -/
def jWait (k : Fin 8) (mask : BitVec 4) (t d : Fin 32) (q level : Fin 16) (s : State) : JRes := 
  if mask = 0 then .fault 1
  else .ok [] [] (.wait { t := mask.getLsbD 3, w := mask.getLsbD 2, q := mask.getLsbD 1, i := mask.getLsbD 0,
                          target := (rd s k t).toNat, d := d.val, queue := q.val, level := level.val + 1 })
def execWait (k : Fin 8) (mask : BitVec 4) (t d : Fin 32) (q level : Fin 16) (s : State) : Outcome :=
  .next (leRun k true (jWait k mask t d q level) s)

/-- RTF (R286): at level 0 it faults. -/
def jRtf (k : Fin 8) (s : State) : JRes := if leLevel s k then .ok [] [] .rtf else .fault 11
def execRtf (k : Fin 8) (s : State) : Outcome :=
  .next (leRun k true (jRtf k) s)

/-- HALT (R319). -/
def jHalt (_k : Fin 8) (_s : State) : JRes := .ok [] [] .halt
def execHalt (k : Fin 8) (s : State) : Outcome :=
  .next (leRun k true (jHalt k) s)

/-- CLRF (R319). -/
def jClrf (_k : Fin 8) (mask : BitVec 6) (_s : State) : JRes := .ok [] [.flags mask 0] (.seq 1)
def execClrf (k : Fin 8) (mask : BitVec 6) (s : State) : Outcome :=
  .next (leRun k false (jClrf k mask) s)

/-- NOP (R319). -/
def jNop (_k : Fin 8) (_s : State) : JRes := .ok [] [] (.seq 1)
def execNop (k : Fin 8) (s : State) : Outcome :=
  .next (leRun k false (jNop k) s)

/-- A word that is no instruction (R295). -/
def jIllop (_k : Fin 8) (_word : Word) (_s : State) : JRes := .fault 1
def execIllop (k : Fin 8) (word : Word) (s : State) : Outcome :=
  .next (leRun k false (jIllop k word) s)

end Sys2Proof.Machine
end

