-- ==== Sys2Proof/Machine/Views.lean ====
section
/-!
DEFINITION. The words registers show: the stored fields, and the fields that follow other state at every read (R13, R26, R34,
R38, R147, R184, R191, R198, R246, R284, R293, R333, R345, R362, R444).
-/

namespace Sys2Proof.Machine

/-- BLK_CTRL (R26). -/
def blkCtrlWord (s : State) (b : Blk) : Nat :=
  bitOf (running s b) * 2 ^ 10 + getF s b Hdr.ISOLATED * 2 ^ 9 + getF s b Hdr.ISOLATE * 2 ^ 8 + owner s b

/-- A register's stored fields with a field of another value. -/
def withField (s : State) (b : Blk) (off : Nat) (f : Fld) (v : Nat) : Nat :=
  storedWord s b off - getF s b f * 2 ^ f.lo + v % 2 ^ f.width * 2 ^ f.lo

/-- Bits of the queues or blocks that satisfy a test. -/
def maskOf {n : Nat} (p : Fin n → Bool) : Nat :=
  (List.finRange n).foldl (fun a i => if p i then a + 2 ^ i.val else a) 0

/-- This device asserts ALARM_N (R428); the pin is released while frozen, in DORMANT and by HIGHZ (R424, R438, R459). -/
def alarmOut (s : State) : Bool :=
  awake s && s.ec.jtagIr != 5 && (flag s .ec Ec.STATE_FATAL ||
    (flag s .ec Ec.CFG && (List.finRange 132).any (fun i => (s.alarms[i]).valid && (s.alarms[i]).grade == 2)))

/-- EC_STATE (R444). -/
def ecState (s : State) : Nat :=
  getF s .ec Ec.STATE_FATAL + bitOf (chipSafe s) * 2 + bitOf s.ec.safeLow * 4 + bitOf (alarmOut s) * 8
    + bitOf (alarmOut s || s.ec.almIn) * 16

/-- Valid entries among the first 128, and the overflow entries in use (R345). -/
def atStatus (s : State) : Nat :=
  getF s .ec Ec.AT_STATUS_NEWEV
    + ((List.finRange 132).filter (fun i => decide (128 ≤ i.val) && (s.alarms[i]).valid)).foldl
        (fun a i => a + 2 ^ (i.val - 128)) 0 * 2 ^ 8
    + ((List.finRange 132).filter (fun i => decide (i.val < 128) && (s.alarms[i]).valid)).length * 2 ^ 16

/-- Word 0 of an alarm entry. -/
def alarmWord (e : AlarmEntry) : Nat :=
  e.code * 2 ^ 16 + e.grade % 4 * 2 ^ 14 + bitOf e.valid * 2 ^ 13 + bitOf e.acked * 2 ^ 12 + bitOf e.cond * 2 ^ 11

/-- Index of the entry whose word 0 stands at an offset of the error controller. -/
def alarmAt (off : Nat) : Option (Fin 132) :=
  if h : 0x1000 ≤ off ∧ (off - 0x1000) / 32 < 132 then (if off % 32 = 0 then some ⟨(off - 0x1000) / 32, h.2⟩ else none)
  else none

/-- An event of the grade that HP_CFG.IRQGRADE names, or a higher one, is unacknowledged (R362). -/
def irqErr (s : State) : Bool :=
  (List.finRange 132).any (fun i => let e := s.alarms[i]
    e.valid && !e.acked && decide (getF s .hp Hp.CFG_IRQGRADE ≤ e.grade))

/-- HP_IRQ_STATUS (R362). -/
def irqStatus (s : State) : Nat :=
  let q := (List.finRange 16).any (fun q => bitAt (getF s .hp Hp.IRQ_QMASK) q.val == 1
    && decide (getF s (.q q) Q.THR ≤ getF s (.q q) Q.LEVEL_LEVEL))
  let eng := (List.finRange 8).any (fun k => flag s (.le k) Le.STATUS_FAULTEV || flag s (.le k) Le.STATUS_HALTEV
    || flag s (.le k) Le.STATUS_WDOGEV)
  let eth := (List.finRange 2).any (fun p => flag s (.eth p) Eth.STATUS_LINKEV || flag s (.eth p) Eth.STATUS_SPDERR)
  bitOf q + getF s .ec Ec.AT_STATUS_NEWEV * 2 + bitOf (getF s .mb Mb.STATE_STATE == 2) * 4
    + getF s .time Time.STATUS_STEP * 8 + getF s .time Time.STATUS_WRAP * 16 + bitOf (irqErr s) * 32 + bitOf eng * 64
    + getF s .hp Hp.IRQ_STATUS_SWI * 128 + bitOf (storedWord s .hp 0xC != 0) * 256 + bitOf eth * 512
    + getF s .hp Hp.IRQ_STATUS_SWIAG * 4096

/-- IRQ_N is asserted (R362); it is high-impedance before BEACON service, while frozen, in DORMANT and by HIGHZ
(R424, R438, R459, log 78). -/
def irqOut (s : State) : Bool :=
  awake s && s.ec.jtagIr != 5 && decide (6 ≤ s.pwr.stage) && (irqStatus s % 1024) &&& getF s .hp Hp.IRQ_EN != 0

/-- Events of a counter, modulo 2^48 (R441). -/
def evcCount (s : State) (n : Fin 32) : Nat := (s.evc[n]) % 2 ^ 48

/-- The counter whose registers stand at an offset, and the offset in its own registers (R445). -/
def evcAt (off : Nat) : Option (Fin 32 × Nat) :=
  if 0x100 ≤ off ∧ off < 0x500 then some (fin32 ((off - 0x100) / 32), off % 32) else none

/-- The word a register of a block that is neither isolated nor under reset holds now. RCn_VLIM shows the value of R147 from power-on on,
not the 0 of its Reset column: the model's choice (log 164). -/
def liveWord (s : State) (b : Blk) (off : Nat) : Nat :=
  if off = 0 then blkCtrlWord s b
  else if off = 4 then fieldsWord s b Hdr.err
  else match b with
  | .time =>
    if off = 0x8 then timeNs s
    else if off = 0x34 then ofSigned 32 (truncDiv s.time.slewRem (2 ^ 28))
    else storedWord s .time off
  | .rc n => if off = 0x48 then rcVlim s n else storedWord s (.rc n) off
  | .lens n => if off = 0x48 then withField s (.lens n) off Lens.STATUS_PPMIS (bitOf (lensPpMis s n)) else storedWord s (.lens n) off
  | .lpe => if off = 0x8 then lpeLoad s else storedWord s .lpe off
  | .ax n => if off = 0x14 then ofSigned 64 (s.ax[n]).del.pos % 2 ^ 32 else storedWord s (.ax n) off
  | .le k =>
    if off = 0x24 then leIpend s k
    else if off = 0x38 then (s.le[k]).cyc % 2 ^ 32
    else storedWord s (.le k) off
  | .qc =>
    if off = 0x10 then maskOf (fun q : Fin 16 => qLevel s q != 0)
    else if off = 0x14 then maskOf (fun q : Fin 16 => flag s (.q q) Q.STATUS_DROP || flag s (.q q) Q.STATUS_OWR
      || flag s (.q q) Q.STATUS_FDROP)
    else if off = 0x18 then min 32 (inbufHeld s)
    else storedWord s .qc off
  | .q n => if off = 0x40 then (if qLevel s n = 0 then 0 else (oldest s n).w0.toNat) else storedWord s (.q n) off
  | .pt n =>
    if off = 0x10 then bitOf (cellP s n) + 2 * bitOf (cellN s n)
    else if off = 0x14 then cellClaim s n
    else storedWord s (.pt n) off
  | .em n => if off = 0x28 then ofSigned 32 (emWaiting s n) else storedWord s (.em n) off
  | .lc => if off = 0x8 then maskOf (fun k : Fin 32 => flag s (.lu k) Lu.STATUS_RECEV) else storedWord s .lc off
  | .hp => if off = 0x14 then irqStatus s else storedWord s .hp off
  | .ec =>
    if off = 0xC then ecState s
    else if off = 0x80 then withField s .ec off Ec.FRZ_RIGHT (getF s .mb Mb.KS_DBG_FREEZE)
    else if off = 0x800 then atStatus s
    else match alarmAt off with
    | some i => alarmWord (s.alarms[i])
    | none => storedWord s .ec off
  | .evc =>
    match evcAt off with
    | some (n, 8) => evcCount s n % 2 ^ 32
    | _ => storedWord s .evc off
  | b => storedWord s b off

/-- Words of the identity registers and of the capability list, and the Keeper services entry (R13, R383). -/
def identWord (s : State) (a : Nat) : Nat :=
  if a = 0 then 0x56511664
  else if a = 4 then 0x5548
  else if a = 8 then 0xA0
  else if a < 0x1000 then capRom.getD ((a - 0x100) / 4) 0
  else if a = 0x40050200 then 0x00A00105
  else if a = 0x40050204 then 0
  else if a = 0x40050208 then getF s .mb Mb.KS_LEVEL_FLEVEL + getF s .mb Mb.KS_LEVEL_COMPAT * 2 ^ 8
  else if a = 0x4005020C then storedWord s .mb 0x108
  else getF s .mb Mb.KS_STATE_FWRUN + getF s .mb Mb.KS_STATE_DBGSTRAP * 2

/-- The registers of a block as they stand, each by its address: what an isolated block goes on showing (R27). -/
def blkSnapshot (s : State) (b : Blk) : List (Nat × Word) :=
  ((blkRegs b).filterMap (fun r => r.head?)).foldl
    (fun l f => assocPut (blkBase b + f.off) (wordOf (liveWord s b f.off)) l) []

end Sys2Proof.Machine
end

