-- ==== Sys2Proof/Machine/Isolation.lean ====
section
/-!
DEFINITION. Owner commands and isolation (R20–R28).
-/

namespace Sys2Proof.Machine

/-! ### Isolation (R27, R28) -/

/-- What isolation does to a block: outputs take their safe values, publishing and processing stop. -/
def isolateEffects (b : Blk) (s : State) : State :=
  match b with
  | .rc n => rcLost n s
  | .fe => forAll (List.finRange 16) rcLost s
  | .lp n => loopSafe n s
  | .le k => leIsolate k s
  | .cap => capLost s
  | .exg n => exgRefresh n s
  | .ao n => aoRefresh n s
  | .inj k => injZero k s
  | .lens _ | .ai _ | .lpe | .ax _ | .rs _ | .qc | .q _ | .pt _ | .em _ | .sec _ | .lc | .lu _ | .slot _ | .evc => s
  | .chip | .time | .eth _ | .hp | .pwr | .mb | .ec | .sns => s

/-- ISOLATION_COMPLETE: outputs go safe, processing stops, ISOLATED is set, and the registers show what they hold now. -/
def isolationComplete (b : Blk) (s : State) : State :=
  if awake s && decide (4 ≤ s.pwr.stage) && flag s b Hdr.ISOLATE && !flag s b Hdr.ISOLATED && !blkFixed b then
    let s := isolateEffects b (setF b Hdr.ISOLATED 1 s)
    { s with held := (blkSnapshot s b).foldl (fun l p => assocPut p.1 p.2 l) s.held }
  else s

def execIsolationComplete (b : Blk) (s : State) : Outcome := .next (isolationComplete b s)

/-- A converter returns to service (R138). -/
def rcRelease (n : Fin 16) (s : State) : State :=
  if trkState s n = 2 then rcReacquire n (cycleClear false n s)
  else if trkState s n = 1 then coarseClear n (cycleClear false n s)
  else s

/-- What the release of a block does beside it. -/
def releaseEffects (b : Blk) (s : State) : State :=
  match b with
  | .rc n => rcRelease n s
  | .fe => forAll (List.finRange 16) (fun n s => if isolated s (.rc n) then s else rcRelease n s) s
  | .lens n => lensDrop n s
  | .rs n =>
    if rsState s n = 2 then
      setF (.rs n) Rs.STATUS_STATE 1 (modRs n (fun x => { x with win := [], gb := true }) s)
    else s
  | .slot n => slotCheck n s
  | .exg n => exgRefresh n s
  | .ao n => aoRefresh n s
  | .lpe => lpNext lpAll s
  | .ai _ | .lp _ | .ax _ | .cap | .inj _ | .le _ | .qc | .q _ | .pt _ | .em _ | .sec _ | .lc | .lu _ | .evc => s
  | .chip | .time | .eth _ | .hp | .pwr | .mb | .ec | .sns => s

/-- A block returns to service. -/
def isolationRelease (b : Blk) (s : State) : State :=
  let was := flag s b Hdr.ISOLATED
  let s := setF b Hdr.ISOLATE 0 (setF b Hdr.ISOLATED 0 s)
  if was then
    releaseEffects b { s with held := s.held.filter (fun p => !(decide (blkBase b ≤ p.1) &&
      decide (p.1 < blkBase b + 0x10000) && (match addrBlk p.1 with | some (b', _) => b' == b | none => false))) }
  else s

/-- A write to BLK_CTRL (R8, R26–R28): the owner's reaches an isolated block too; the blocks of R23 take no effect from it. -/
def blkCtrlWrite (ag : Agent) (b : Blk) (w : Word) (s : State) : State :=
  if !awake s then s
  else if underReset s b then resetWrite ag b 0 s
  else if ag.code ≠ owner s b then blkErr b (if isolated s b then .iso else .own) ag.code 0 s
  else if blkFixed b then s
  else if fieldOf w Hdr.ISOLATE = 1 then setF b Hdr.ISOLATE 1 s
  else isolationRelease b s

def execIsolateRequest (ag : Agent) (b : Blk) (w : Word) (s : State) : Outcome := .next (blkCtrlWrite ag b w s)
def execIsolationRelease (ag : Agent) (b : Blk) (w : Word) (s : State) : Outcome := .next (blkCtrlWrite ag b w s)

/-! ### Owners (R20–R25) -/

/-- A block changes its owner; what it does goes on (R25), but generators of an injection on a loop that changes hands
abort (R249). -/
def setOwner (b : Blk) (o : Nat) (s : State) : State := injOwnerCheck (setF b (Hdr.OWNER b) o s)

/-- An owner command (R24): RESULT reports the first reason to refuse it. -/
def ownCommand (base code : Nat) (s : State) : State :=
  let res := fun (prev r : Nat) (s : State) => setF .chip Chip.OWN_RES_PREV prev (setF .chip Chip.OWN_RES_RESULT r s)
  match blkOfBase base with
  | none => res 15 1 s
  | some b =>
    if blkFixed b then res 15 2 s
    else if 10 ≤ code ∧ code ≤ 14 then res 15 3 s
    else setOwner b code (res (owner s b) 0 s)

/-- The store of a register of chip control. -/
def chipStore (off : Nat) (w : Word) (s : State) : State :=
  let s := storeFields .chip off w s
  if off = 0x100 then ownCommand (fieldOf w Chip.OWN_CMD_BASE * 32) (fieldOf w Chip.OWN_CMD_OWNER) s else s

def chipWrite (ag : Agent) (off : Nat) (w : Word) (s : State) : State := judgedWrite ag .chip off w (chipStore off w) s

def execOwnCmd (ag : Agent) (w : Word) (s : State) : Outcome := .next (chipWrite ag 0x100 w s)

end Sys2Proof.Machine
end

