-- ==== Sys2Proof/Machine/Control.lean ====
section
/-!
DEFINITION. The chip error controller, the event counters and the debug port (R425–R445, R458, R459): alarms by command,
SAFE_N, region resets, freeze and unfreeze, JTAG.
-/

namespace Sys2Proof.Machine

def modEc (f : EcSt → EcSt) (s : State) : State := { s with ec := f s.ec }

/-- Base of the chip error controller, the source of its alarms (R429). -/
def ecSrc : Nat := blkBase .ec

/-! ### Alarm rows (R341–R345, R349) -/

/-- ALARM_RAISE: a block raises an alarm. -/
def execAlarmRaise (code : BitVec 16) (src : Word) (grade : Fin 4) (kept : Bool) (s : State) : Outcome :=
  .next (if dormant s then s else raiseAlarm code.toNat src.toNat grade.val kept s)

/-- ALARM_CONDITION_GONE: a block reports a kept condition gone. -/
def execAlarmConditionGone (code : BitVec 16) (src : Word) (s : State) : Outcome :=
  .next (if awake s then alarmGone code.toNat src.toNat s else s)

def execIncidentClose (s : State) : Outcome := .next (if awake s then incidentClose s else s)

/-- A write of AT_ACK (R342, R345). -/
def ackStore (w : Word) (s : State) : State :=
  if fieldOf w Ec.AT_ACK_ALL = 1 then forAll (List.finRange 132) alarmAck s
  else
    let i := fieldOf w Ec.AT_ACK_INDEX
    if h : i < 132 then alarmAck ⟨i, h⟩ s else s

/-- The block base that an agent other than the Keeper raises alarms with (R345). -/
def agentSrc : Agent → Nat
  | .le k => blkBase (.le k)
  | _ => blkBase .hp

/-- A write of AT_RAISE from any agent (R345). -/
def atRaise (ag : Agent) (w : Word) (s : State) : State :=
  let code := fieldOf w Ec.AT_RAISE_CODE
  let g := fieldOf w Ec.AT_RAISE_GRADE
  if !awake s then s
  else match ag with
  | .keeper => raiseAlarm code (getF s .ec Ec.AT_RAISE_SRC) g false s
  | _ => if 0xF000 ≤ code ∧ g ≤ 2 then raiseAlarm code (agentSrc ag) g false s else s

/-- A write of AT_RAISE_SRC: the Keeper's alone (R345). -/
def atRaiseSrc (ag : Agent) (w : Word) (s : State) : State :=
  if !awake s then s
  else match ag with
  | .keeper => setF .ec Ec.AT_RAISE_SRC w.toNat s
  | _ => blkErr .ec .own ag.code 0x808 s

def execAtRaise (ag : Agent) (w : Word) (s : State) : Outcome := .next (atRaise ag w s)
def execAtRaiseSrcWrite (ag : Agent) (w : Word) (s : State) : Outcome := .next (atRaiseSrc ag w s)

/-- A read of an entry's word 0 captures words 1 to 5 (R345). -/
def alarmSnap (i : Fin 132) (s : State) : State :=
  let e := s.alarms[i]
  let s := setF .ec (Ec.AT1 i) e.src (setF .ec (Ec.AT2 i) e.first (setF .ec (Ec.AT3 i) e.last s))
  setF .ec (Ec.AT4 i) e.count (setF .ec (Ec.AT5_LASTEP i) e.lastEp (setF .ec (Ec.AT5_FIRSTEP i) e.firstEp s))

/-! ### SAFE_N (R431–R433) -/

/-- The device's clocks meet SAFE_N as it stands: an entry to the chip safe state acts on the axes, and 0x1005 is raised or its
condition ends (R429, R433). -/
def safeResume (s : State) : State :=
  let s := if s.ec.safeDue then safeEntry (modEc (fun e => { e with safeDue := false }) s) else s
  if s.ec.safePin && !s.ec.safeTold then raiseAlarm 0x1005 ecSrc 1 true (modEc (fun e => { e with safeTold := true }) s)
  else if !s.ec.safePin && s.ec.safeTold then alarmGone 0x1005 ecSrc (modEc (fun e => { e with safeTold := false }) s)
  else s

/-- SAFE_N falls: from power-good on the chip safe state is in force at once, without any clock; what else follows waits for the
clocks where they stand still (R432, R438, log 75). -/
def safeAssert (s : State) : State :=
  if s.ec.safePin then s
  else
    let was := chipSafe s
    let s := modEc (fun e => { e with safePin := true, safeLow := e.safeLow || s.pwr.good,
                                      safeDue := e.safeDue || (s.pwr.good && !was) }) s
    if clocked s .system then safeResume s else s

/-- SAFE_N has been high for 1 µs: its safe state ends unless FATAL is latched. -/
def safeRelease (s : State) : State :=
  let s := modEc (fun e => { e with safePin := false, safeLow := e.safeLow && !s.pwr.good }) s
  if clocked s .system then refreshOutputs (safeResume s) else s

def execSafeNAssert (s : State) : Outcome := .next (safeAssert s)
def execSafeNRelease (s : State) : Outcome := .next (safeRelease s)

/-! ### Region reset (R434, R435) -/

/-- Keys of a register that a region reset keeps: owners everywhere, the banks of Lens, the settings of R381 (R435); and what the
Keeper's ROM publishes again of what it holds: KS_STATE, KS_TRIAL, KS_DBG (R378, R401, log 80). -/
def keyKept (key : Nat) : Bool :=
  let a := key / 32
  match addrBlk a with
  | some (_, 0) => key % 32 == 0
  | some (.lens _, off) => decide (0x28 ≤ off) && decide (off < 0x48)
  | some (.eth _, off) => decide (0x8 ≤ off) && decide (off < 0x14) || off == 0x18 || off == 0x1C
  | some (.mb, off) => off == 0x100 || off == 0x10C || off == 0x11C
  | some (b, _) => resetKeeps b
  | none => false

/-- The region of a register address (R14, R375). -/
def addrRegion (a : Nat) : Region :=
  if a < 0x20000000 then .acquisition else if a < 0x30000000 then .control else if a < 0x40000000 then .port else .system

/-- The registers of a region at their reset values, but for those kept. A block of the System region that its reset does
not reach keeps its header too. -/
def resetRegs (r : Region) (s : State) : State :=
  { s with
    regs := s.regs.filter (fun p =>
      addrRegion (p.1 / 32) != r || keyKept p.1 ||
        (match addrBlk (p.1 / 32) with | some (b, _) => resetKeeps b | none => false)),
    held := s.held.filter (fun p => addrRegion p.1 != r ||
        (match addrBlk p.1 with | some (b, _) => resetKeeps b | none => false)) }

/-- An axis after the reset of its region: a publish made before it is no new one (R225). -/
def axAfterReset (s : State) (n : Fin 16) : AxSt :=
  let seen := fun (c : Nat) => if c < 16 then (s.rc[fin16 c]).pub.no else 0
  { prim := { seen := seen (axPrim s n) }, sec := { seen := seen (axSec s n) } }

/-- What the reset of a region leaves of the state beside its registers. -/
def regionState (r : Region) (s : State) : State :=
  match r with
  | .acquisition =>
    let keep := s.fe
    let s := { s with rc := Vector.replicate 16 {}, ai := Vector.replicate 8 {},
                      lanes := Vector.replicate 40 { inv := 4 },
                      fe := { keep with lastEl := none, stepped := false, frames := [], auxDue := [] },
                      lens := s.lens.map (fun l => { ({} : LensSt) with frA := l.frA, frC := l.frC }) }
    let sch := if mode s ≤ 3 then mode s else 7
    setF .fe Fe.STATUS_SRPEND (bitOf s.time.srCause.isSome) (setF .fe Fe.STATUS_SCHED sch s)
  | .control =>
    let s := { s with lp := Vector.replicate 64 {}, lpEval := none, rg := Vector.replicate 4 {}, rs := Vector.replicate 16 {},
                      inj := Vector.replicate 4 {}, ax := Vector.ofFn (axAfterReset s), le := Vector.replicate 8 {},
                      inbuf := [], fences := [], qWait := [], qs := Vector.replicate 16 {}, qCommit := Vector.replicate 16 false,
                      staging := Vector.replicate 16 {}, fenceSrc := Vector.replicate 16 0 }
    capLost { s with cap := {} }
  | .port =>
    { s with exg := s.exg.map (fun g => { ({} : ExgSt) with vuv := g.vuv }), ao := Vector.replicate 8 {},
             em := Vector.replicate 16 {}, lu := Vector.replicate 32 {}, sec := Vector.replicate 64 {} }
  | .system =>
    let s := { s with hp := {}, eth := s.eth.map (fun e => { ip := e.ip, mask := e.mask, gateway := e.gateway }),
                      enven := { s.enven with recent := [], sent := [] } }
    ptpLost (setF .mb Mb.KS_STATE_FWRUN 0 s)

/-- Consumers of a region lose it at the request (R28). -/
def regionLost (r : Region) (s : State) : State :=
  match r with
  | .acquisition => forAll (List.finRange 16) rcLost s
  | .control => s
  | .port => refreshOutputs s
  | .system => { s with hp := {} }

/-- A request for the reset of a region, unless it is in reset already (R434). -/
def regionRequest (r : Region) (s : State) : State :=
  if regionReset s r then s
  else
    let now := s.elapsed
    let s := modEc (fun e => { e with rstAt := e.rstAt.set (regionNum r) (some now) (by cases r <;> decide) }) s
    regionLost r (setF .ec (Ec.RERR_RSTBUSY (regionNum r)) 1 s)

/-- REGION_RESET_DONE: the registers are reset, the region is back in service, and the accesses it met are reported. -/
def regionDone (r : Region) (s : State) : State :=
  if awake s && regionReset s r then
    let s := regionState r (resetRegs r s)
    let s := modEc (fun e => { e with rstAt := e.rstAt.set (regionNum r) none (by cases r <;> decide) }) s
    let s := raiseF .ec (Ec.RERR_RSTDONE (regionNum r)) (setF .ec (Ec.RERR_RSTBUSY (regionNum r)) 0 s)
    let met := s.ec.isoPend.filter (fun p => blkRegion p.1 == r)
    let s := modEc (fun e => { e with isoPend := e.isoPend.filter (fun p => blkRegion p.1 != r) }) s
    let s := met.foldl (fun s p => match p.2 with
      | some (code, off) => blkErr p.1 .iso code off s
      | none => blkMet p.1 .iso s) s
    raiseAlarm 0x0112 (regionBase r) 0 false (refreshOutputs s)
  else s

def execRegionResetDone (r : Region) (s : State) : Outcome := .next (regionDone r s)

/-- REGION_BUS_ERROR and REGION_STARVE (R427). -/
def regionEvent (f : Fld) (code : Nat) (r : Region) (s : State) : State :=
  if clocked s r then raiseAlarm code (regionBase r) 2 false (raiseF .ec f s) else s

/-- The block an access addresses, and the offset from the base of the block, of its window or of its ring (R26, R28). -/
def accessBlk (s : State) (a : Nat) : Option (Blk × Nat) :=
  match target a with
  | .reg b off => some (b, off)
  | .window k off | .iram k off | .dram k off => some (.le k, off)
  | .lensTab n _ i => some (.lens n, 4 * i)
  | .pool off => (ringAt s off).map (fun r => (.q r.1, off - r.2))
  | .capMem off => some (.cap, off)
  | .ident _ | .unmapped => none

/-- The read of an access that the interconnect has lost returns 0: the host's as the answer, an engine's in the load that it waits
in (R28, R427). -/
def readLost (ag : Agent) (a : Nat) (s : State) : State :=
  match ag with
  | .le k => modLe k (fun e => { e with lostRd := some a }) s
  | _ => { s with answer := 0 }

/-- The access that an error of a region's interconnect affects is made under R28: nothing is written, a read returns 0, and the
block addressed reports it (R427); which access that is the row says (log 146). -/
def busLost (e : BusError) (s : State) : State :=
  match e.access with
  | none => s
  | some x =>
    if clocked s e.region && addrRegion x.addr.toNat == e.region then
      let s := if x.read then readLost x.ag x.addr.toNat s else s
      match accessBlk s x.addr.toNat with
      | some (b, off) => if x.read then blkMet b .iso s else blkErr b .iso x.ag.code off s
      | none => s
    else s

def execRegionBusError (e : BusError) (s : State) : Outcome :=
  .next (busLost e (regionEvent (Ec.RERR_BUSERR (regionNum e.region)) 0x0110 e.region s))
def execRegionStarve (r : Region) (s : State) : Outcome :=
  .next (regionEvent (Ec.RERR_STARVE (regionNum r)) 0x0111 r s)

/-! ### Freeze (R436–R440) -/

/-- A freeze begins (R438): the fabric cycle it begins in settles its alarms. -/
def freezeEntry (s : State) : State :=
  let t := timeNs s
  let now := s.aon
  let s := alarmTick s
  let s := modEc (fun e => { e with frzAt := now }) s
  refreshOutputs (setF .ec Ec.FRZ_FRZCNT (getF s .ec Ec.FRZ_FRZCNT + 1) (setF .ec Ec.FRZT t s))

/-- The FREEZE right is in force (R401). -/
def freezeRight (s : State) : Bool := flag s .mb Mb.KS_DBG_FREEZE

/-- A request without the right (R437). -/
def freezeRefused (s : State) : State := raiseAlarm 0x1002 ecSrc 0 false (raiseF .ec Ec.FRZ_FRZREJ s)

/-- A falling edge of FREEZE_N. -/
def freezePin (s : State) : State :=
  let s' := modEc (fun e => { e with freezeLow := true }) s
  if s.ec.freezeLow || !decide (4 ≤ s.pwr.stage) || frozen s || dormant s then s'
  else if freezeRight s then freezeEntry (modEc (fun e => { e with frzPin := true }) s')
  else freezeRefused s'

/-- EC_FRZCMD.GO (R436, R437). -/
def freezeGo (timeout : Nat) (s : State) : State :=
  if freezeRight s then freezeEntry (modEc (fun e => { e with frzSw := true, frzTimeout := timeout }) s)
  else freezeRefused s

/-- Milliseconds of AON periods of 1/32768 s. -/
def aonMs (n : Nat) : Nat := n * 1000 / 32768

/-- The device unfreezes (R440). -/
def unfreeze (s : State) : State :=
  let n := s.aon - s.ec.frzAt
  let s := discSet (setF .ec Ec.FRZDUR (satU 32 n) s)
  let s := vexcFollow (safeResume s)
  let s := srJoin (forAll (List.finRange 64) slotCheck { s with exg := s.exg.map (fun x => { x with low := false }) })
  let s := forAll (List.finRange 16) (fun n s =>
    if trkState s n = 2 then modRc n (fun x => { x with thawed := true }) s else s) s
  raiseAlarm 0x1006 ecSrc 0 false (refreshOutputs s)

/-- One cause of the freeze ends; the device unfreezes with the last. -/
def freezeEnd (f : EcSt → EcSt) (s : State) : State :=
  let was := frozen s
  let s := modEc f s
  if was && !frozen s then unfreeze s else s

def execFreezePin (s : State) : Outcome := .next (freezePin s)
def execFreezePinRelease (s : State) : Outcome :=
  .next (freezeEnd (fun e => { e with freezeLow := false, frzPin := false }) s)

/-- FREEZE_TIMEOUT, counted on the AON clock (R436). -/
def freezeTimeout (s : State) : State :=
  if s.ec.frzSw && s.ec.frzTimeout != 0 && decide (s.ec.frzTimeout ≤ aonMs (s.aon - s.ec.frzAt)) then
    freezeEnd (fun e => { e with frzSw := false }) s
  else s

def execFreezeTimeout (s : State) : Outcome := .next (freezeTimeout s)

/-- The capture of DAP_CTRL (R439): FATAL, SAFE, the DAP right in force, frozen. -/
def dapCapture (s : State) : Nat :=
  getF s .ec Ec.STATE_FATAL * 2 ^ 11 + bitOf (chipSafe s) * 2 ^ 10 + getF s .mb Mb.KS_DBG_DAP * 2 ^ 9 + bitOf (frozen s) * 2 ^ 8

/-- A scan of DAP_CTRL (R439): its capture, and its Update of SNAPEN and of UNFREEZE, which ends a software freeze. -/
def dapControl (w : Word) (s : State) : State :=
  let snap := bitAt w.toNat 1 == 1
  let out := BitVec.ofNat 34 (dapCapture s)
  let s := modEc (fun e => { e with snapEn := snap, jtagIr := 0x18, dapOut := out }) s
  if bitAt w.toNat 0 = 1 then freezeEnd (fun e => { e with frzSw := false }) s else s

def execDapUnfreeze (w : Word) (s : State) : Outcome := .next (dapControl w s)

/-! ### Registers of the chip error controller (R444) -/

/-- The store of a register of the chip error controller. -/
def ecStore (off : Nat) (w : Word) (s : State) : State :=
  if off = 0x10 then
    let s := if fieldOf w Ec.CMD_FORCEFATAL = 1 ∧ fieldOf w Ec.CMD_KEY = 0xFA7A then
        raiseAlarm 0x1004 ecSrc 3 false s else s
    forAll allRegions (fun r s => if bitAt (fieldOf w Ec.CMD_RRESET) (regionNum r) = 1 then regionRequest r s else s) s
  else if off = 0x84 then
    (if fieldOf w Ec.FRZCMD_GO = 1 then freezeGo (fieldOf w Ec.FRZCMD_TIMEOUT) s else s)
  else if off = 0x804 then ackStore w s
  else storeFields .ec off w s

def ecWrite (ag : Agent) (off : Nat) (w : Word) (s : State) : State :=
  if off = 0x808 then atRaiseSrc ag w s
  else if off = 0x80C then atRaise ag w s
  else judgedWrite ag .ec off w (ecStore off w) s

def execForceFatal (ag : Agent) (w : Word) (s : State) : Outcome := .next (ecWrite ag 0x10 w s)
def execRegionResetRequest (ag : Agent) (w : Word) (s : State) : Outcome := .next (ecWrite ag 0x10 w s)
def execFreezeCmd (ag : Agent) (w : Word) (s : State) : Outcome := .next (ecWrite ag 0x84 w s)
def execAlarmAck (ag : Agent) (w : Word) (s : State) : Outcome := .next (ecWrite ag 0x804 w s)

/-! ### Event counters (R441–R443, R445) -/

/-- A counter is cleared; a count of the same fabric cycle is added with the cycle's end and leaves 1 (R441). -/
def evcClear (n : Fin 32) (s : State) : State := { s with evc := s.evc.set n 0 }

/-- The fields of a register of a block, its header among them: ISOLATE is RO in the blocks of R23 (R26). -/
def regFields (b : Blk) (off : Nat) : List Fld :=
  if off = 0 then
    [{ off := 0, hi := 10, lo := 10, acc := .ro }, Hdr.ISOLATED,
     if blkFixed b then { Hdr.ISOLATE with acc := .ro } else Hdr.ISOLATE, Hdr.OWNER b]
  else if off = 4 then Hdr.err else fieldsAt b off

/-- What an event counter can watch at a bit (R442): a W1C bit, by its key; an RO bit, a reserved one and one of an identity
register among them; or nothing. -/
inductive EvcBit where
  | w1c (key : Nat)
  | ro
  | bad
  deriving DecidableEq, Repr

/-- The bit of the register word that a counter names (R442). -/
def evcBit (s : State) (n : Fin 32) : EvcBit :=
  let bit := getF s .evc (Evc.EVCN_CFG_BIT n)
  match target (getF s .evc (Evc.EVCN_SRC n)) with
  | .reg b off =>
    (match (regFields b off).find? (fun f => decide (f.lo ≤ bit) && decide (bit ≤ f.hi)) with
     | some f => if f.acc = .w1c then .w1c (bitKey b f (bit - f.lo)) else if f.acc = .ro then .ro else .bad
     | none => .ro)
  | .ident _ => .ro
  | _ => .bad

/-- The register word at the address a counter names. -/
def evcWord (s : State) (n : Fin 32) : Nat :=
  match target (getF s .evc (Evc.EVCN_SRC n)) with
  | .reg b off => liveWord s b off
  | .ident a => identWord s a
  | _ => 0

/-- The RO bit a counter watches, as it stands (R442). -/
def evcLevel (s : State) (n : Fin 32) : Bool :=
  getF s .evc (Evc.EVCN_CFG_KIND n) == 0 && evcBit s n == .ro && bitAt (evcWord s n) (getF s .evc (Evc.EVCN_CFG_BIT n)) == 1

def evcLevels (s : State) : Vector Bool 32 := Vector.ofFn (evcLevel s)

/-- A counter that a write turns to another bit counts that bit's changes from then on. -/
def evcTurn (n : Fin 32) (old s : State) : State :=
  if getF s .evc (Evc.EVCN_SRC n) = getF old .evc (Evc.EVCN_SRC n) ∧ getF s .evc (Evc.EVCN_CFG_BIT n) = getF old .evc (Evc.EVCN_CFG_BIT n)
      ∧ getF s .evc (Evc.EVCN_CFG_KIND n) = getF old .evc (Evc.EVCN_CFG_KIND n) then s
  else { s with evcPrev := s.evcPrev.set n (evcLevel s n) }

/-- The counter's source counts nothing (R442). -/
def evcBad (s : State) (n : Fin 32) : Bool :=
  if getF s .evc (Evc.EVCN_CFG_KIND n) = 1 then decide (11 < getF s .evc (Evc.EVCN_CFG_CODE n))
  else evcBit s n == .bad

/-- BADSRC follows the configuration. -/
def evcBadNote (n : Fin 32) (s : State) : State := setF .evc (Evc.EVCN_CFG_BADSRC n) (bitOf (evcBad s n)) s

/-- SNAPALL (R443). -/
def evcSnapAll (s : State) : State :=
  let s := setF .evc Evc.STIME (timeNs s) s
  forAll (List.finRange 32) (fun n s =>
    setF .evc (Evc.EVCN_SHI n) (evcCount s n / 2 ^ 32) (setF .evc (Evc.EVCN_SLO n) (evcCount s n) s)) s

/-- A read of EVCn_LO captures EVCn_HI (R443). -/
def evcSnap (n : Fin 32) (s : State) : State := setF .evc (Evc.EVCN_HI n) (evcCount s n / 2 ^ 32) s

/-- The store of a register of the event counters. -/
def evcStore (off : Nat) (w : Word) (s : State) : State :=
  if off = 0x8 then
    let s := if fieldOf w Evc.CMD_SNAPALL = 1 then evcSnapAll s else s
    if fieldOf w Evc.CMD_CLRALL = 1 then forAll (List.finRange 32) evcClear s else s
  else
    let old := s
    let s := storeFields .evc off w s
    match evcAt off with
    | some (n, o) =>
      let s := evcTurn n old s
      let s := if o = 0 ∧ fieldOf w (Evc.EVCN_CFG_CLR n) = 1 then evcClear n s else s
      if o = 0 ∨ o = 4 then evcBadNote n s else s
    | none => s

def evcWrite (ag : Agent) (off : Nat) (w : Word) (s : State) : State := judgedWrite ag .evc off w (evcStore off w) s

def execEvcSnapall (ag : Agent) (w : Word) (s : State) : Outcome := .next (evcWrite ag 0x8 w s)
def execEvcClrall (ag : Agent) (w : Word) (s : State) : Outcome := .next (evcWrite ag 0x8 w s)
def execEvcClr (ag : Agent) (n : Fin 32) (w : Word) (s : State) : Outcome :=
  .next (evcWrite ag (0x100 + 0x20 * n.val) w s)

/-- The counter's source occurs in this fabric cycle (R441, R442): events noted in `occ`, a W1C bit hardware has set, an RO
bit that has risen. -/
def evcOccurs (s : State) (n : Fin 32) : Bool :=
  if getF s .evc (Evc.EVCN_CFG_KIND n) = 1 then
    let code := getF s .evc (Evc.EVCN_CFG_CODE n)
    let idx := if code = 0 ∨ code = 1 ∨ code = 2 ∨ code = 5 ∨ code = 11 then 0 else getF s .evc (Evc.EVCN_CFG_IDX n)
    decide (code ≤ 11) && (code == 0 || s.occ.contains (code * 256 + idx))
  else match evcBit s n with
    | .w1c key => s.fresh.contains key
    | .ro => evcLevel s n && !s.evcPrev[n]
    | .bad => false

/-- The count of one fabric cycle; a counter that wraps sets its bit of EVC_OVF. -/
def evcCountOne (occ : Vector Bool 32) (n : Fin 32) (s : State) : State :=
  if flag s .evc (Evc.EVCN_CFG_EN n) && occ[n] && live s .evc then
    let c := evcCount s n
    let s := { s with evc := s.evc.set n ((c + 1) % 2 ^ 48) }
    if c + 1 = 2 ^ 48 then raiseBit .evc Evc.OVF n s else s
  else s

/-- A fabric cycle ends: its sources are counted, and what hardware has set in it is forgotten. -/
def evcTick (s : State) : State :=
  let occ := Vector.ofFn (fun n => evcOccurs s n)
  let s := { s with evcPrev := evcLevels s, fresh := [], occ := [] }
  forAll (List.finRange 32) (evcCountOne occ) s

end Sys2Proof.Machine
end

