-- ==== Sys2Proof/Machine/Ethernet.lean ====
section
/-!
DEFINITION. The two MACs (R365–R369): which frames pass, their counts and stamps, and the link.
-/

namespace Sys2Proof.Machine

def modEth (p : Fin 2) (f : EthSt → EthSt) (s : State) : State := { s with eth := s.eth.set p (f (s.eth[p])) }

/-- The MAC that runs in RESCUE (R368). -/
def rescuePort (s : State) : Fin 2 :=
  if flag s (.eth 1) Eth.CFG_RSC && !flag s (.eth 0) Eth.CFG_RSC then 1 else 0

/-- The mode gives the MAC a clock (R368, R407, log 87). -/
def ethClock (s : State) (p : Fin 2) : Bool :=
  live s (.eth p) && (decide (mode s ≤ 1) || (mode s == 2 && rescuePort s == p))

/-- The link is full duplex at a speed that the mode allows (R365, R368). -/
def linkGood (s : State) (p : Fin 2) : Bool :=
  let v := getF s (.eth p) Eth.STATUS_SPEED
  flag s (.eth p) Eth.STATUS_LINK && flag s (.eth p) Eth.STATUS_FDX && decide (v ≤ 2) && (mode s != 2 || v == 1)

/-- A link that passes no frames sets SPDERR (R365). -/
def linkCheck (p : Fin 2) (s : State) : State :=
  raiseIf (flag s (.eth p) Eth.STATUS_LINK && !linkGood s p) (.eth p) Eth.STATUS_SPDERR s

/-- ETH_LINK_CHANGE. -/
def linkChange (p : Fin 2) (link fdx : Bool) (speed : Fin 4) (s : State) : State :=
  if !ethClock s p then s
  else
    let same := flag s (.eth p) Eth.STATUS_LINK == link && flag s (.eth p) Eth.STATUS_FDX == fdx
      && getF s (.eth p) Eth.STATUS_SPEED == speed.val
    if same then s
    else
      let s := setF (.eth p) Eth.STATUS_LINK (bitOf link) (setF (.eth p) Eth.STATUS_FDX (bitOf fdx)
        (setF (.eth p) Eth.STATUS_SPEED speed.val s))
      linkCheck p (raiseF (.eth p) Eth.STATUS_LINKEV s)

def execEthLinkChange (p : Fin 2) (link fdx : Bool) (speed : Fin 4) (s : State) : Outcome :=
  .next (linkChange p link fdx speed s)

/-- Frames pass (R365). -/
def ethPasses (s : State) (p : Fin 2) : Bool := ethClock s p && flag s (.eth p) Eth.CFG_EN && linkGood s p

/-- The MAC's own address: bytes 0–1 in HI, 2–5 in LO (R369). -/
def macAddr (s : State) (p : Fin 2) : Nat := getF s (.eth p) Eth.MAC_HI * 2 ^ 32 + getF s (.eth p) Eth.MAC_LO

/-- The multicast address of the MAC for a group of IPv4: the group's low 23 bits (log 144). -/
def groupMac (ip : Nat) : Nat := 0x01005E000000 + ip % 2 ^ 23

/-- The IPv4 multicast groups a port has joined (log 144): Enven's, and those of PTP over UDP, for peer delay too. -/
def groupsJoined (s : State) (p : Fin 2) : List Nat :=
  (if s.enven.on then [s.enven.mcast] else [])
    ++ (if bitAt s.keeper.ptpCfg[0] (8 + p.val) = 1 ∧ bitAt s.keeper.ptpCfg[0] 13 = 0 then [0xE0000181, 0xE000006B] else [])

/-- The frame is addressed to the port (R365). -/
def ethForUs (s : State) (p : Fin 2) (f : EthFrame) : Bool :=
  f.dst.toNat == macAddr s p || f.dst == 0xFFFFFFFFFFFF || f.dst == 0x011B19000000 || f.dst == 0x0180C200000E
    || (groupsJoined s p).any (fun g => f.dst.toNat == groupMac g)

/-- The Keeper's stack gives an answer on a port. -/
def netAnswer (p : Fin 2) (a : NetAnswer) (s : State) : State := modEth p (fun e => { e with answers := a :: e.answers.take 15 }) s

/-- What the Keeper's stack answers to a frame that it receives (R365): ARP and ICMP echo for the port's own address; fragments
and other protocols are discarded. -/
def netTake (p : Fin 2) (l : EthLoad) (s : State) : State :=
  if !flag s .mb Mb.KS_STATE_FWRUN then s
  else match l with
  | .arp ip => if ip.toNat = (s.eth[p]).ip then netAnswer p (.arp ip.toNat) s else s
  | .echo ip => if ip.toNat = (s.eth[p]).ip then netAnswer p (.echo ip.toNat) s else s
  | .fragment | .service | .other => s

/-- A stamp in sixteenths of a ns as seconds and ns within the second (R366). -/
def stamp (s : State) (half : Bool) (lat : Int) : Nat × Nat :=
  let t : Int := 16 * (s.time.now : Int) + (if half then 40 else 0) + lat
  let ns := (t / 16 % (timeMod : Int)).toNat
  (ns / 1000000000, ns % 1000000000)

/-- ETH_FRAME_RECEIVED. -/
def frameReceived (p : Fin 2) (f : EthFrame) (s : State) : State :=
  if !ethPasses s p then s
  else if f.damaged then incF (.eth p) Eth.CNT1 s
  else if f.bytes < 64 ∨ 1522 < f.bytes ∨ 1 < f.tags ∨ f.control = true then incF (.eth p) Eth.CNT3 s
  else if !ethForUs s p f then s
  else
    let s := netTake p f.load (incF (.eth p) Eth.CNT0 s)
    if f.ptpEvent then
      let (sec, sub) := stamp s f.half (-(getF s (.eth p) Eth.RXLAT : Int))
      let ep := timeEpoch s
      setF (.eth p) Eth.RXTS sub (modEth p (fun e => { e with rxSec := sec, rxEp := ep }) s)
    else s

def execEthFrameReceived (p : Fin 2) (f : EthFrame) (s : State) : Outcome := .next (frameReceived p f s)

/-- A Sync message goes out in one-step mode: PTP_SET's [12] (R367, R380). -/
def syncOneStep (sync : Bool) (s : State) : Bool := sync && bitAt s.keeper.ptpCfg[0] 12 == 1

/-- ETH_FRAME_SENT: a one-step Sync carries its stamp, over UDP/IPv4 with a UDP checksum of 0 (R367). -/
def frameSent (p : Fin 2) (ptpEvent sync half : Bool) (s : State) : State :=
  if !ethPasses s p then s
  else
    let vid := if flag s (.eth p) Eth.CFG_VLANEN then some (getF s (.eth p) Eth.CFG_VID) else none
    let s := modEth p (fun e => { e with tag := vid }) (incF (.eth p) Eth.CNT2 s)
    if ptpEvent then
      let (sec, sub) := stamp s half (getF s (.eth p) Eth.TXLAT : Int)
      let ep := timeEpoch s
      let one := syncOneStep sync s
      let udp := bitAt s.keeper.ptpCfg[0] 13 == 0
      let s := modEth p (fun e => { e with txSec := sec, txEp := ep,
                                           origin := if one then some (sec, sub) else e.origin,
                                           sum0 := if one then udp else e.sum0 }) s
      setF (.eth p) Eth.TXTS sub s
    else s

def execEthFrameSent (p : Fin 2) (ptpEvent sync half : Bool) (s : State) : Outcome :=
  .next (frameSent p ptpEvent sync half s)

/-- Reads of ETH_RXTS and ETH_TXTS capture the seconds of the same stamp (R369). -/
def rxtsSnap (p : Fin 2) (s : State) : State := setF (.eth p) Eth.RXTS_SEC (s.eth[p]).rxSec s
def txtsSnap (p : Fin 2) (s : State) : State := setF (.eth p) Eth.TXTS_SEC (s.eth[p]).txSec s

/-- A write to a MAC's register, which the Keeper owns (R23). -/
def ethWrite (ag : Agent) (p : Fin 2) (off : Nat) (w : Word) (s : State) : State :=
  judgedWrite ag (.eth p) off w (storeFields (.eth p) off w) s

end Sys2Proof.Machine
end

