-- ==== Sys2Proof/Machine/Power.lean ====
section
/-!
DEFINITION. Power, bring-up to BEACON service, modes and DORMANT (R403–R423, with R22, R94, R120–R122, R204 and R268).
-/

namespace Sys2Proof.Machine

def modPwr (f : PwrSt → PwrSt) (s : State) : State := { s with pwr := f s.pwr }

/-! ### BEACON settings (R414) -/

def beaconAt : Nat := 0x010000

/-- 156 bytes form valid settings: magic and version, and the CRC. -/
def beaconMagic (b : List Byte) : Bool := b.take 4 == wordBytes 0x42454143 && b[4]? == some 1#8
def beaconCrc (b : List Byte) : Bool := b.drop 0x98 == wordBytes (crc32 (b.take 0x98))
def beaconValidBytes (b : List Byte) : Bool := beaconMagic b && beaconCrc b

/-- The settings in the flash; none where they are not valid. -/
def flashBeacon (s : State) : List Byte :=
  let b := flashBytes s beaconAt 156
  if beaconValidBytes b then b else []

/-- The flash holds valid settings. -/
def beaconValid (s : State) : Bool := !(flashBeacon s).isEmpty

/-- Word at an offset of settings. -/
def listWord (b : List Byte) (off : Nat) : Nat :=
  let at_ := fun (i : Nat) => (b.getD (off + i) 0).toNat
  at_ 0 + 256 * at_ 1 + 65536 * at_ 2 + 16777216 * at_ 3

/-- A field of the settings taken at bring-up, and of the sentinel fields taken at entry to DORMANT; 0 where none were valid. -/
def beaconField (s : State) (off hi lo : Nat) : Nat := bits (listWord s.pwr.beacon off) hi lo
def sentField (s : State) (off hi lo : Nat) : Nat := bits (listWord s.pwr.sentSet off) hi lo

def beaconChen (s : State) : Nat := beaconField s 4 11 8
def beaconEmen (s : State) : Nat := beaconField s 4 15 12
def initMode (s : State) : Nat := min 3 (beaconField s 4 18 16)
def autoRescue (s : State) : Bool := beaconField s 4 19 19 == 1
def rescueMask (s : State) : Nat := beaconField s 8 15 0
def sentPeriod (s : State) : Nat := clampN 1 1000 (sentField s 0xC 9 0)
def creepN (s : State) : Nat := max 1 (sentField s 0xC 14 12)
def creepThr (s : State) : Nat := sentField s 0xC 31 16
def sentAmin (s : State) : Nat := sentField s 0x10 15 0
def wakeMode (s : State) : Nat := min 2 (sentField s 0x10 18 16)

/-- Word i of channel k of the settings. -/
def beaconChan (s : State) (k : Fin 4) (i : Nat) : Nat := listWord s.pwr.beacon (0x18 + 0x20 * k.val + 4 * i)

/-- A field of a register takes a value as a write of it would store it (R10, R414). -/
def loadF (b : Blk) (f : Fld) (v : Nat) (s : State) : State := setF b f (f.fit (v % 2 ^ f.width)) s

def ch (k : Fin 4) : Fin 16 := ⟨k.val, by omega⟩

/-- The channels named by a mask, ascending (R415). -/
def maskChannels (m : Nat) : List (Fin 16) := (List.finRange 16).filter (fun n => bitAt m n.val == 1)

/-- The cells of EM0 to EM3 (R22, R204). -/
def beaconCells : List (Fin 64) := (List.finRange 64).filter (fun c => decide (c.val < 12))

/-- The BEACON blocks (R22). -/
def beaconBlks : List Blk :=
  List.flatten [(List.finRange 4).flatMap (fun k => [Blk.rc (ch k), Blk.exg (ch k), Blk.em (ch k), Blk.ax (ch k)]),
    beaconCells.map Blk.pt]

/-- The settings of channel k go into its generator and converter, which run where CHEN says so (R413). A generator that runs as BEACON
is entered takes F and PHASE of the settings as it runs, which R72 keeps from every write: the model's choice (log 157). -/
def beaconChannel (k : Fin 4) (s : State) : State :=
  let n := ch k
  if bitAt (beaconChen s) k = 1 then
    let s := loadF (.exg n) Exg.FREQ (beaconChan s k 0) s
    let s := loadF (.exg n) Exg.AMP (bits (beaconChan s k 1) 12 0) s
    let s := loadF (.exg n) Exg.PHASE (bits (beaconChan s k 1) 31 16) s
    let s := loadF (.rc n) Rc.TRK_K2 (beaconChan s k 3) (loadF (.rc n) Rc.TRK_K1 (beaconChan s k 2) s)
    let g := (getF s (.rc n) Rc.TRK_K1, getF s (.rc n) Rc.TRK_K2)
    let s := modRc n (fun x => { x with kPend := some g }) s
    let s := if flag s (.exg n) Exg.CTRL_EN then s else exgStart n (setF (.exg n) Exg.CTRL_EN 1 s)
    let s := setF (.rc n) Rc.TRK_CTRL_EN 1 s
    if trkState s n = 0 then rcStart n s else s
  else
    let s := exgStop n (setF (.exg n) Exg.CTRL_EN 0 s)
    let s := setF (.rc n) Rc.TRK_CTRL_EN 0 s
    if trkState s n = 0 then s else rcStop n 0 s

/-- The thresholds, dwells and controls of a channel's monitors, offsets 0x200 to 0x220. -/
def intSettings (_n : Fin 16) : List Fld :=
  (Rc.regs.filter (fun r => r.any (fun f => decide (0x200 ≤ f.off) && decide (f.off < 0x224)))).flatten

/-- The monitors of RCk run with their reset values, those of their baselines too (R179, R413, log 140). -/
def beaconMonitors (k : Fin 4) (s : State) : State :=
  (intSettings (ch k)).foldl (fun s f => setF (.rc (ch k)) f (f.rst k.val) s) s

/-- AXk is bound to RCk without fallback or offset (R413). -/
def beaconAxis (k : Fin 4) (s : State) : State :=
  let n := ch k
  let s := loadF (.ax n) Ax.SRC_PP (bits (beaconChan s k 6) 20 16) (setF (.ax n) Ax.SRC_SRC k.val s)
  let s := setF (.ax n) Ax.FB_SRC_FBSRC 0xFF (setF (.ax n) Ax.POS_OFS_LO 0 (setF (.ax n) Ax.POS_OFS_HI 0 s))
  let p := (srcPub s n k.val).no
  modAx n (fun x => { x with prim := { seen := p }, sec := {}, ofsPend := some 0 }) s

/-- EMk drives its three cells in quadrature where EMEN says so (R204). -/
def beaconEm (k : Fin 4) (s : State) : State :=
  let n := ch k
  let s := setF (.em n) Em.CTRL_AXIS k.val (setF (.em n) Em.CTRL_MODE 0 (setF (.em n) Em.CTRL_HYS 0
    (setF (.em n) Em.CTRL_LOSTACT 0 (setF (.em n) Em.GAP 10 s))))
  let s := setF (.em n) Em.PORT_PTA (3 * k.val) (setF (.em n) Em.PORT_PTB (3 * k.val + 1)
    (setF (.em n) Em.PORT_PTZ (3 * k.val + 2) s))
  let s := emStop n (setF (.em n) Em.CTRL_EN 0 (setF (.em n) Em.PORT_ZEN 1 s))
  if bitAt (beaconEmen s) k = 1 then
    let s := loadF (.em n) Em.ZPOS (beaconChan s k 5) (loadF (.em n) Em.CPR (beaconChan s k 4) s)
    let w := beaconChan s k 6
    let s := loadF (.em n) Em.LAT (bits w 10 0) (loadF (.em n) Em.CTRL_ZW (bits w 12 11)
      (loadF (.em n) Em.CTRL_DIR (bits w 13 13) s))
    emStart n (setF (.em n) Em.CTRL_EN 1 s)
  else s

/-- The settings are loaded into the BEACON blocks (R413, R415); an emulator that they do not enable is OFF (R204). -/
def beaconLoad (s : State) : State :=
  let s := forAll beaconCells (fun c s => setF (.pt c) Pt.CFG_MODE 0 (setF (.pt c) Pt.OUT_OE 0 s)) s
  let s := forAll ((List.finRange 16).filter (fun n => decide (4 ≤ n.val))) (fun n s => if emState s n = 0 then s else emStop n s) s
  forAll (List.finRange 4) (fun k s => beaconEm k (beaconAxis k (beaconChannel k (beaconMonitors k s)))) s

/-! ### Power-on (R405, R435) -/

/-- Everything that power or RESET_N takes away is as after power-on. What stays is outside the device or permanent: the
flash, the fused keys, incident numbers, the levels at the pins, VEXC; and the counter of the free values. -/
def powerOn (s : State) : State :=
  let inp := s.pt
  let kept : KeeperSt := { keys := s.keeper.keys, incNo := s.keeper.incNo, bootSeq := s.keeper.bootSeq }
  let e : EcSt := { safePin := s.ec.safePin, freezeLow := s.ec.freezeLow, almIn := s.ec.almIn }
  let p : PwrSt := { vinOk := s.pwr.vinOk, resetLow := s.pwr.resetLow, vexcLow := s.pwr.vexcLow }
  { ({} : State) with flash := s.flash, pt := inp, keeper := kept, ec := e, pwr := p, pending := s.pending,
                      free := s.free, answer := s.answer }

/-- VIN_RISE. -/
def vinRise (mv : Nat) (s : State) : State :=
  if !s.pwr.vinOk && decide (5600 < mv) then powerOn (modPwr (fun p => { p with vinOk := true }) s) else s

/-- BROWNOUT: VIN under 5.3 V, or a rail low; bring-up restarts once VIN has risen above 5.6 V again. -/
def brownout (s : State) : State := powerOn (modPwr (fun p => { p with vinOk := false }) s)

/-- RESET_N low keeps the device at stage 1; the TAP, which TRST_N resets, keeps its instruction (R458, R459). -/
def resetAssert (s : State) : State :=
  if s.pwr.resetLow then s
  else
    let e := s.ec
    let s := powerOn (modPwr (fun p => { p with resetLow := true }) s)
    { s with ec := { s.ec with jtagIr := e.jtagIr, boundary := e.boundary, sampled := e.sampled } }

/-- RESET_N rises: DBG_EN is sampled, and its strap grants FREEZE and DAP until the next reset (R401). -/
def resetRelease (dbg : Bool) (s : State) : State :=
  if s.pwr.resetLow then
    let s := modPwr (fun p => { p with resetLow := false, strap := dbg }) s
    if dbg then
      setF .mb Mb.KS_STATE_DBGSTRAP 1 (setF .mb Mb.KS_DBG_REMAIN 0xFFFF (setF .mb Mb.KS_DBG_DAP 1
        (setF .mb Mb.KS_DBG_FREEZE 1 s)))
    else s
  else s

def execVinRise (mv : Nat) (s : State) : Outcome := .next (vinRise mv s)
def execBrownout (_mv : Nat) (s : State) : Outcome := .next (brownout s)
def execResetNAssert (s : State) : Outcome := .next (resetAssert s)
def execResetNRelease (dbg : Bool) (s : State) : Outcome := .next (resetRelease dbg s)

/-! ### Bring-up stages 1 to 5 (R405–R413) -/

/-- The device stands in a bring-up stage; KS_STATE shows it from stage 4 on (R410). -/
def setStage (n : Nat) (s : State) : State :=
  let s := modPwr (fun p => { p with stage := n }) s
  if n < 4 then s else setF .mb Mb.KS_STATE_STAGE (min 7 n) s

/-- POWER_GOOD ends stages 1 and 2; from here SAFE_N counts as low until it has been high for 1 µs (R432). -/
def powerGood (s : State) : State :=
  if s.pwr.vinOk && !s.pwr.resetLow && decide (s.pwr.stage ≤ 2) then setStage 3 (modPwr (fun p => { p with good := true }) s)
  else s

/-- PLL_LOCKED ends stage 3; SAFE_N and VEXC are then met as they stand. -/
def pllLocked (s : State) : State :=
  if s.pwr.stage = 3 then
    let s := setF .mb Mb.KS_STATE_RUNSLOT 3 (setStage 4 (setF .pwr Pwr.CLK_REFOK 1 (setF .pwr Pwr.CLK_PLLLOCK 1 s)))
    vexcFollow (safeResume (modPwr (fun p => { p with pllDead := false }) s))
  else s

/-- The PLL runs and has not locked: in bring-up stage 3 and at the start of a sentinel burst (R410, R420). -/
def pllStarts (s : State) : Bool := !s.pwr.pllDead && (s.pwr.stage == 3 || (dormant s && s.pwr.phase == 1))

/-- PLL_LOCK_LOST (R408, R429): a lock is lost, for the sentinel burst of DORMANT too, because REFCLK has been absent for 1 µs or
otherwise (log 153); the PLL loses its reference while it starts. -/
def pllLost (s : State) : State :=
  let absent := Config.refAbsent s.cycle
  if !frozen s && (flag s .pwr Pwr.CLK_PLLLOCK || (pllStarts s && absent)) then
    let s := modPwr (fun p => { p with pllDead := true }) (setF .pwr Pwr.CLK_PLLLOCK 0 s)
    raiseAlarm 0x1001 ecSrc 3 false (if absent then setF .pwr Pwr.CLK_REFOK 0 s else s)
  else s

/-- PLLLOCK as the PLL starts again: a PLL that has lost its lock or its reference stays without one (R430). -/
def pllAgain (s : State) : State := setF .pwr Pwr.CLK_PLLLOCK (bitOf (!s.pwr.pllDead)) s

def aonXtal (s : State) : State := if s.pwr.vinOk then setF .pwr Pwr.CLK_AONXTAL 1 s else s

/-- Copy of the boot record at a flash address: valid by its CRC (R386). -/
def bootCopy (s : State) (a : Nat) : Option Nat :=
  if flashWord s a = 0x424F4F54 ∧ flashWord s (a + 60) = crc32 (flashBytes s a 60) then some (flashWord s (a + 4)) else none

/-- Address of the newer valid copy. -/
def bootNewest (s : State) : Option Nat :=
  match bootCopy s 0, bootCopy s 0x8000 with
  | some a, some b => some (if (a + 2 ^ 32 - b) % 2 ^ 32 < 2 ^ 31 then 0 else 0x8000)
  | some _, none => some 0
  | none, some _ => some 0x8000
  | none, none => none

def modKeeper (f : KeeperSt → KeeperSt) (s : State) : State := { s with keeper := f s.keeper }

/-- The boot record written, the older copy first (R386): active slot, TRIAL, boots, seconds left, slot states. -/
def bootWrite (active : Nat) (s : State) : State :=
  let k := s.keeper
  let trial := flag s .mb Mb.KS_STATE_TRIAL
  let seq := (k.bootSeq + 1) % 2 ^ 32
  let body := List.flatten ([wordBytes 0x424F4F54, wordBytes seq,
    wordBytes (active % 4 + bitOf trial * 4 + k.boots % 16 * 16), wordBytes (getF s .mb Mb.KS_TRIAL),
    wordBytes k.slotA, wordBytes k.slotB] ++ List.replicate 9 (wordBytes 0))
  let rec_ := body ++ wordBytes (crc32 body)
  let first := match bootNewest s with | some 0 => 0x8000 | _ => 0
  let s := modKeeper (fun k => { k with bootSeq := seq }) s
  setFlashBytes (0x8000 - first) rec_ (setFlashBytes first rec_ s)

/-- ROM_BOOT_DONE ends stage 4: the boot record gives the slots. -/
def romBootDone (s : State) : State :=
  if s.pwr.stage = 4 then
    let s := setStage 5 s
    match bootNewest s with
    | none => s
    | some a =>
      let trial := bitAt (flashWord s (a + 8)) 2
      let seq := flashWord s (a + 4)
      let boots := bits (flashWord s (a + 8)) 7 4
      let sa := flashWord s (a + 16) % 8
      let sb := flashWord s (a + 20) % 8
      let s := setF .mb Mb.KS_TRIAL (flashWord s (a + 12)) (setF .mb Mb.KS_STATE_TRIAL trial s)
      modKeeper (fun k => { k with bootSeq := seq, slotA := sa, slotB := sb, boots := boots }) s
  else s

/-- Blocks handed to the host as BEACON service begins: all but those the Keeper keeps (R22). -/
def beaconHandover (s : State) : State :=
  forAll allBlks (fun b s =>
    if blkFixed b || beaconBlks.contains b || owner s b != 9 then s
    else match b with
    | .le _ => s
    | b => setOwner b 0 s) s

/-- BEACON_SERVICE_START (R22, R413): stage 5 is over. -/
def beaconServiceStart (s : State) : State :=
  if s.pwr.stage = 5 then
    let set := flashBeacon s
    let s := beaconHandover (setStage 6 (modPwr (fun p => { p with beacon := set }) s))
    let f := s.fe
    let s := { s with fe := { f with served := 15 }, lanes := s.lanes.map (fun l => { l with inv := 4, clear := true }) }
    beaconLoad (setF .fe Fe.STATUS_SCHED 3 s)
  else s

def execPowerGood (s : State) : Outcome := .next (powerGood s)
def execPllLocked (s : State) : Outcome := .next (pllLocked s)
def execPllLockLost (s : State) : Outcome := .next (pllLost s)
def execAonXtalSwitch (s : State) : Outcome := .next (aonXtal s)
def execRomBootDone (s : State) : Outcome := .next (romBootDone s)
def execBeaconServiceStart (s : State) : Outcome := .next (beaconServiceStart s)

/-! ### Modes (R415–R418) -/

/-- A transition is pending. -/
def modePend (m mask : Nat) (s : State) : State :=
  let now := s.elapsed
  setF .pwr Pwr.MODE_TARGET m (setF .pwr Pwr.MODE_PEND 1 (modPwr (fun p => { p with pendMask := mask, pendAt := now }) s))

/-- The served set of a mode (R121, R413). -/
def servedMask (m mask : Nat) : Nat := match m with | 2 => mask | 3 => 15 | _ => 0xFFFF

/-- The BEACON blocks change hands where the Keeper or the host holds them (R22, R415). -/
def beaconOwners (from_ to_ : Nat) (s : State) : State :=
  forAll beaconBlks (fun b s => if owner s b = from_ then setOwner b to_ s else s) s

/-- A mode is in force (R416): engines follow their clocks, the acquisition chain follows at the synchronising reset. SRPEND reads 1 from
here on, not from the order of the transition on, though the cause dates from the order: the model's choice (log 162). -/
def modeEnter (m mask : Nat) (s : State) : State :=
  let old := mode s
  let s := setF .pwr Pwr.MODE_CHMASK (if m = 2 then mask else 0) (setF .pwr Pwr.MODE_MODE m (setF .pwr Pwr.MODE_PEND 0 s))
  let f := s.fe
  let s := srJoinAt s.pwr.pendAt { s with fe := { f with nextServed := some (servedMask m mask) } }
  let s := if old = 3 ∧ m < 3 then beaconOwners 9 0 s
    else if old < 3 ∧ m = 3 then
      beaconLoad (forAll beaconBlks (fun b s => setOwner b 9 s) s)
    else s
  forAll (List.finRange 2) linkCheck (forAll (List.finRange 8) (fun k s => leUnpause k (lePause k s)) s)

/-- A boundary of the frame grid of mode `m` lies in this tick, at or after the order of the transition (R120, R416). -/
def modeDue (s : State) (m : Nat) : Bool :=
  justAt s (modeFrame m) && decide (s.pwr.pendAt + pastMultiple s (modeFrame m) ≤ s.elapsed)

/-- MODE_ENTERED: a pending transition other than to DORMANT completes at a frame boundary of the new grid, where the
synchronising reset falls too, and with it a SET_MODE that ordered it. While the host holds the device at BEACON, it does not leave
it (R22, R411). -/
def modeEntered (s : State) : State :=
  let t := getF s .pwr Pwr.MODE_TARGET
  if awake s && flag s .pwr Pwr.MODE_PEND && t != 4 && !(s.pwr.hold && mode s == 3) && modeDue s t then
    let s := modeEnter t s.pwr.pendMask s
    match s.hp.mbMode with
    | some q => { s with hp := { s.hp with mbMode := none, mbRes := some (q, 0, []) } }
    | none => s
  else s

def execModeEntered (s : State) : Outcome := .next (modeEntered s)

/-- Every loop is OFF and every engine stands still, as BEACON asks (R415). -/
def allQuiet (s : State) : Bool :=
  (List.finRange 64).all (fun n => lpState s n == 0) &&
  (List.finRange 8).all (fun k => let st := leState s k; st == 0 || st == 3 || st == 4 || st == 5)

/-- How SET_MODE ends: refused with a result code, at once, or when the mode is in force. -/
inductive ModeRes where
  | refused (r : Nat) | now | later
  deriving DecidableEq, Repr

/-- Judgement of SET_MODE (R415). -/
def setModeRes (m mask : Nat) (s : State) : ModeRes :=
  let cnt := (maskChannels mask).length
  if 4 < m then .refused 2
  else if m ≠ 3 ∧ (s.pwr.stage < 7 ∨ s.pwr.hold = true) then .refused 3
  else if (m = 2 ∨ m = 4) ∧ (cnt < 1 ∨ 4 < cnt) then .refused 2
  else if m = 4 ∧ (maskChannels mask).any (fun n => (refGen s n).isNone) then .refused 2
  else if m = mode s ∧ (m ≠ 2 ∨ mask = getF s .pwr Pwr.MODE_CHMASK) then .now
  else if m = 4 ∧ ((List.finRange 64).any (lpClosed s) ∨ beaconValid s = false) then .refused 3
  else if m = 3 ∧ allQuiet s = false then .refused 3
  else .later

/-- SET_MODE with its arguments (R415, R418): the log is written, a kept 0x0B02 ends. The answer is a result where the command
completes now. -/
def setModeCmd (m arg1 : Nat) (s : State) : Option Nat × State :=
  let mask := arg1 % 2 ^ 16
  let s := alarmGone 0x0B02 (blkBase .pwr) (incFlush false s)
  match setModeRes m mask s with
  | .refused r => (some r, s)
  | .now => (some 0, s)
  | .later => (if m = 4 then some 0 else none, modePend m mask s)

/-- VINLO becomes active with AUTORSC (R418); in RESCUE too (log 150). -/
def autoRescueEnter (s : State) : State :=
  let mask := rescueMask s
  let cnt := (maskChannels mask).length
  if autoRescue s && decide (mode s ≤ 2) && decide (7 < s.pwr.stage) && decide (1 ≤ cnt) && decide (cnt ≤ 4) then
    let s := modPwr (fun p => { p with autoRsc := true }) s
    let there := mode s == 2 && getF s .pwr Pwr.MODE_CHMASK == mask
    raiseAlarm 0x0B02 (blkBase .pwr) 1 true (if there then s else modePend 2 mask s)
  else s

/-! ### DORMANT (R419–R422) -/

/-- DORMANT_ENTRY: 2 ms after SET_MODE answered; the fabric cycle it begins in settles its alarms. -/
def dormantEntry (s : State) : State :=
  if awake s && flag s .pwr Pwr.MODE_PEND && getF s .pwr Pwr.MODE_TARGET == 4
      && decide (2000000 ≤ sinceNs s s.pwr.pendAt) then
    let mask := s.pwr.pendMask
    let chs := maskChannels mask
    let now := s.aon
    let set := flashBeacon s
    let s := modPwr (fun p => { p with sentSet := set }) (incFlush false (alarmTick s))
    let s := setF .pwr Pwr.WAKE_HOST 0 (setF .pwr Pwr.WAKE_SIGNAL 0 (setF .pwr Pwr.WAKE_CREEP 0 (setF .pwr Pwr.WAKE_CH 0 s)))
    let s := setF .pwr Pwr.SENT_BURSTS 0 (setF .pwr Pwr.SENT_CREEPCNT 0 s)
    let s := modPwr (fun p => { p with
      dormAt := now, wakeAt := now, waking := false, phase := 0,
      sent := Vector.ofFn (fun j : Fin 4 => match chs[j.val]? with
        | some n => { ch := n.val, used := true }
        | none => {}) }) s
    let s := setF .pwr Pwr.MODE_CHMASK mask (setF .pwr Pwr.MODE_MODE 4 (setF .pwr Pwr.MODE_PEND 0 s))
    let s := forAll (List.finRange 16) monAllOff (setF .fe Fe.STATUS_SCHED 7 (setF .pwr Pwr.CLK_PLLLOCK 0 s))
    refreshOutputs (forAll (List.finRange 8) lePause s)
  else s

/-- Milliseconds since an AON period. -/
def aonSinceMs (s : State) (t : Nat) : Nat := aonMs (s.aon - t)

/-- SENTINEL_WAKE: SENT_PERIOD has passed. -/
def sentinelWake (s : State) : State :=
  if dormant s && !s.pwr.waking && s.pwr.phase == 0 && s.pwr.sent.toList.any (·.used)
      && decide (sentPeriod s ≤ aonSinceMs s s.pwr.wakeAt) then
    let now := s.aon
    modPwr (fun p => { p with wakeAt := now, phase := 1 }) s
  else s

/-- The generators whose mask holds a sentinel channel (R94). -/
def sentGens (s : State) : List (Fin 16) :=
  (List.finRange 16).filter (fun g => s.pwr.sent.toList.any (fun c =>
    c.used && bitAt (getF s (.exg g) Exg.REFMASK) (fin16 c.ch) == 1))

/-- The lanes of a sentinel channel start with its burst, their first samples INVALID as after any start (R116, R117, R122). -/
def burstLanes (n : Fin 16) (s : State) : State :=
  modRc n (fun x => { x with winS := [], winC := [] }) (modLane (laneC n) (fun _ => { inv := 4 }) (modLane (laneS n) (fun _ => { inv := 4 }) s))

/-- SENTINEL_BURST_START: the PLL has locked and the bridges of the sentinel generators are enabled for three cycles, but for one
that a safe-state cause holds off (R82, R431). -/
def burstStart (s : State) : State :=
  if dormant s && s.pwr.phase == 1 && !s.pwr.pllDead then
    let gs := sentGens s
    let n := incSat 16 (getF s .pwr Pwr.SENT_BURSTS)
    let s := forAll gs (fun g s => modExg g (fun x => { x with burst := 3, burstPh := 0, low := false }) s) s
    let s := forAll (List.finRange 4) (fun j s => whenOk (s.pwr.sent[j]).used (burstLanes (fin16 (s.pwr.sent[j]).ch)) s) s
    let s := modPwr (fun p => { p with phase := 2, sent := p.sent.map (fun c => { c with got := false }) }) s
    setF .fe Fe.STATUS_SCHED 4 (setF .pwr Pwr.CLK_PLLLOCK 1 (setF .pwr Pwr.SENT_BURSTS n s))
  else s

/-- Every burst has reached the crossing that ends its third cycle (R94). -/
def burstDone (s : State) : Bool := s.exg.toList.all (fun x => x.burst == 0 || decide (3 ≤ x.burstPh / 2 ^ 32))

/-- SENTINEL_BURST_END: the bridges are high-impedance again. -/
def burstEnd (s : State) : State :=
  if bursting s && burstDone s then
    modPwr (fun p => { p with phase := 3 }) { s with exg := s.exg.map (fun x => { x with burst := 0, low := false }) }
  else s

/-- The worst channel's creeps (R423). -/
def creepWorst (s : State) : Nat := s.pwr.sent.toList.foldl (fun m c => max m c.creeps) 0

/-- A cause of the wake at sentinel channel j: the first one gives the index (R421, R423). -/
def sentCause (j : Fin 4) (f : Fld) (s : State) : State :=
  let first := !s.pwr.waking
  let s := modPwr (fun p => { p with waking := true }) (setF .pwr f 1 s)
  if first then setF .pwr Pwr.WAKE_CH j.val s else s

/-- Phase, in 2^-32 cycle, that a burst adds between two sample instants, 320 ns apart (R95, R122). -/
def burstStep (s : State) (n : Fin 16) : Nat :=
  match refGen s n with
  | some g => 128 * getF s (.exg g) Exg.FREQ
  | none => 0

/-- The sums of p_s and p_c over a carrier cycle, and the number of samples in them. -/
structure BurstSum where
  ss : Int := 0
  sc : Int := 0
  cnt : Nat := 0

/-- Sample k of a burst takes the flags of its lane: OVL where an overload lies in its impulse response, the 900 ns up to its tick;
CLKF at the first tick after a clock fault (R100). -/
def burstFlags (k : Nat) (l : LaneSt) : LaneSt :=
  let tick := 450 + 320 * k
  { l with ovl := bitOf (l.burstOvl.any (fun t => decide (t ≤ tick) && decide (tick ≤ t + 900))),
           clkf := l.burstClk.any (fun t => decide (t ≤ tick) && (k == 0 || decide (tick < t + 320))) }

/-- Sample k of a burst at M = 16, counted from its enable (R122): the bits up to its tick, 450 ns after its instant, run through
the lanes; where its instant, that of the sample before it behind a spike filter, lies in the third cycle, its products join the
sums. -/
def burstSample (n : Fin 16) (bs bc : List Bool) (k : Nat) (x : BurstSum × State) : BurstSum × State :=
  let cut := fun (b : List Bool) => if k = 0 then b.take 23 else (b.drop (16 * k + 7)).take 16
  let s := modLane (laneC n) (burstFlags k) (modLane (laneS n) (burstFlags k) x.2)
  let (a, s) := laneSample (laneS n) 16 (cut bs) s
  let (b, s) := laneSample (laneC n) 16 (cut bc) s
  let (fs, fc, _, s) := channelFilter n false a b s
  let at_ := if flag s (.rc n) Rc.ACQ_SPIKE then k - 1 else k
  let ph := burstStep s n * at_
  if ph / 2 ^ 32 = 2 then
    let r := (refAt ((ph : Rat) / 2 ^ 32 + ((s.rc[n]).theta : Rat) / 2 ^ 32)).1
    ({ ss := x.1.ss + demod fs.v r, sc := x.1.sc + demod fc.v r, cnt := x.1.cnt + 1 }, s)
  else (x.1, s)

/-- The acquisition of R122 on a sentinel channel, over the bits of its two modulators from the enable of the burst on. -/
def burstSums (n : Fin 16) (bs bc : List Bool) (s : State) : BurstSum × State :=
  let last := if burstStep s n = 0 then 0 else (3 * 2 ^ 32 - 1) / burstStep s n + 1
  (List.range (last + 1)).foldl (fun x k => burstSample n bs bc k x) ({}, s)

/-- SENTINEL_ANGLE_READY (R122, R420): the angle of the third cycle. Once every sentinel channel's angle is in, VCORE returns
unless the device wakes. -/
def sentAngle (j : Fin 4) (bs bc : List Bool) (s : State) : State :=
  let c := s.pwr.sent[j]
  if dormant s && s.pwr.phase == 3 && c.used && !c.got then
    let (b, s) := burstSums (fin16 c.ch) bs bc s
    let (ss, sc, cnt) := (b.ss, b.sc, b.cnt)
    let undef := decide (ss = 0 ∧ sc = 0)
    let a : Nat := if undef then freeVal s % 2 ^ 16 else (roundOpen 20 ((atanTurn ss sc : Rat) / 2 ^ 32)).toNat % 2 ^ 16
    let s := if undef then freeNext s else s
    let low := decide (ss ^ 2 + sc ^ 2 < ((sentAmin s * 64 * cnt : Nat) : Int) ^ 2)
    let last := getF s .pwr (Pwr.SENTANG_LAST j)
    let du : Nat := (a + 2 ^ 16 - last) % 2 ^ 16
    let d : Int := if 2 ^ 15 < du then (du : Int) - 2 ^ 16 else (du : Int)
    let chg := if c.seen then getI s .pwr (Pwr.SENTCHG j) + d else 0
    let creep := c.seen && decide (creepThr s < chg.natAbs)
    let c' := { c with seen := true, got := true, creeps := if creep then c.creeps + 1 else 0,
                       faults := if low then c.faults + 1 else 0 }
    let s := if c.seen then s else setF .pwr (Pwr.SENTANG_REF j) a s
    let s := setI .pwr (Pwr.SENTCHG j) chg (setF .pwr (Pwr.SENTANG_LAST j) a s)
    let s := modPwr (fun p => { p with sent := p.sent.set j c' }) s
    let s := setF .pwr Pwr.SENT_CREEPCNT (min 7 (creepWorst s)) s
    let s := if creepN s ≤ c'.creeps then sentCause j Pwr.WAKE_CREEP s else s
    let s := if creepN s ≤ c'.faults then sentCause j Pwr.WAKE_SIGNAL s else s
    if s.pwr.sent.toList.all (fun c => !c.used || c.got) then
      let s := if s.pwr.waking then pllAgain s else setF .pwr Pwr.CLK_PLLLOCK 0 s
      setF .fe Fe.STATUS_SCHED 7 (modPwr (fun p => { p with phase := 0 }) s)
    else s
  else s

/-- HOST_WAKE: CS_N falls in DORMANT (R421). -/
def hostWake (s : State) : State :=
  if dormant s then setF .pwr Pwr.WAKE_HOST 1 (modPwr (fun p => { p with waking := true }) s) else s

/-- Channel j's alarm at a wake (R421). -/
def sentAlarm (j : Fin 4) (s : State) : State :=
  let c := s.pwr.sent[j]
  let src := blkBase (.rc (fin16 c.ch))
  let s := if c.used && decide (creepN s ≤ c.creeps) then raiseAlarm 0x0B01 src 1 false s else s
  if c.used && decide (creepN s ≤ c.faults) then raiseAlarm 0x0B03 src 1 false s else s

/-- A converter at a wake (R422): as after REACQ with V 0; a sentinel channel's last position moves by the unwrapped change. -/
def rcWake (n : Fin 16) (s : State) : State :=
  if trkState s n = 2 then
    let move := (List.finRange 4).foldl (fun (m : Int) (j : Fin 4) =>
      if (s.pwr.sent[j]).used && (s.pwr.sent[j]).ch == n.val then m + getI s .pwr (Pwr.SENTCHG j) * 2 ^ 16 else m) 0
    rcReacquire n (modRc n (fun x => { x with v := 0, pub := { x.pub with pos := x.pub.pos + move } }) s)
  else s

/-- DORMANT_WAKE (R422). The BEACON blocks stay with their owner, the Keeper too (R22, log 127). -/
def dormantWake (s : State) : State :=
  if dormant s && s.pwr.waking then
    let dt := s.aon - s.pwr.dormAt
    let mask := getF s .pwr Pwr.MODE_CHMASK
    let m := wakeMode s
    let s := setF .pwr Pwr.DORMT (satU 32 (aonMs dt)) (pllAgain s)
    let s := modPwr (fun p => { p with waking := false, phase := 0 })
      { s with exg := s.exg.map (fun x => { x with burst := 0, dev := 0, low := false }) }
    let s := setF .fe Fe.STATUS_SCHED 7 { s with fe := { s.fe with frames := [], auxDue := [] } }
    let s := setF .pwr Pwr.MODE_CHMASK (if m = 2 then mask else 0) (setF .pwr Pwr.MODE_MODE m s)
    let s := vexcFollow (safeResume (discSet s))
    let s := forAll (List.finRange 64) slotCheck s
    let s := timeAdjust ((dt * 1000000000 / 32768 : Nat) : Int) s
    let f := s.fe
    let s := srJoin { s with fe := { f with nextServed := some (servedMask m mask) } }
    let s := forAll (List.finRange 16) rcWake s
    let s := forAll (List.finRange 8) leUnpause s
    let s := if m = 2 then forAll (List.finRange 2) linkCheck s else s
    forAll (List.finRange 4) sentAlarm (refreshOutputs s)
  else s

def execDormantEntry (s : State) : Outcome := .next (dormantEntry s)
def execSentinelWake (s : State) : Outcome := .next (sentinelWake s)
def execSentinelBurstStart (s : State) : Outcome := .next (burstStart s)
def execSentinelBurstEnd (s : State) : Outcome := .next (burstEnd s)
def execSentinelAngleReady (j : Fin 4) (bs bc : List Bool) (clocks : Nat) (s : State) : Outcome :=
  .next (sentAngle j (bs.take clocks) (bc.take clocks) s)
def execHostWake (s : State) : Outcome := .next (hostWake s)
def execDormantWake (s : State) : Outcome := .next (dormantWake s)

end Sys2Proof.Machine
end

