-- ==== Sys2Proof/Machine/Enven.lean ====
section
/-!
DEFINITION. Enven, the messages between the Keepers of a group (R348, R370–R374, R399), but for ACTIVATE, which Tender takes.
-/

namespace Sys2Proof.Machine

def modEnven (f : EnvenSt → EnvenSt) (s : State) : State := { s with enven := f s.enven }

/-- Numbers as bytes, most significant first (R370, log 89). -/
def be16 (n : Nat) : List Nat := [n / 256 % 256, n % 256]
def be32 (n : Nat) : List Nat := be16 (n / 65536) ++ be16 n
def beNat (l : List Nat) : Nat := l.foldl (fun a b => a * 256 + b) 0

/-- The firmware of the Keeper runs. -/
def fwRun (s : State) : Bool := awake s && flag s .mb Mb.KS_STATE_FWRUN && !regionReset s .system

/-- Feature level installed, and the group's level in force (R373, R378). -/
def ownLevel (s : State) : Nat := getF s .mb Mb.KS_LEVEL_FLEVEL
def compat (s : State) : Nat := getF s .mb Mb.KS_LEVEL_COMPAT

/-- ROLE of a header (R370): node time leader; PTP grandmaster, where a port is MASTER and none is SLAVE (log 147). -/
def envenRole (s : State) : Nat :=
  let p0 := getF s .mb Mb.KS_PTP_PS0
  let p1 := getF s .mb Mb.KS_PTP_PS1
  bitOf (getF s .time Time.CFG_ROLE == 1) + 2 * bitOf ((p0 == 6 || p1 == 6) && p0 != 9 && p1 != 9)

/-- A message with its header (R370, R373). -/
def envenHeader (q type fl : Nat) (payload : List Nat) (s : State) : EnvenOut :=
  { type := type, flevel := ownLevel s, mlevel := compat s, flags := fl, group := s.enven.group, node := s.enven.node,
    chip := s.enven.chip, role := envenRole s, seq := q, epoch := timeEpoch s, tsec := timeSec s % 2 ^ 32, tsub := timeSub s,
    payload := payload }

/-- A message as it goes out in its datagram: the header field by field, then the payload (R370). -/
def envenBytes (m : EnvenOut) : List Nat :=
  List.flatten [be16 0x454E, [1, m.type % 256, m.flevel % 256, m.mlevel % 256], be16 m.flags, be16 m.group, be16 m.node,
    [m.chip % 256, m.role % 256], be16 m.payload.length, be32 m.seq, be16 m.epoch, [0, 0], be32 m.tsec, be32 m.tsub, m.payload]

/-- A message with the count `q` is sent (R370, R373): newest first, the last 16 kept. -/
def envenPut (q type flags : Nat) (payload : List Nat) (s : State) : State :=
  let fl := flags + getF s .time Time.STATUS_HOLDOVER * 4 + getF s .time Time.STATUS_DISC * 8
  let m := envenHeader q type fl payload s
  modEnven (fun e => { e with sent := m :: e.sent.take 15 }) s

/-- The next message is sent, where the firmware runs and Enven is enabled. -/
def envenSend (type flags : Nat) (payload : List Nat) (s : State) : State :=
  if fwRun s && s.enven.on then
    let q := (s.enven.seq + 1) % 2 ^ 32
    envenPut q type flags payload (modEnven (fun e => { e with seq := q }) s)
  else s

/-! ### Levels (R373, R399) -/

/-- The minimum over the device and every peer that is not lost. -/
def groupMin (s : State) : Nat :=
  (s.enven.peers.filter (fun p => !p.lost)).foldl (fun a p => min a p.flevel) (ownLevel s)

/-- A level is adopted and announced. -/
def adoptLevel (n : Nat) (s : State) : State :=
  if n = compat s then s else envenSend 7 0 [n] (setF .mb Mb.KS_LEVEL_COMPAT n s)

/-- The level follows the minimum: a drop at once, a rise after it has held (R399). PEERS is shown. -/
def levelUpdate (s : State) : State :=
  let s := setF .mb Mb.KS_LEVEL_PEERS ((s.enven.peers.filter (fun p => !p.lost)).length) s
  if !s.enven.on then modEnven (fun e => { e with riseAt := none }) (setF .mb Mb.KS_LEVEL_COMPAT (ownLevel s) s)
  else
    let m := groupMin s
    let now := s.elapsed
    if m < compat s then adoptLevel m (modEnven (fun e => { e with riseAt := none }) s)
    else if m = compat s then modEnven (fun e => { e with riseAt := none }) s
    else modEnven (fun e => { e with riseAt := match e.riseAt with
      | some (t, l) => if l = m then some (t, l) else some (now, m)
      | none => some (now, m) }) s

/-- LEVEL_RISE: TIME_SEC is a multiple of 10, and the higher minimum had held for 30 s when that second began. -/
def levelRise (s : State) : State :=
  match s.enven.riseAt with
  | some (t, m) =>
    if fwRun s && s.enven.on && decide (30000000000 + timeSub s ≤ sinceNs s t) && timeSec s % 10 == 0 then
      adoptLevel m (modEnven (fun e => { e with riseAt := none }) s)
    else s
  | none => s

def execLevelRise (s : State) : Outcome := .next (levelRise s)

/-! ### Reception (R371, R372) -/

/-- The message comes from the peer. -/
def fromPeer (m : EnvenMsg) (p : Peer) : Bool := p.node == m.node.toNat && p.chip == m.chip.toNat

/-- The peer is known from now on; until its first HEARTBEAT it does not count. -/
def knowPeer (m : EnvenMsg) (s : State) : State :=
  if s.enven.peers.any (fromPeer m) then s
  else modEnven (fun e => { e with peers := e.peers ++ [{ node := m.node.toNat, chip := m.chip.toNat, lost := true }] }) s

def modPeer (m : EnvenMsg) (f : Peer → Peer) (s : State) : State :=
  modEnven (fun e => { e with peers := e.peers.map (fun p => if fromPeer m p then f p else p) }) s

/-- Source of 0x0F01 (R374) and 0x0F02. -/
def peerSrc (node chip : Nat) : Nat := 0xE0000000 + node * 4 + chip

/-- The header is one of Enven, and gives its payload's length (R370, log 90). -/
def envenForm (m : EnvenMsg) : Bool :=
  m.magic == 0x454E#16 && m.hver == 1#8 && decide (m.plen.toNat ≤ 1400) && m.plen.toNat == m.payload.length

/-- The message is for this device and new (R372 rules 1 and 2); another header is not read (log 90). -/
def envenMine (m : EnvenMsg) (s : State) : Bool :=
  let e := s.enven
  fwRun s && e.on && envenForm m && m.group.toNat == e.group && !(m.node.toNat == e.node && m.chip.toNat == e.chip)
    && !e.recent.any (fun r => match r with
      | (g, n, c, q, t) => g == m.group.toNat && n == m.node.toNat && c == m.chip.toNat && q == m.seq.toNat
          && decide (sinceNs s t ≤ 2000000000))

/-- MLEVEL is L or L − 1 (R372). -/
def levelOk (m : EnvenMsg) (s : State) : Bool := m.mlevel.toNat == ownLevel s || m.mlevel.toNat + 1 == ownLevel s

/-- The message is taken: it is remembered for 2 s, and acknowledged where it asks for it. -/
def envenTake (m : EnvenMsg) (s : State) : State :=
  let now := s.elapsed
  let r := (m.group.toNat, m.node.toNat, m.chip.toNat, m.seq.toNat, now)
  let s := modEnven (fun e => { e with recent := r :: e.recent.filter (fun x => decide (sinceNs s x.2.2.2.2 ≤ 2000000000)) }) s
  if bitAt m.flags.toNat 0 = 1 ∧ m.type ≠ 8 then envenSend 8 2 (be32 m.seq.toNat) s else s

/-- A message at a level that is not read: discarded, counted, and reported once per sender (R372). -/
def envenOff (m : EnvenMsg) (s : State) : State :=
  let s := knowPeer m (modEnven (fun e => { e with discarded := e.discarded + 1 }) s)
  if s.enven.peers.any (fun p => fromPeer m p && p.reported) then s
  else raiseAlarm 0x0F02 (peerSrc m.node.toNat m.chip.toNat) 0 false (modPeer m (fun p => { p with reported := true }) s)

/-- HEARTBEAT (R371–R374): its header counts at any level, its interval only where the payload is read. -/
def takeHeartbeat (m : EnvenMsg) (s : State) : State :=
  let now := s.elapsed
  let was := s.enven.peers.any (fun p => fromPeer m p && p.lost)
  let iv := if levelOk m s && decide (2 ≤ m.payload.length) then some (beNat ((m.payload.take 2).map (·.toNat))) else none
  let s := modPeer m (fun p => { p with flevel := m.flevel.toNat, seenAt := now, lost := false,
                                        interval := iv.getD p.interval }) (knowPeer m (envenTake m s))
  levelUpdate (if was then alarmGone 0x0F01 (peerSrc m.node.toNat m.chip.toNat) s else s)

/-- The words of a record in a payload. -/
def recordOf (l : List Byte) : QEntry :=
  let w := fun i => wordOf (beNat (((l.drop (4 * i)).take 4).map (·.toNat)))
  { w0 := w 0, w1 := w 1, w2 := w 2, w3 := w 3 }

/-- The whole records of a payload. -/
def recordsOf (l : List Byte) : List QEntry := (List.range (l.length / 16)).map (fun i => recordOf ((l.drop (16 * i)).take 16))

/-- DATA: software records go unchanged into the queue named for reception, with the Keeper's owner code (R371). -/
def takeData (m : EnvenMsg) (s : State) : State :=
  let q := fin16 s.enven.rxQ
  (recordsOf m.payload).foldl (fun s e =>
    if 0x80 ≤ bits e.w0.toNat 31 24 then (softWrite .keeper q e s).2 else s) s

/-- ACK: an acknowledgement of the ACTIVATE in flight counts (R380, R397). -/
def takeAck (m : EnvenMsg) (s : State) : State :=
  match s.enven.activate with
  | some (_, _, _, q) =>
    if beNat ((m.payload.take 4).map (·.toNat)) = q ∧ s.enven.peers.any (fun p => fromPeer m p && !p.acked) then
      modPeer m (fun p => { p with acked := true }) (modKeeper (fun k => { k with acks := k.acks + 1 }) s)
    else s
  | none => s

/-- A message other than ACTIVATE arrives. -/
def envenReceive (m : EnvenMsg) (s : State) : State :=
  let t := m.type.toNat
  if !envenMine m s then s
  else if t = 1 then takeHeartbeat m s
  else if t = 0 ∨ 8 < t then modEnven (fun e => { e with discarded := e.discarded + 1 }) s
  else if !levelOk m s then envenOff m s
  else
    let s := envenTake m s
    if t = 5 then takeData m s else if t = 8 then takeAck m s else s

def execEnvenHeartbeat (m : EnvenMsg) (s : State) : Outcome := .next (envenReceive m s)
def execEnvenAlarm (m : EnvenMsg) (s : State) : Outcome := .next (envenReceive m s)
def execEnvenEvent (m : EnvenMsg) (s : State) : Outcome := .next (envenReceive m s)
def execEnvenTrace (m : EnvenMsg) (s : State) : Outcome := .next (envenReceive m s)
def execEnvenData (m : EnvenMsg) (s : State) : Outcome := .next (envenReceive m s)
def execEnvenLevel (m : EnvenMsg) (s : State) : Outcome := .next (envenReceive m s)
def execEnvenAck (m : EnvenMsg) (s : State) : Outcome := .next (envenReceive m s)

/-! ### Sending -/

/-- Payload of a HEARTBEAT (R371). -/
def heartbeatPayload (s : State) : List Nat :=
  let cnt := fun (g : Nat) => ((List.finRange 132).filter (fun i =>
    let e := s.alarms[i]
    e.valid && !e.acked && e.grade == g)).length
  List.flatten [be16 s.enven.interval, [mode s, 0], be16 (cnt 0), be16 (cnt 1), be16 (cnt 2), be16 (cnt 3),
    be16 (getF s .hp Hp.ALIVE_KCNT), [0, 0]]

/-- HEARTBEAT_SEND: the interval has passed, or the firmware has started and sends its first (R374, R395). -/
def heartbeatSend (s : State) : State :=
  if fwRun s && s.enven.on && (s.enven.hbFirst || decide (s.enven.interval * 1000000 ≤ sinceNs s s.enven.hbAt)) then
    let now := s.elapsed
    envenSend 1 0 (heartbeatPayload s) (modEnven (fun e => { e with hbAt := now, hbFirst := false }) s)
  else s

def execHeartbeatSend (s : State) : Outcome := .next (heartbeatSend s)

/-- PEER_LOST: three advertised intervals have passed without a HEARTBEAT (R374). -/
def peerLost (node chip : Nat) (s : State) : State :=
  let due := fun (p : Peer) => p.node == node && p.chip == chip && !p.lost
    && decide (3 * p.interval * 1000000 ≤ sinceNs s p.seenAt)
  if fwRun s && s.enven.on && s.enven.peers.any due then
    let s := modEnven (fun e => { e with peers := e.peers.map (fun p => if due p then { p with lost := true } else p) }) s
    levelUpdate (raiseAlarm 0x0F01 (peerSrc node chip) 1 true s)
  else s

def execPeerLost (node : BitVec 16) (chip : Fin 4) (s : State) : Outcome := .next (peerLost node.toNat chip.val s)

/-- The bytes of records in a payload. -/
def recordBytes (es : List QEntry) : List Nat :=
  es.flatMap (fun e => be32 e.w0.toNat ++ be32 e.w1.toNat ++ be32 e.w2.toNat ++ be32 e.w3.toNat)

/-- Up to `n` entries that satisfy a test removed from a queue by the Keeper, its owner. -/
def keeperTake (p : QEntry → Bool) (q : Fin 16) : Nat → State → List QEntry × State
  | 0, s => ([], s)
  | n + 1, s =>
    if qLevel s q != 0 && p (oldest s q) then
      match takeEntry q s with
      | (some e, s) => let (l, s) := keeperTake p q n s; (e :: l, s)
      | (none, s) => ([], s)
    else ([], s)

/-- A software record in a queue named for forwarding: it goes as DATA (R371). -/
def forwardSoft (s : State) (q : Fin 16) (e : QEntry) : Bool :=
  bitAt s.enven.fwd q.val == 1 && decide (0x80 ≤ bits e.w0.toNat 31 24)

/-- The lowest-numbered queue that the Keeper owns and whose oldest entry satisfies a test. -/
def forwardQueue (s : State) (p : Fin 16 → Bool) : Option (Fin 16) :=
  (List.finRange 16).find? (fun q => owner s (.q q) == 9 && !isolated s (.q q) && qLevel s q != 0 && p q)

/-- A queue that holds a record of event class next: a record of an event-class queue, or DATA from a queue of any class. -/
def eventNext (s : State) (q : Fin 16) : Bool := getF s (.q q) Q.CFG_CLASS == 0 || forwardSoft s q (oldest s q)
/-- A queue that holds a trace-class record next. -/
def traceNext (s : State) (q : Fin 16) : Bool := getF s (.q q) Q.CFG_CLASS == 1 && !forwardSoft s q (oldest s q)

/-- Records that fill one datagram (R370). -/
def maxRecords : Nat := 87

/-- The record of a change that the private path did not hold, as the alarm table tells it (R348, log 126): OVERFLOW for an overflow
entry, CLEARED for an entry that is free again, else NEW. -/
def tableRecord (s : State) (i : Nat) : QEntry :=
  let e := (s.alarms.toList)[i]?.getD {}
  let kind := if 128 ≤ i then 3 else if !e.valid then 2 else 0
  { w0 := word0 0x60 (seqOf s clsAlarm 0) (e.lastEp % 2 ^ 16) (e.grade * 2 ^ 12 + kind * 2 ^ 10 + i),
    w1 := wordOf (e.code * 2 ^ 16 + satU 16 e.count), w2 := wordOf e.src, w3 := wordOf e.last }

/-- Records taken from a queue go as messages of its class; the software records of a queue named for forwarding go as DATA
(R371). -/
def forwardRecords (q : Fin 16) (type : Nat) (es : List QEntry) (s : State) : State :=
  let soft := forwardSoft s q
  let send := fun (t : Nat) (es : List QEntry) (s : State) => if es.isEmpty then s else envenSend t 0 (recordBytes es) s
  send type (es.filter (fun e => !soft e)) (send 5 (es.filter soft) s)

/-- KEEPER_FORWARD (R348): one message of the first kind that waits: alarm records, at most 1,000 messages a second, then
event-class records and DATA, then trace-class records within the cap. Another record at the head of a named queue of alarm class,
which the private path has sent, holds up those behind it (log 159). -/
def keeperForward (s : State) : State :=
  if !(fwRun s && s.enven.on) then s
  else
    let sec := timeSec s
    let s := if s.keeper.fwdAt = sec then s else modKeeper (fun k => { k with fwdAt := sec, fwdAlarms := 0, fwdBits := 0 }) s
    if !(s.keeperPath.isEmpty && s.keeperMiss.isEmpty) && decide (s.keeper.fwdAlarms < 1000) then
      let table := s.keeperPath.isEmpty
      let es := if table then (s.keeperMiss.take maxRecords).map (tableRecord s) else (s.keeperPath.take maxRecords).map (·.entry)
      let s := { s with keeperPath := s.keeperPath.drop maxRecords,
                        keeperMiss := if table then s.keeperMiss.drop maxRecords else s.keeperMiss }
      envenSend 2 0 (recordBytes es) (modKeeper (fun k => { k with fwdAlarms := k.fwdAlarms + 1 }) s)
    else
      match forwardQueue s (eventNext s) with
      | some q =>
        let p : QEntry → Bool := if getF s (.q q) Q.CFG_CLASS = 0 then fun _ => true else forwardSoft s q
        let (es, s) := keeperTake p q maxRecords s
        forwardRecords q 3 es s
      | none =>
        let room := (s.keeper.traceCap * 1000 - s.keeper.fwdBits) / 128
        match forwardQueue s (traceNext s) with
        | some q =>
          if room = 0 then s
          else
            let soft := forwardSoft s q
            let (es, s) := keeperTake (fun e => !soft e) q (min maxRecords room) s
            forwardRecords q 4 es (modKeeper (fun k => { k with fwdBits := k.fwdBits + 128 * es.length }) s)
        | none => s

def execKeeperForward (s : State) : Outcome := .next (keeperForward s)

end Sys2Proof.Machine
end

