-- ==== Sys2Proof/Machine/Images.lean ====
section
/-!
DEFINITION. Stoeri images in the boot flash: their layout and the checks of R392 (R386, R389–R392, R400).
-/

namespace Sys2Proof.Machine

/-- Flash address of slot A (0) or B (1), and the size of a slot (R386). -/
def slotBase (i : Nat) : Nat := if i = 0 then 0x100000 else 0x500000
def slotSize : Nat := 0x400000

/-- Word at an offset of the image in a slot. -/
def imgWord (s : State) (i off : Nat) : Nat := flashWord s (slotBase i + off)
def imgBytes (s : State) (i off n : Nat) : List Byte := flashBytes s (slotBase i + off) n

def imgLen (s : State) (i : Nat) : Nat := imgWord s i 8
def imgLevel (s : State) (i : Nat) : Nat := bits (imgWord s i 0x14) 7 0
def imgVersion (s : State) (i : Nat) : Nat := imgWord s i 0x18

/-- A section: type, target, offset in the image, length, load offset (R389). -/
structure Section where
  type : Nat
  target : Nat
  off : Nat
  len : Nat
  load : Nat
  deriving DecidableEq, Repr

def imgSections (s : State) (i : Nat) : List Section :=
  (List.range (bits (imgWord s i 0x20) 6 0)).map (fun j =>
    let a := 0x100 + 16 * j
    { type := bits (imgWord s i a) 7 0, target := bits (imgWord s i a) 15 8, off := imgWord s i (a + 4),
      len := imgWord s i (a + 8), load := imgWord s i (a + 12) })

/-- The section fits its target (R390). -/
def Section.fits (x : Section) : Bool :=
  match x.type with
  | 1 | 5 => true
  | 2 => decide (x.target < 8) && x.len % 4 == 0 && decide (x.load + x.len ≤ 49152)
  | 3 => decide (x.target < 8) && decide (x.load + x.len ≤ 32768)
  | 4 => decide (x.target < 8) && x.len == 8
  | t => decide (0x80 ≤ t)

/-- Check 4 of R392. -/
def sectionsOk (s : State) (i : Nat) : Bool :=
  let xs := imgSections s i
  let n := xs.length
  decide (1 ≤ n) && decide (n ≤ 64)
    && xs.all (fun x => decide (0x80 ≤ x.type) || (x.off % 256 == 0 && decide (x.off + x.len ≤ imgLen s i) && x.fits))
    && (xs.filter (fun x => x.type == 1)).length == 1

/-- An image's level is permitted (R400). -/
def levelPermitted (s : State) (l : Nat) : Bool := decide (compat s ≤ l + 1) && decide (l ≤ compat s + 1)

/-- A fused slot holds the hash and is not revoked (R391). -/
def keyHeld (s : State) (i : Fin 4) (h : BitVec 256) : Bool :=
  match s.keeper.keys[i] with
  | some (k, revoked) => k == h && !revoked
  | none => false

def anyFused (s : State) : Bool := (List.finRange 4).any (fun i => (s.keeper.keys[i]).isSome)

def imgKey (s : State) (i : Nat) : List Byte := imgBytes s i 0x28 64

/-- Check 5 of R392. -/
def keyOk (s : State) (i : Nat) : Bool :=
  !anyFused s || keyHeld s (fin4 (bits (imgWord s i 0x24) 1 0)) (Config.sha256 (imgKey s i))

/-- A number of bytes as they stand, most significant first. -/
def bytesBe : Nat → Nat → List Byte
  | 0, _ => []
  | n + 1, v => bytesBe n (v / 256) ++ [BitVec.ofNat 8 v]

/-- The digest of all but the signature block (R389). -/
def imgDigest (s : State) (i : Nat) : BitVec 256 := Config.sha256 (imgBytes s i 0 (imgLen s i - 96))

/-- Checks 6 to 8, which bring-up and activation repeat (R392): the number of the first that fails. -/
def imgRepeat (s : State) (i : Nat) : Option Nat :=
  let n := imgLen s i
  if n < 96 ∨ slotSize < n ∨ imgBytes s i (n - 96) 32 ≠ bytesBe 32 (imgDigest s i).toNat then some 6
  else if !Config.p256Verify (imgKey s i) (imgDigest s i) (imgBytes s i (n - 64) 64) then some 7
  else if (imgSections s i).any (fun x => x.type == 1 && !Config.uhlentiusVerify (imgBytes s i x.off x.len)) then some 8
  else none

/-- The checks of R392 against the length given: the number of the first that fails. -/
def imgCheck (s : State) (i len : Nat) : Option Nat :=
  if imgWord s i 0 ≠ 0x53544F52 ∨ bits (imgWord s i 4) 7 0 ≠ 1 ∨ imgLen s i ≠ len then some 1
  else if imgWord s i 0xC ≠ 0x56511664 ∨ 0xA0 < bits (imgWord s i 0x10) 7 0 ∨ bits (imgWord s i 0x10) 15 8 < 0xA0 then some 2
  else if levelPermitted s (imgLevel s i) = false then some 3
  else if sectionsOk s i = false then some 4
  else if keyOk s i = false then some 5
  else imgRepeat s i

/-- Sections of a type for a target, in the order of the table. -/
def imgParts (s : State) (i type : Nat) (k : Fin 8) : List Section :=
  (imgSections s i).filter (fun x => x.type == type && x.target == k.val)

/-- The image starts the engine (R390). -/
def imgStarts (s : State) (i : Nat) (k : Fin 8) : Bool := !(imgParts s i 4 k).isEmpty

/-- Bytes of a section written to a RAM of the engine. -/
def loadBytes (a : Nat) : List Byte → State → State
  | [], s => s
  | v :: t, s => loadBytes (a + 1) t (setByte a v s)

/-- The Keeper loads and starts an engine from an image (R395 step 5, R412): RESET, the RAMs, LE_ENTRY and LE_IVEC, RUN. -/
def loadEngine (i : Nat) (k : Fin 8) (s : State) : State :=
  let s := leClear k s
  let s := (imgParts s i 2 k).foldl (fun s x => loadBytes (iramBase k + x.load) (imgBytes s i x.off x.len) s) s
  let s := (imgParts s i 3 k).foldl (fun s x => loadBytes (dramBase k + x.load) (imgBytes s i x.off x.len) s) s
  let s := (imgParts s i 4 k).foldl (fun s x =>
    setF (.le k) Le.IVEC (imgWord s i (x.off + 4)) (setF (.le k) Le.ENTRY (imgWord s i x.off) s)) s
  leStart k s

end Sys2Proof.Machine
end

