-- ==== Sys2Proof/Machine/Tender.lean ====
section
/-!
DEFINITION. The Tender update agent: slot states, schedules, activation, trial and rollback, group activation, and the start
of the Keeper firmware (R22, R386, R393–R398, R410).
-/

namespace Sys2Proof.Machine

/-- Source of Tender's alarms (log 93). -/
def mbSrc : Nat := blkBase .mb

/-! ### Slots (R393): 0 EMPTY, 1 WRITING, 2 VALID, 3 FAILED, 4 TRIAL, 5 ACTIVE -/

def slotState (s : State) (i : Nat) : Nat := if i = 0 then s.keeper.slotA else s.keeper.slotB

def setSlot (i st : Nat) (s : State) : State :=
  modKeeper (fun k => if i = 0 then { k with slotA := st } else { k with slotB := st }) s

/-- The slot in use: ACTIVE or TRIAL. -/
def activeSlot (s : State) : Option Nat :=
  if s.keeper.slotA = 4 ∨ s.keeper.slotA = 5 then some 0
  else if s.keeper.slotB = 4 ∨ s.keeper.slotB = 5 then some 1 else none

/-- The slot an image is written to and activated from; slot A where none is in use. -/
def inactiveSlot (s : State) : Nat := if activeSlot s = some 0 then 1 else 0

/-- The other slot. -/
def otherSlot (i : Nat) : Nat := if i = 0 then 1 else 0

/-- Engines go to the host where the Keeper still owns them; while the host holds the device at BEACON they wait for its release
(R22). -/
def handOver (ks : List (Fin 8)) (s : State) : State :=
  if s.pwr.hold then modKeeper (fun k => { k with handDue := k.handDue ++ ks.filter (fun x => !k.handDue.contains x) }) s
  else forAll ks (fun k s => if owner s (.le k) = 9 then setOwner (.le k) 0 s else s) s

/-- Every engine the Keeper owns goes to the host (R22, R396). -/
def handEngines (s : State) : State := modKeeper (fun k => { k with keptEngines := [] }) (handOver (List.finRange 8) s)

/-- The engines kept through a trial go to the host (R396). -/
def handKept (s : State) : State :=
  modKeeper (fun k => { k with keptEngines := [] }) (handOver s.keeper.keptEngines s)

/-- HOLD_BEACON is released: what has waited for it is handed over (R22, R411). -/
def holdRelease (s : State) : State :=
  let ks := s.keeper.handDue
  handOver ks (modKeeper (fun k => { k with handDue := [] }) (modPwr (fun p => { p with hold := false }) s))

/-- A slot takes a state that the boot record keeps (R386). -/
def slotTo (i st : Nat) (s : State) : State :=
  let s := setSlot i st s
  bootWrite ((activeSlot s).getD 3) s

/-- The engines an image starts, ascending. -/
def imgEngines (s : State) (i : Nat) : List (Fin 8) := (List.finRange 8).filter (imgStarts s i)

/-- Engines that the image starts are loaded and started where the Keeper owns them; 0x0E06 for each other (R396, R412). -/
def loadEngines (i : Nat) (s : State) : State :=
  forAll (imgEngines s i) (fun k s =>
    if owner s (.le k) = 9 then loadEngine i k s else raiseAlarm 0x0E06 mbSrc 0 false s) s

/-- KS_TRIAL and KS_STATE.TRIAL follow a slot that goes on trial, or leaves it. -/
def setTrial (on : Bool) (s : State) : State :=
  let now := s.elapsed
  setF .mb Mb.KS_TRIAL (if on then 600 else 0) (setF .mb Mb.KS_STATE_TRIAL (bitOf on)
    (modKeeper (fun k => { k with boots := 0, trialAt := now }) s))

/-- The Keeper is back in ROM code with no slot to run (R377, R398): 0x0E04, and its engines go to the host (R22). -/
def romReturn (s : State) : State :=
  let s := setTrial false (modPwr (fun p => { p with romOnly := true }) s)
  let s := setF .mb Mb.KS_STATE_RUNSLOT 3 (setF .mb Mb.KS_STATE_FWRUN 0 (setF .mb Mb.KS_LEVEL_FLEVEL 0 s))
  let s := setF .mb Mb.KS_VERSION_MAJOR 0 (setF .mb Mb.KS_VERSION_MINOR 0 (setF .mb Mb.KS_VERSION_BUILD 0 s))
  handEngines (levelUpdate (raiseAlarm 0x0E04 mbSrc 2 false (bootWrite 3 s)))

/-! ### Activation (R395) -/

/-- Step 1 of R395: the result code of a refusal. -/
def activateRefused (s : State) (i : Nat) : Option Nat :=
  if levelPermitted s (imgLevel s i) = false then some 8
  else if (imgEngines s i).any (fun k => owner s (.le k) != 9) then some 4
  else none

/-- The image is not activated: 0x0E01 and the result. -/
def activateFail (r : Nat) (s : State) : State :=
  raiseAlarm 0x0E01 mbSrc 1 false (modKeeper (fun k => { k with lastRes := r }) s)

/-- Steps 3 to 5 of R395: slot `i` on trial, the System region resets, the engines of the image start. -/
def activateRun (i : Nat) (s : State) : State :=
  let o := otherSlot i
  let s := if slotState s o = 4 ∨ slotState s o = 5 then setSlot o 2 s else s
  let s := setF .mb Mb.KS_STATE_RUNSLOT i (setTrial true (setSlot i 4 s))
  let s := if s.pwr.romOnly then setStage 8 (modPwr (fun p => { p with romOnly := false }) s) else s
  let ks := imgEngines s i
  let s := modKeeper (fun k => { k with lastRes := 0, keptEngines := ks }) (bootWrite i s)
  loadEngines i (regionRequest .system s)

/-- An activation of slot `i`, at the fire tick of the ACTIVATE slot or at TND_SWITCH. -/
def tenderActivate (i : Nat) (s : State) : State :=
  match activateRefused s i with
  | some r => activateFail r s
  | none =>
    match imgRepeat s i with
    | some n => activateFail 6 (slotTo i 3 (modKeeper (fun k => { k with failCheck := n }) s))
    | none => activateRun i s

/-! ### Trial and rollback (R393, R396) -/

/-- A rollback of the slot on trial: the previous slot is activated where it passes the checks. -/
def rollback (s : State) : State :=
  match activeSlot s with
  | none => s
  | some i =>
    let j := otherSlot i
    let s := raiseAlarm 0x0E03 mbSrc 2 false (setSlot i 3 s)
    match imgRepeat s j with
    | none =>
      let s := setF .mb Mb.KS_STATE_RUNSLOT j (setTrial false (setSlot j 5 s))
      handEngines (loadEngines j (regionRequest .system (bootWrite j s)))
    | some n => romReturn (setSlot j 3 (modKeeper (fun k => { k with failCheck := n }) s))

/-- One second of elapsed time in 2^-28 ns. -/
def secUnits : Nat := 1000000000 * 2 ^ 28

/-- Whole seconds of the trial that have passed leave KS_TRIAL (R393). -/
def trialCount (s : State) : State :=
  let n := (s.elapsed - s.keeper.trialAt) / secUnits
  if flag s .mb Mb.KS_STATE_TRIAL && n != 0 then
    setF .mb Mb.KS_TRIAL (getF s .mb Mb.KS_TRIAL - n)
      (modKeeper (fun k => { k with trialAt := k.trialAt + n * secUnits }) s)
  else s

/-- Seconds of trial in the boot record. -/
def trialSaved (s : State) : Nat := match bootNewest s with | some a => flashWord s (a + 12) | none => 600

/-- TRIAL_SAVE: ten seconds have passed since the boot record was written. -/
def trialSave (s : State) : State :=
  if awake s && flag s .mb Mb.KS_STATE_TRIAL && decide (getF s .mb Mb.KS_TRIAL + 10 ≤ trialSaved s) then
    bootWrite ((activeSlot s).getD 3) s
  else s

def execTrialSave (s : State) : Outcome := .next (trialSave s)

/-- TRIAL_EXPIRY: the trial runs out whether or not its firmware has started (R393). -/
def trialExpiry (s : State) : State :=
  if clocked s .system && !regionReset s .system && flag s .mb Mb.KS_STATE_TRIAL && getF s .mb Mb.KS_TRIAL == 0 then rollback s
  else s

def execTrialExpiry (s : State) : Outcome := .next (trialExpiry s)

/-! ### Schedules (R394) -/

/-- The highest-numbered slot of the Keeper that is not armed. -/
def tenderSlot (s : State) : Option (Fin 64) :=
  (List.finRange 64).reverse.find? (fun n => owner s (.slot n) == 9 && !isolated s (.slot n)
    && getF s (.slot n) Slot.STATUS_STATE != 1)

/-- The schedule's slot is armed through its registers. -/
def armActivate (c : Sched) (s : State) : State :=
  let n := fin64 c.slot
  let cfg := 5 + bitOf c.strict * 2 ^ 4 + 2 ^ 5 + getF s (.slot n) Slot.CFG_EVT * 2 ^ 6 + getF s (.slot n) Slot.CFG_EVQ * 2 ^ 8
  let s := slotWrite .keeper n 0xC (wordOf cfg) s
  let s := slotWrite .keeper n 0x14 0 (slotWrite .keeper n 0x10 (wordOf c.target) s)
  let s := slotWrite .keeper n 0x8 1 s
  modKeeper (fun k => { k with sched := some { c with armed := true } }) s

/-- A passed target: the slot is armed to fire late, or the activation is missed. -/
def schedPassed (c : Sched) (s : State) : Nat × State :=
  if !c.strict && decide (s.time.now ≤ c.target + c.lateMax * 1000000000) then
    let n := fin64 c.slot
    let s := armActivate c s
    (0, if getF s (.slot n) Slot.STATUS_STATE = 1 then { s with slotLate := s.slotLate.set n true } else s)
  else
    (10, raiseAlarm 0x0E02 mbSrc 1 false (modKeeper (fun k => { k with sched := none, lastRes := 10 }) s))

/-- An activation is scheduled: a result code, and the slot used. -/
def schedule (target : Nat) (strict : Bool) (lateMax : Nat) (s : State) : Nat × Nat × State :=
  if slotState s (inactiveSlot s) ≠ 2 then (3, 0, s)
  else match tenderSlot s with
  | none => (9, 0, s)
  | some n =>
    let c : Sched := { target := target, strict := strict, lateMax := lateMax, slot := n.val }
    if target ≤ s.time.now then
      let (r, s) := schedPassed c s
      (r, n.val, s)
    else (0, n.val, modKeeper (fun k => { k with sched := some c }) s)

/-- TENDER_ARM: the target lies within 1 s. -/
def tenderArm (s : State) : State :=
  match s.keeper.sched with
  | some c =>
    if fwRun s && !c.armed && decide (c.target ≤ s.time.now + 1000000000) then
      (if c.target ≤ s.time.now then (schedPassed c s).2 else armActivate c s)
    else s
  | none => s

def execTenderArm (s : State) : Outcome := .next (tenderArm s)

/-- A schedule is cancelled, its slot disarmed. -/
def schedCancel (s : State) : State :=
  match s.keeper.sched with
  | some c =>
    let s := modKeeper (fun k => { k with sched := none }) s
    if c.armed then slotWrite .keeper (fin64 c.slot) 0x8 2 s else s
  | none => s

/-- The ACTIVATE slot fires: the inactive slot is activated where it is VALID, and the lateness is kept. -/
def tenderFire (n : Fin 64) (s : State) : State :=
  let late := match s.keeper.sched with
    | some c => if c.slot = n.val then s.time.now - c.target else (timeNs s + 2 ^ 32 - getF s (.slot n) Slot.TARGET) % 2 ^ 32
    | none => (timeNs s + 2 ^ 32 - getF s (.slot n) Slot.TARGET) % 2 ^ 32
  let s := modKeeper (fun k => { k with sched := none, lastLate := satU 32 late }) s
  if slotState s (inactiveSlot s) = 2 then tenderActivate (inactiveSlot s) s else s

/-! ### Group activation (R397) -/

def be48 (n : Nat) : List Nat := be16 (n / 2 ^ 32) ++ be32 n

/-- First 8 bytes of the digest in the image. -/
def digestPrefix (s : State) (i : Nat) : List Byte := imgBytes s i (imgLen s i - 96) 8

/-- The payload of an ACTIVATE. -/
def activatePayload (s : State) (target : Nat) (strict cancel : Bool) (lateMax : Nat) : List Nat :=
  let i := inactiveSlot s
  List.flatten [be48 (target / 1000000000), be32 (target % 1000000000), [bitOf strict + 2 * bitOf cancel], [lateMax],
    (digestPrefix s i).map (·.toNat), [imgLevel s i], be32 (imgVersion s i), [0]]

/-- An ACTIVATE goes to the group, to be acknowledged by every peer. -/
def activateSend (target : Nat) (strict cancel : Bool) (lateMax : Nat) (s : State) : State :=
  if s.enven.on then
    let p := activatePayload s target strict cancel lateMax
    let now := s.elapsed
    let s := envenSend 6 1 p (modKeeper (fun k => { k with acks := 0 }) s)
    modEnven (fun e => { e with activate := some (p, 0, now, e.seq), peers := e.peers.map (fun x => { x with acked := false }) }) s
  else s

/-- ACTIVATE_RESEND: 100 ms have passed and a peer has not acknowledged. -/
def activateResend (s : State) : State :=
  match s.enven.activate with
  | some (p, n, t, q) =>
    if fwRun s && s.enven.on && decide (n < 3) && decide (100000000 ≤ sinceNs s t)
        && s.enven.peers.any (fun x => !x.lost && !x.acked) then
      let now := s.elapsed
      modEnven (fun e => { e with activate := some (p, n + 1, now, q) }) (envenPut q 6 1 p s)
    else s
  | none => s

def execActivateResend (s : State) : Outcome := .next (activateResend s)

/-- The payload of an ACTIVATE is taken: scheduled or cancelled where the image is held, else 0x0E05. -/
def takeActivate (m : EnvenMsg) (s : State) : State :=
  let p := m.payload
  let num := fun (a n : Nat) => beNat (((p.drop a).take n).map (·.toNat))
  let i := inactiveSlot s
  if p.length < 26 then s
  else if slotState s i = 2 ∧ digestPrefix s i = (p.drop 12).take 8 then
    if bitAt (num 10 1) 1 = 1 then schedCancel s
    else (schedule (num 0 6 * 1000000000 + num 6 4) (bitAt (num 10 1) 0 == 1) (num 11 1) (schedCancel s)).2.2
  else raiseAlarm 0x0E05 mbSrc 0 false s

/-- ENVEN_ACTIVATE. -/
def envenActivate (m : EnvenMsg) (s : State) : State :=
  if m.type ≠ 6 then envenReceive m s
  else if !envenMine m s then s
  else if !levelOk m s then envenOff m s
  else takeActivate m (envenTake m s)

def execEnvenActivate (m : EnvenMsg) (s : State) : Outcome := .next (envenActivate m s)

/-! ### The firmware starts (R377, R398, R410) -/

/-- The firmware of slot `i` runs; in bring-up stage 6 is over. -/
def firmwareRun (i : Nat) (s : State) : State :=
  let v := imgVersion s i
  let s := setF .mb Mb.KS_STATE_RUNSLOT i (setF .mb Mb.KS_STATE_FWRUN 1 (setF .mb Mb.KS_LEVEL_FLEVEL (imgLevel s i) s))
  let s := setF .mb Mb.KS_VERSION_MAJOR (bits v 31 24) (setF .mb Mb.KS_VERSION_MINOR (bits v 23 16)
    (setF .mb Mb.KS_VERSION_BUILD (bits v 15 0) s))
  let s := modEnven (fun e => { e with hbFirst := true }) s
  levelUpdate (if s.pwr.stage = 6 then setStage 7 s else s)

/-- The other slot is verified and booted, or none is left. -/
def bootOther (i : Nat) (s : State) : State :=
  let j := otherSlot i
  let s := setTrial false (setSlot i 3 s)
  match imgRepeat s j with
  | none => firmwareRun j (bootWrite j (setSlot j 5 s))
  | some n => romReturn (setSlot j 3 (modKeeper (fun k => { k with failCheck := n }) s))

/-- The slot in use is verified and booted (R398); a third boot on trial, or one that fails, rolls back (R393, log 97). -/
def bootActive (i : Nat) (s : State) : State :=
  if slotState s i = 4 then
    let s := modKeeper (fun k => { k with boots := k.boots + 1 }) s
    if s.keeper.boots < 3 ∧ imgRepeat s i = none then firmwareRun i (bootWrite i s)
    else bootOther i (raiseAlarm 0x0E03 mbSrc 2 false s)
  else if imgRepeat s i = none then firmwareRun i s
  else bootOther i s

/-- FIRMWARE_STARTED: at stage 6, and after a reset of the System region; firmware on trial whose image fails the checks by then does
not start (R393). -/
def firmwareStarted (s : State) : State :=
  if awake s && !s.pwr.romOnly && !regionReset s .system && !flag s .mb Mb.KS_STATE_FWRUN then
    if s.pwr.stage = 6 then
      match activeSlot s with
      | some i => bootActive i s
      | none => romReturn s
    else if 7 ≤ s.pwr.stage then
      match activeSlot s with
      | some i => if slotState s i = 4 ∧ (imgRepeat s i).isSome then rollback s else firmwareRun i s
      | none => s
    else s
  else s

def execFirmwareStarted (s : State) : Outcome := .next (firmwareStarted s)

end Sys2Proof.Machine
end

