-- ==== Sys2Proof/Machine/Sensors.lean ====
section
/-!
DEFINITION. The sensors, the Keeper's sign of life and its PTP state (R50, R364, R378, R384, R385, R418).
-/

namespace Sys2Proof.Machine

/-- The Keeper runs, ROM or firmware. -/
def keeperRuns (s : State) : Bool := clocked s .system && !regionReset s .system

/-! ### Samples (R384) -/

/-- Base of the sensor block, the source of its alarms. -/
def snsSrc : Nat := blkBase .sns

/-- Highest Tj of a sample, 1/16 °C. -/
def Readings.tj (r : Readings) : Int := max (max r.tj0 r.tj1) (max r.tj2 r.tj3)

/-- The rails of a sample with their nominal values in mV. -/
def railsOf (r : Readings) : List (Nat × Nat) :=
  [(r.vio, 3300), (r.vcore, 800), (r.avdd, 3300), (r.vref, 2500), (r.vaon, 1200)]

/-- A rail differs from nominal by more than `pc` percent. -/
def railOff (pc : Nat) (x : Nat × Nat) : Bool := decide (x.2 * pc < 100 * ((x.1 : Int) - (x.2 : Int)).natAbs)

/-- The sample is beyond a condition's threshold. -/
def condBeyond (s : State) (r : Readings) : SensorCond → Bool
  | .twarn => decide ((s.keeper.tLo : Int) < Readings.tj r)
  | .thigh => decide ((s.keeper.tHi : Int) < Readings.tj r)
  | .tcrit => decide ((2160 : Int) < Readings.tj r)
  | .vinlo => decide (r.vin < s.keeper.vLo)
  | .vinhi => decide (s.keeper.vHi < r.vin)
  | .rail => (railsOf r).any (railOff 5)

/-- The sample is back inside it by the hysteresis. -/
def condInside (s : State) (r : Readings) : SensorCond → Bool
  | .twarn => decide (Readings.tj r + 32 ≤ (s.keeper.tLo : Int))
  | .thigh => decide (Readings.tj r + 32 ≤ (s.keeper.tHi : Int))
  | .tcrit => decide (Readings.tj r + 32 ≤ (2160 : Int))
  | .vinlo => decide (s.keeper.vLo + 200 ≤ r.vin)
  | .vinhi => decide (r.vin + 200 ≤ s.keeper.vHi)
  | .rail => !(railsOf r).any (railOff 4)

/-- Index, status bit, alarm code and grade of a condition. -/
def condIndex : SensorCond → Fin 6
  | .twarn => 0 | .thigh => 1 | .tcrit => 2 | .vinlo => 3 | .vinhi => 4 | .rail => 5

def condFld : SensorCond → Fld
  | .twarn => Sns.STATUS_TWARN | .thigh => Sns.STATUS_THIGH | .tcrit => Sns.STATUS_TCRIT
  | .vinlo => Sns.STATUS_VINLO | .vinhi => Sns.STATUS_VINHI | .rail => Sns.STATUS_RAIL

def condCode : SensorCond → Nat
  | .twarn => 0x0D01 | .thigh => 0x0D02 | .tcrit => 0x0D03 | .vinlo => 0x0D10 | .vinhi => 0x0D11 | .rail => 0x0D12

def condGrade : SensorCond → Nat
  | .twarn => 1 | .thigh => 2 | .tcrit => 3 | .vinlo => 1 | .vinhi => 1 | .rail => 2

def allConds : List SensorCond := [.twarn, .thigh, .tcrit, .vinlo, .vinhi, .rail]

/-- Consecutive samples of each condition, counted up to 3. -/
def condCount (r : Readings) (c : SensorCond) (s : State) : State :=
  let i := condIndex c
  let b := condBeyond s r c
  let n := condInside s r c
  modKeeper (fun k => { k with beyond := k.beyond.set i (if b then min 3 (k.beyond[i] + 1) else 0),
                               inside := k.inside.set i (if n then min 3 (k.inside[i] + 1) else 0) }) s

/-- SENSOR_SAMPLE: a millisecond has passed. -/
def sensorSample (r : Readings) (s : State) : State :=
  if keeperRuns s && decide (1000000 ≤ sinceNs s s.keeper.sampleAt) then
    let t := timeNs s
    let now := s.elapsed
    let tj := ofSigned 16 (satS 16 (Readings.tj r))
    let top := if s.keeper.sampled then ofSigned 16 (max (toSigned 16 s.keeper.sample[12]) (satS 16 (Readings.tj r))) else tj
    let v := #v[tj, ofSigned 16 (satS 16 r.tj0), ofSigned 16 (satS 16 r.tj1), ofSigned 16 (satS 16 r.tj2),
      ofSigned 16 (satS 16 r.tj3), satU 16 r.vin, satU 16 r.vexc, satU 16 r.vio, satU 16 r.vcore, satU 16 r.avdd,
      satU 16 r.vref, satU 16 r.vaon, top]
    let s := modKeeper (fun k => { k with sample := v, sampled := true, sampleAt := now, sampleT := t }) s
    let s := setVexc r.vexc (setF .sns Sns.TIME t (setF .sns Sns.STATUS_STALE 0 s))
    forAll allConds (condCount r) s
  else s

def execSensorSample (r : Readings) (s : State) : Outcome := .next (sensorSample r s)

/-- The alarm of a condition is kept in the table: a reset of the System region leaves it there with the bit at 0 (R435). -/
def condKept (s : State) (c : SensorCond) : Bool :=
  (List.finRange 132).any (fun i => let e := s.alarms[i]
    e.valid && e.cond && e.code == condCode c && e.src == snsSrc)

/-- SENSOR_CONDITION_CHANGE: three samples beyond a threshold, or three back inside. VINLO also writes the log (R388) and may
enter RESCUE (R418). -/
def sensorChange (c : SensorCond) (s : State) : State :=
  let i := condIndex c
  if !keeperRuns s then s
  else if flag s .sns (condFld c) then
    (if 3 ≤ s.keeper.inside[i] then alarmGone (condCode c) snsSrc (setF .sns (condFld c) 0 s) else s)
  else if 3 ≤ s.keeper.beyond[i] then
    let s := raiseAlarm (condCode c) snsSrc (condGrade c) true (setF .sns (condFld c) 1 s)
    if c = .vinlo then autoRescueEnter (incFlush false s) else s
  else if condKept s c && decide (3 ≤ s.keeper.inside[i]) then alarmGone (condCode c) snsSrc s
  else s

def execSensorConditionChange (c : SensorCond) (s : State) : Outcome := .next (sensorChange c s)

/-- SENSOR_STALE: the newest sample is more than 5 ms old. -/
def sensorStale (s : State) : State :=
  if keeperRuns s && decide (5000000 < sinceNs s s.keeper.sampleAt) then setF .sns Sns.STATUS_STALE 1 s else s

def execSensorStale (s : State) : Outcome := .next (sensorStale s)

/-- A read of SNS_TIME captures the words of the same sample (R385). -/
def snsSnap (s : State) : State :=
  let fs := [Sns.TJ, Sns.TJ0, Sns.TJ1, Sns.TJ2, Sns.TJ3, Sns.VIN, Sns.VEXC, Sns.VIO, Sns.VCORE, Sns.AVDD, Sns.VREF, Sns.VAON,
    Sns.TMAX]
  let v := s.keeper.sample.toList
  (fs.zip v).foldl (fun s p => setF .sns p.1 p.2 s) s

/-! ### HP_ALIVE (R364) -/

/-- KEEPER_ALIVE_TICK: a multiple of 10 ms of network time has come. -/
def aliveTick (s : State) : State :=
  let now := s.time.now
  if keeperRuns s && justAt s 10000000 && now / 10000000 != s.keeper.aliveAt / 10000000 then
    setF .hp Hp.ALIVE_KCNT (getF s .hp Hp.ALIVE_KCNT + 1) (modKeeper (fun k => { k with aliveAt := now }) s)
  else s

def execKeeperAliveTick (s : State) : Outcome := .next (aliveTick s)

/-- ALIVE_MS_ADVANCE: a whole millisecond of TIME_SUB has come. -/
def aliveMs (s : State) : State :=
  let now := s.time.now
  if live s .hp && justAt s 1000000 && now / 1000000 != s.hp.msAt / 1000000 then
    setF .hp Hp.ALIVE_MS (getF s .hp Hp.ALIVE_MS + 1) { s with hp := { s.hp with msAt := now } }
  else s

def execAliveMsAdvance (s : State) : Outcome := .next (aliveMs s)

/-! ### PTP (R50, R378) -/

/-- The Keeper's PTP stack serves the port. -/
def ptpPort (s : State) (p : Fin 2) : Bool := fwRun s && bitAt s.keeper.ptpCfg[0] (8 + p.val) == 1

/-- clockClass of the grandmaster: 248 where the device is master itself, a port in MASTER (6) and none in SLAVE (9) (R50, log 147). -/
def gmClass (s : State) (cls : Nat) : Nat :=
  let p0 := getF s .mb Mb.KS_PTP_PS0
  let p1 := getF s .mb Mb.KS_PTP_PS1
  if (p0 = 6 ∨ p1 = 6) ∧ p0 ≠ 9 ∧ p1 ≠ 9 then 248 else cls

/-- PTP_MESSAGE_RECEIVED: what KS_PTP, KS_UTC and KS_OFFSET show of it; the row gives the port state that the best master clock
algorithm chooses, which the spec names and does not define (log 147). The servo acts through INCR_WRITE and TIME_ADJ. -/
def ptpMessage (m : PtpMsg) (s : State) : State :=
  match m with
  | .announce p st cls utcValid utc =>
    if ptpPort s p then
      let s := setF .mb (if p = 0 then Mb.KS_PTP_PS0 else Mb.KS_PTP_PS1) st.val s
      let s := setF .mb Mb.KS_PTP_GMCLASS (gmClass s cls.toNat) s
      let s := setF .mb Mb.KS_PTP_UTCV (bitOf utcValid) s
      if utcValid then setF .mb Mb.KS_UTC utc.toNat s else s
    else s
  | .offset p ns => if ptpPort s p then setI .mb Mb.KS_OFFSET (satS 32 ns) s else s
  | .management p set d =>
    if ptpPort s p then
      (if set then netAnswer p .ptpRefused s else if d = .other then s else netAnswer p (.ptpData d) s)
    else s
  | .other _ => s

def execPtpMessageReceived (m : PtpMsg) (s : State) : Outcome := .next (ptpMessage m s)

end Sys2Proof.Machine
end

