-- ==== Sys2Proof/Machine/Keeper.lean ====
section
/-!
DEFINITION. The mailbox and the Keeper's commands (R360, R361, R379–R381, R384, R387, R388, R391, R393–R397, R401, R402,
R411, R414, R415).
-/

namespace Sys2Proof.Machine

/-! ### Areas of the pool -/

/-- An area of the pool that a command names: a multiple of 16, inside the pool, clear of every enabled ring (R379, R380). -/
def poolOk (s : State) (off len : Nat) : Bool :=
  off % 16 == 0 && decide (off + len ≤ 0x80000) &&
  !(List.finRange 16).any (fun q => qEnabled s q && decide (off < 16 * (getF s (.q q) Q.BASE + ringLen s q))
    && decide (16 * getF s (.q q) Q.BASE < off + len))

def poolBytes (s : State) (off n : Nat) : List Byte := memBytes s (poolBase + off) n

/-- The Keeper's read of an area that `poolOk` accepts meets the ECC errors that wait in its words (R280). -/
def poolMeet (off n : Nat) (s : State) : State :=
  (s.ecc.filter (fun p => decide (poolBase + off ≤ p.1) && decide (p.1 < poolBase + off + n))).foldl
    (fun s p => eccMeet .qc p.1 s) s

/-- How a command ends: a result code with its words, or later (R379). -/
abbrev CmdRes := Option (Nat × List Nat) × State

def done (r : Nat) (ws : List Nat) (s : State) : CmdRes := (some (r, ws), s)
def ok (s : State) : CmdRes := done 0 [] s

/-! ### Device and settings (R380) -/

def cmdInfo (s : State) : CmdRes :=
  done 0 [storedWord s .mb 0x104, storedWord s .mb 0x108, Config.uid.toNat % 2 ^ 32, Config.uid.toNat / 2 ^ 32] s

def cmdSetMode (a : Nat → Nat) (s : State) : CmdRes :=
  match setModeCmd (a 0) (a 1) s with
  | (some r, s) => done r [] s
  | (none, s) => (none, s)

/-- HOLD_BEACON: from stage 5 on while the device is in BEACON (R411). -/
def cmdHoldBeacon (a : Nat → Nat) (s : State) : CmdRes :=
  if 1 < a 0 then done 2 [] s
  else if a 0 = 0 then ok (holdRelease s)
  else if 5 ≤ s.pwr.stage ∧ mode s = 3 then ok (modPwr (fun p => { p with hold := true }) s)
  else done 3 [] s

/-- The Keeper stores bytes in the boot flash after the erase of `n` bytes; whether erase, programming and read-back succeed is
free. Where they fail the bytes programmed are free, and an erase alone has left its area as it was (R379, log 5). -/
def flashStore (at_ n : Nat) (b : List Byte) (s : State) : Bool × State :=
  let k := s.free
  if Config.flashFails k then
    (false, freeNext (setFlashBytes at_ ((List.range b.length).map (Config.flashLeft k)) s))
  else (true, freeNext (setFlashBytes at_ b (eraseFlash at_ n s)))

/-- The result of a command that stores in the boot flash: FLASH where that fails (R379). -/
def flashDone (ws : List Nat) (r : Bool × State) : CmdRes := if r.1 then done 0 ws r.2 else done 5 [] r.2

def cmdBeaconSet (a : Nat → Nat) (s : State) : CmdRes :=
  let b := poolBytes s (a 0) 156
  if poolOk s (a 0) 156 = false then done 2 [] s
  else
  let s := poolMeet (a 0) 156 s
  if beaconMagic b = false then done 2 [] s
  else if beaconCrc b = false then done 7 [] s
  else flashDone [] (flashStore beaconAt 0x1000 b s)

def cmdTimeRole (a : Nat → Nat) (s : State) : CmdRes := ok (timeWrite .keeper 0x3C (wordOf (a 0)) s)

def cmdTimeSlew (a : Nat → Nat) (s : State) : CmdRes :=
  ok (timeWrite .keeper 0x30 (wordOf (a 1)) (timeWrite .keeper 0x2C (wordOf (a 0)) s))

/-- The intervals and the receipt timeout of PTP_SET lie in their ranges (R50, R380). -/
def ptpArgOk (v : Nat) : Bool :=
  let byte := fun (i : Nat) => toSigned 8 (bits v (8 * i + 7) (8 * i))
  decide (-7 ≤ byte 0 ∧ byte 0 ≤ 0) && decide (-7 ≤ byte 1 ∧ byte 1 ≤ 0) && decide (0 ≤ byte 2 ∧ byte 2 ≤ 3)
    && decide (2 ≤ byte 3 ∧ byte 3 ≤ 10)

/-- PTP_SET: a port that is disabled shows portState 0 (R378). -/
def cmdPtpSet (a : Nat → Nat) (s : State) : CmdRes :=
  if !ptpArgOk (a 1) then done 2 [] s
  else
    let s := modKeeper (fun k => { k with ptpCfg := #v[a 0, a 1, a 2] }) s
    let s := if bitAt (a 0) 8 = 1 then s else setF .mb Mb.KS_PTP_PS0 0 s
    ok (if bitAt (a 0) 9 = 1 then s else setF .mb Mb.KS_PTP_PS1 0 s)

def fin2 (n : Nat) : Fin 2 := ⟨n % 2, Nat.mod_lt _ (by decide)⟩

def cmdEthSet (a : Nat → Nat) (s : State) : CmdRes :=
  if 1 < a 0 then done 2 [] s
  else
    let p := fin2 (a 0)
    let put := fun (off i : Nat) (s : State) => ethWrite .keeper p off (wordOf (a i)) s
    ok (put 0x1C 5 (put 0x18 4 (put 0x10 3 (put 0xC 2 (put 0x8 1 s)))))

def cmdIpSet (a : Nat → Nat) (s : State) : CmdRes :=
  if 1 < a 0 then done 2 [] s
  else ok (modEth (fin2 (a 0)) (fun e => { e with ip := a 1, mask := a 2, gateway := a 3 }) s)

/-- The device forgets its peers: their lost conditions end. -/
def peersForget (s : State) : State :=
  let lost := s.enven.peers.filter (·.lost)
  let s := lost.foldl (fun s p => alarmGone 0x0F01 (peerSrc p.node p.chip) s) s
  modEnven (fun e => { e with peers := [], recent := [] }) s

/-- ENVEN_SET: a change of group, or disabling, starts with no peers (log 98). -/
def cmdEnvenSet (a : Nat → Nat) (s : State) : CmdRes :=
  if a 4 < 10 ∨ 1000 < a 4 then done 2 [] s
  else
    let g := a 0 % 2 ^ 16
    let on := bitAt (a 7) 0 == 1
    let s := if g ≠ s.enven.group ∨ on = false then peersForget s else s
    let s := modEnven (fun e => { e with
      on := on, group := g, node := a 1 % 2 ^ 16, chip := bits (a 1) 17 16, port := a 2, mcast := a 3, interval := a 4,
      fwd := a 5 % 2 ^ 16, rxQ := a 6 % 16 }) s
    ok (levelUpdate s)

def cmdTraceCap (a : Nat → Nat) (s : State) : CmdRes := ok (modKeeper (fun k => { k with traceCap := a 0 }) s)

/-- SENSOR_SET (R384). -/
def cmdSensorSet (a : Nat → Nat) (s : State) : CmdRes :=
  let lo := a 1
  let hi := a 2
  if hi < lo then done 2 [] s
  else if a 0 = 0 then
    (if 1360 ≤ lo ∧ lo ≤ 2000 ∧ 1600 ≤ hi ∧ hi ≤ 2080 then ok (modKeeper (fun k => { k with tLo := lo, tHi := hi }) s)
     else done 2 [] s)
  else if a 0 = 1 then
    (if 5500 ≤ lo ∧ lo ≤ 40000 ∧ 6000 ≤ hi ∧ hi ≤ 44000 then ok (modKeeper (fun k => { k with vLo := lo, vHi := hi }) s)
     else done 2 [] s)
  else done 2 [] s

/-! ### Lens records and the incident log (R164, R387, R388) -/

def lensSector (n : Nat) : Nat := 0x20000 + n * 0x1000

/-- The record of R164. -/
def lensRecord (s : State) (n : Fin 16) : List Byte :=
  let body := List.flatten ([wordBytes (getF s (.lens n) Lens.ID), wordBytes (getF s (.lens n) Lens.CTRL_PP + 2 ^ 8),
    wordBytes (getF s (.lens n) Lens.MZERO), wordBytes (storedWord s (.lens n) Lens.H1C.off),
    wordBytes (storedWord s (.lens n) Lens.H1S.off), wordBytes (storedWord s (.lens n) Lens.H2C.off),
    wordBytes (storedWord s (.lens n) Lens.H2S.off)] ++ (List.range 256).map (fun i => wordBytes (tableWord s n i).toNat)
    ++ [wordBytes (s.lens[n]).frA])
  body ++ wordBytes (crc32 body)

def cmdLensSave (a : Nat → Nat) (s : State) : CmdRes :=
  if 15 < a 0 then done 2 [] s
  else
    let s := lensBankMeet (fin16 (a 0)) s
    let r := lensRecord s (fin16 (a 0))
    flashDone [listWord r 0x420] (flashStore (lensSector (a 0)) 0x1000 r s)

/-- Bytes written to the pool. -/
def setPool (off : Nat) (b : List Byte) (s : State) : State := loadBytes (poolBase + off) b s

def cmdLensLoad (a : Nat → Nat) (s : State) : CmdRes :=
  if 15 < a 0 ∨ poolOk s (a 1) 1060 = false then done 2 [] s
  else
    let b := flashBytes s (lensSector (a 0)) 1060
    if crc32 (b.take 0x420) ≠ listWord b 0x420 then done 11 [] s
    else done 0 [listWord b 0] (setPool (a 1) b s)

/-- The number of the incident in a sector of the log, where one stands there (R388). -/
def logNumber (s : State) (i : Nat) : Option Nat :=
  let a := 0x900000 + i * 0x1000
  if flashWord s a = 0x494E4344 ∧ flashWord s (a + 0x38) = crc32 (flashBytes s a 0x38) then some (flashWord s (a + 4)) else none

def logNumbers (s : State) : List Nat := (List.range 1792).filterMap (logNumber s)

def cmdLogInfo (s : State) : CmdRes :=
  let l := logNumbers s
  match l with
  | [] => done 0 [0, 0, 0] s
  | n :: t => done 0 [l.length, t.foldl min n, t.foldl max n] s

def cmdLogRead (a : Nat → Nat) (s : State) : CmdRes :=
  if poolOk s (a 1) 0x840 = false then done 2 [] s
  else if (List.range 1792).any (fun i => logNumber s i == some (a 0)) = false then done 11 [] s
  else done 0 [0x840] (setPool (a 1) (flashBytes s (incSector (a 0)) 0x840) s)

def cmdLogErase (s : State) : CmdRes :=
  if flag s .mb Mb.KS_DBG_LOGERASE then flashDone [] (flashStore 0x900000 0x700000 [] s) else done 4 [] s

/-! ### Tender (R392–R397) -/

/-- A Tender command ends: the last result is kept. -/
def tndDone (r : Nat) (ws : List Nat) (s : State) : CmdRes := done r ws (modKeeper (fun k => { k with lastRes := r }) s)

def cmdTndBegin (a : Nat → Nat) (s : State) : CmdRes :=
  let i := inactiveSlot s
  if slotSize < a 0 then tndDone 2 [] s
  else if slotState s i = 1 then tndDone 3 [] s
  else
    match flashStore (slotBase i) slotSize [] (schedCancel s) with
    | (true, s) => tndDone 0 [] (slotTo i 1 (modKeeper (fun k => { k with imgLen := a 0 }) s))
    | (false, s) => tndDone 5 [] s

def cmdTndWrite (a : Nat → Nat) (s : State) : CmdRes :=
  let i := inactiveSlot s
  let len := a 2
  if slotState s i ≠ 1 then tndDone 3 [] s
  else if len % 16 ≠ 0 ∨ 65536 < len ∨ slotSize < a 0 + len ∨ poolOk s (a 1) len = false then tndDone 2 [] s
  else
    let b := poolBytes s (a 1) len
    let s := poolMeet (a 1) len s
    if crc32 b ≠ a 3 then tndDone 7 [] s
    else match flashStore (slotBase i + a 0) 0 b s with
    | (true, s) => tndDone 0 [] s
    | (false, s) => tndDone 5 [] s

def cmdTndVerify (s : State) : CmdRes :=
  let i := inactiveSlot s
  if slotState s i ≠ 1 then tndDone 3 [] s
  else match imgCheck s i s.keeper.imgLen with
  | none => tndDone 0 [imgLevel s i, imgVersion s i] (slotTo i 2 (modKeeper (fun k => { k with failCheck := 0 }) s))
  | some n => tndDone (if n = 3 then 8 else 6) [] (slotTo i 3 (modKeeper (fun k => { k with failCheck := n }) s))

def cmdTndSchedule (a : Nat → Nat) (s : State) : CmdRes :=
  if 2 ^ 16 ≤ a 1 ∨ 1000000000 ≤ a 2 ∨ 60 < a 4 then tndDone 2 [] s
  else
    let t := (a 0 + a 1 * 2 ^ 32) * 1000000000 + a 2
    let strict := bitAt (a 3) 1 == 1
    let (r, n, s) := schedule t strict (a 4) (schedCancel s)
    if r ≠ 0 then tndDone r [] s
    else tndDone 0 [n] (if bitAt (a 3) 0 = 1 then activateSend t strict false (a 4) s else s)

/-- TND_CANCEL: the message with CANCEL set is that of the schedule (R397), of zeros where there is none (log 108). -/
def cmdTndCancel (a : Nat → Nat) (s : State) : CmdRes :=
  let c : Sched := s.keeper.sched.getD { target := 0, strict := false, lateMax := 0, slot := 0 }
  let s := schedCancel s
  tndDone 0 [] (if bitAt (a 0) 0 = 1 then activateSend c.target c.strict true c.lateMax s else s)

def cmdTndConfirm (s : State) : CmdRes :=
  match activeSlot s with
  | some i =>
    if slotState s i = 4 then tndDone 0 [] (handKept (slotTo i 5 (setTrial false s))) else tndDone 3 [] s
  | none => tndDone 3 [] s

def cmdTndStatus (s : State) : CmdRes :=
  let k := s.keeper
  done 0 [k.slotA + k.slotB * 2 ^ 8, k.lastRes, k.failCheck, k.lastLate, k.acks] s

def cmdTndSwitch (s : State) : CmdRes :=
  let i := inactiveSlot s
  if slotState s i ≠ 2 then tndDone 3 [] s
  else
    let s := tenderActivate i (schedCancel s)
    done s.keeper.lastRes [] s

/-! ### Keys and debug authentication (R391, R401, R402) -/

def cmdKeyFuse (a : Nat → Nat) (s : State) : CmdRes :=
  if 3 < a 0 ∨ poolOk s (a 1) 64 = false then done 2 [] s
  else
    let i := fin4 (a 0)
    if (s.keeper.keys[i]).isSome then done 3 [] s
    else
      let h := Config.sha256 (poolBytes s (a 1) 64)
      let s := poolMeet (a 1) 64 s
      ok (modKeeper (fun k => { k with keys := k.keys.set i (some (h, false)) }) s)

/-- Fused slots that are not revoked. -/
def keysLeft (s : State) : List (BitVec 256) :=
  s.keeper.keys.toList.filterMap (fun k => match k with | some (h, false) => some h | _ => none)

def cmdKeyRevoke (a : Nat → Nat) (s : State) : CmdRes :=
  if 3 < a 0 then done 2 [] s
  else
    let i := fin4 (a 0)
    match s.keeper.keys[i] with
    | some (h, false) =>
      if (keysLeft s).length ≤ 1 then done 3 [] s
      else ok (modKeeper (fun k => { k with keys := k.keys.set i (some (h, true)) }) s)
    | _ => done 3 [] s

/-- KS_DBG follows the strap and the grant (R378, R401). -/
def grantShow (s : State) : State :=
  let strap := flag s .mb Mb.KS_STATE_DBGSTRAP
  let g := s.keeper.grant
  let left := if g = 0 then (if strap then 0xFFFF else 0)
    else match s.keeper.grantLeft with | none => 0xFFFF | some n => min 0xFFFE n
  setF .mb Mb.KS_DBG_REMAIN left (setF .mb Mb.KS_DBG_LOGERASE (bitAt g 2)
    (setF .mb Mb.KS_DBG_DAP (max (bitOf strap) (bitAt g 1)) (setF .mb Mb.KS_DBG_FREEZE (max (bitOf strap) (bitAt g 0)) s)))

/-- A grant of rights for a time; none for until reset. -/
def setGrant (g : Nat) (left : Option Nat) (s : State) : State :=
  let now := s.elapsed
  grantShow (modKeeper (fun k => { k with grant := g, grantLeft := left, grantAt := now }) s)

/-- Whole seconds of the grant that have passed (R401). -/
def grantCount (s : State) : State :=
  let n := (s.elapsed - s.keeper.grantAt) / secUnits
  if s.keeper.grant ≠ 0 ∧ n ≠ 0 then
    grantShow (modKeeper (fun k => { k with grantAt := k.grantAt + n * secUnits, grantLeft := k.grantLeft.map (· - n) }) s)
  else s

/-- Words of a nonce, the first four bytes in the first. -/
def nonceWords (n : BitVec 256) : List Nat := (List.range 8).map (fun i => n.toNat / 2 ^ (32 * i) % 2 ^ 32)

def cmdDbgChallenge (s : State) : CmdRes :=
  if s.keeper.lockAt.isSome then done 4 [] s
  else
    let n := BitVec.ofNat 256 (freeVal s)
    let now := s.elapsed
    done 0 (nonceWords n) (modKeeper (fun k => { k with nonce := some (n, now) }) (freeNext s))

/-- What a response signs (R402). -/
def dbgMessage (n : BitVec 256) (a : Nat → Nat) : List Byte :=
  List.flatten [(nonceWords n).flatMap wordBytes, wordBytes (Config.uid.toNat % 2 ^ 32), wordBytes (Config.uid.toNat / 2 ^ 32),
    wordBytes (a 0), wordBytes (a 2)]

/-- The response is accepted. -/
def dbgAccepted (s : State) (a : Nat → Nat) : Bool :=
  match s.keeper.nonce with
  | some (n, t) =>
    decide (sinceNs s t ≤ 60000000000) &&
      (keysLeft s).any (fun h => Config.p256VerifyHash h (Config.sha256 (dbgMessage n a)) (poolBytes s (a 1) 64))
  | none => false

def cmdDbgResponse (a : Nat → Nat) (s : State) : CmdRes :=
  if 7 < a 0 ∨ poolOk s (a 1) 64 = false then done 2 [] s
  else
    let good := dbgAccepted s a
    let s := poolMeet (a 1) 64 s
    let s := modKeeper (fun k => { k with nonce := none }) s
    if good then
      ok (setGrant (a 0) (if a 2 = 0 then none else some (a 2)) (modKeeper (fun k => { k with failures := 0 }) s))
    else
      let now := s.elapsed
      let s := modKeeper (fun k => if k.failures + 1 < 3 then { k with failures := k.failures + 1 }
        else { k with failures := 0, lockAt := some now }) s
      done 4 [] (raiseAlarm 0x0E20 mbSrc 0 false s)

def cmdDbgLock (s : State) : CmdRes := ok (setGrant 0 (some 0) s)

/-- DEBUG_GRANT_EXPIRY. -/
def grantExpiry (s : State) : State :=
  if keeperRuns s && s.keeper.grant != 0 && s.keeper.grantLeft == some 0 then setGrant 0 (some 0) s else s

def execDebugGrantExpiry (s : State) : Outcome := .next (grantExpiry s)

/-- DBG_LOCKOUT_END: 60 s after the third failure. -/
def lockoutEnd (s : State) : State :=
  match s.keeper.lockAt with
  | some t => if keeperRuns s && decide (60000000000 ≤ sinceNs s t) then modKeeper (fun k => { k with lockAt := none }) s else s
  | none => s

def execDbgLockoutEnd (s : State) : Outcome := .next (lockoutEnd s)

/-! ### The command table (R377, R380) -/

/-- Commands that ROM code answers. -/
def romCommand (c : Nat) : Bool :=
  [0x01, 0x03, 0x04, 0x60, 0x61, 0x62, 0x66, 0x67, 0x80, 0x81, 0x82].contains c

/-- A command with its arguments. -/
def command (c : Nat) (a : Nat → Nat) (s : State) : CmdRes :=
  if !fwRun s && !romCommand c then done 1 [] s
  else match c with
  | 0x01 => cmdInfo s
  | 0x02 => cmdSetMode a s
  | 0x03 => cmdHoldBeacon a s
  | 0x04 => cmdBeaconSet a s
  | 0x10 => cmdTimeRole a s
  | 0x11 => cmdTimeSlew a s
  | 0x12 => cmdPtpSet a s
  | 0x20 => cmdEthSet a s
  | 0x21 => cmdIpSet a s
  | 0x22 => cmdEnvenSet a s
  | 0x23 => cmdTraceCap a s
  | 0x30 => cmdSensorSet a s
  | 0x40 => cmdLensSave a s
  | 0x41 => cmdLensLoad a s
  | 0x50 => cmdLogInfo s
  | 0x51 => cmdLogRead a s
  | 0x52 => cmdLogErase s
  | 0x60 => cmdTndBegin a s
  | 0x61 => cmdTndWrite a s
  | 0x62 => cmdTndVerify s
  | 0x63 => cmdTndSchedule a s
  | 0x64 => cmdTndCancel a s
  | 0x65 => cmdTndConfirm s
  | 0x66 => cmdTndStatus s
  | 0x67 => cmdTndSwitch s
  | 0x70 => cmdKeyFuse a s
  | 0x71 => cmdKeyRevoke a s
  | 0x80 => cmdDbgChallenge s
  | 0x81 => cmdDbgResponse a s
  | 0x82 => cmdDbgLock s
  | _ => done 1 [] s

/-! ### The mailbox (R361) -/

def modHp (f : HpSt → HpSt) (s : State) : State := { s with hp := f s.hp }

/-- The arguments: beyond NARG they read 0 (R381). -/
def mbArgs (s : State) (narg : Nat) (i : Nat) : Nat := if i < min narg 14 then getF s .mb (Mb.ARG i) else 0

/-- A write of MB_GO. -/
def mbGo (w : Word) (s : State) : State :=
  let st := getF s .mb Mb.STATE_STATE
  if st = 1 then raiseF .mb Mb.STATUS_GOREJ s
  else
    let seq := fieldOf w Mb.GO_SEQ
    let s := setF .mb Mb.STATE_STATE 1 (raiseIf (st == 2) .mb Mb.STATUS_UNCONS s)
    match command (fieldOf w Mb.GO_CMD) (mbArgs s (fieldOf w Mb.GO_NARG)) s with
    | (some (r, ws), s) => modHp (fun h => { h with mbRes := some (seq, r, ws.map wordOf) }) s
    | (none, s) => modHp (fun h => { h with mbMode := some seq }) s

/-- A write of MB_CONSUME. -/
def mbConsume (w : Word) (s : State) : State :=
  let st := getF s .mb Mb.STATE_STATE
  if fieldOf w Mb.CONSUME_CONSUME = 0 ∨ st = 0 then s
  else if st = 2 ∧ fieldOf w Mb.CONSUME_SEQ = getF s .mb Mb.STATE_SEQ then setF .mb Mb.STATE_STATE 3 s
  else raiseF .mb Mb.STATUS_CONSREJ s

def mbStore (off : Nat) (w : Word) (s : State) : State :=
  if off = 0x40 then mbGo w s else if off = 0xBC then mbConsume w s else storeFields .mb off w s

def mbWrite (ag : Agent) (off : Nat) (w : Word) (s : State) : State := judgedWrite ag .mb off w (mbStore off w) s

def execMbConsume (ag : Agent) (w : Word) (s : State) : Outcome := .next (mbWrite ag 0xBC w s)

/-- MAILBOX_COMPLETE: the new result, its SEQ and READY become readable together. -/
def mbComplete (s : State) : State :=
  match s.hp.mbRes with
  | some (q, r, ws) =>
    if keeperRuns s then
      let s := modHp (fun h => { h with mbRes := none, mbWords := ws }) s
      setF .mb Mb.STATE_STATE 2 (setF .mb Mb.STATE_RESULT r (setF .mb Mb.STATE_SEQ q (setF .mb Mb.STATE_NRES ws.length s)))
    else s
  | none => s

def execMailboxComplete (s : State) : Outcome := .next (mbComplete s)

/-- A read of MB_STATE captures the words of the same result (R360). -/
def mbSnap (s : State) : State :=
  let ws := s.hp.mbWords
  forAll (List.range 14) (fun i s => setF .mb (Mb.RES i) (ws.getD i 0).toNat s) s

/-- A write of MB_GO with a command, its tag and its number of arguments (R360). -/
def mbCommand (ag : Agent) (cmd : Nat) (seq : BitVec 8) (narg : BitVec 4) (s : State) : State :=
  mbWrite ag 0x40 (wordOf (cmd * 2 ^ 16 + seq.toNat * 2 ^ 8 + narg.toNat)) s

def execInfo (ag : Agent) (seq : BitVec 8) (narg : BitVec 4) (s : State) : Outcome := .next (mbCommand ag 0x01 seq narg s)
def execSetMode (ag : Agent) (seq : BitVec 8) (narg : BitVec 4) (s : State) : Outcome := .next (mbCommand ag 0x02 seq narg s)
def execHoldBeacon (ag : Agent) (seq : BitVec 8) (narg : BitVec 4) (s : State) : Outcome := .next (mbCommand ag 0x03 seq narg s)
def execBeaconSet (ag : Agent) (seq : BitVec 8) (narg : BitVec 4) (s : State) : Outcome := .next (mbCommand ag 0x04 seq narg s)
def execTimeRole (ag : Agent) (seq : BitVec 8) (narg : BitVec 4) (s : State) : Outcome := .next (mbCommand ag 0x10 seq narg s)
def execTimeSlew (ag : Agent) (seq : BitVec 8) (narg : BitVec 4) (s : State) : Outcome := .next (mbCommand ag 0x11 seq narg s)
def execPtpSet (ag : Agent) (seq : BitVec 8) (narg : BitVec 4) (s : State) : Outcome := .next (mbCommand ag 0x12 seq narg s)
def execEthSet (ag : Agent) (seq : BitVec 8) (narg : BitVec 4) (s : State) : Outcome := .next (mbCommand ag 0x20 seq narg s)
def execIpSet (ag : Agent) (seq : BitVec 8) (narg : BitVec 4) (s : State) : Outcome := .next (mbCommand ag 0x21 seq narg s)
def execEnvenSet (ag : Agent) (seq : BitVec 8) (narg : BitVec 4) (s : State) : Outcome := .next (mbCommand ag 0x22 seq narg s)
def execTraceCap (ag : Agent) (seq : BitVec 8) (narg : BitVec 4) (s : State) : Outcome := .next (mbCommand ag 0x23 seq narg s)
def execSensorSet (ag : Agent) (seq : BitVec 8) (narg : BitVec 4) (s : State) : Outcome := .next (mbCommand ag 0x30 seq narg s)
def execLensSave (ag : Agent) (seq : BitVec 8) (narg : BitVec 4) (s : State) : Outcome := .next (mbCommand ag 0x40 seq narg s)
def execLensLoad (ag : Agent) (seq : BitVec 8) (narg : BitVec 4) (s : State) : Outcome := .next (mbCommand ag 0x41 seq narg s)
def execLogInfo (ag : Agent) (seq : BitVec 8) (narg : BitVec 4) (s : State) : Outcome := .next (mbCommand ag 0x50 seq narg s)
def execLogRead (ag : Agent) (seq : BitVec 8) (narg : BitVec 4) (s : State) : Outcome := .next (mbCommand ag 0x51 seq narg s)
def execLogErase (ag : Agent) (seq : BitVec 8) (narg : BitVec 4) (s : State) : Outcome := .next (mbCommand ag 0x52 seq narg s)
def execTndBegin (ag : Agent) (seq : BitVec 8) (narg : BitVec 4) (s : State) : Outcome := .next (mbCommand ag 0x60 seq narg s)
def execTndWrite (ag : Agent) (seq : BitVec 8) (narg : BitVec 4) (s : State) : Outcome := .next (mbCommand ag 0x61 seq narg s)
def execTndVerify (ag : Agent) (seq : BitVec 8) (narg : BitVec 4) (s : State) : Outcome := .next (mbCommand ag 0x62 seq narg s)
def execTndSchedule (ag : Agent) (seq : BitVec 8) (narg : BitVec 4) (s : State) : Outcome := .next (mbCommand ag 0x63 seq narg s)
def execTndCancel (ag : Agent) (seq : BitVec 8) (narg : BitVec 4) (s : State) : Outcome := .next (mbCommand ag 0x64 seq narg s)
def execTndConfirm (ag : Agent) (seq : BitVec 8) (narg : BitVec 4) (s : State) : Outcome := .next (mbCommand ag 0x65 seq narg s)
def execTndStatus (ag : Agent) (seq : BitVec 8) (narg : BitVec 4) (s : State) : Outcome := .next (mbCommand ag 0x66 seq narg s)
def execTndSwitch (ag : Agent) (seq : BitVec 8) (narg : BitVec 4) (s : State) : Outcome := .next (mbCommand ag 0x67 seq narg s)
def execKeyFuse (ag : Agent) (seq : BitVec 8) (narg : BitVec 4) (s : State) : Outcome := .next (mbCommand ag 0x70 seq narg s)
def execKeyRevoke (ag : Agent) (seq : BitVec 8) (narg : BitVec 4) (s : State) : Outcome := .next (mbCommand ag 0x71 seq narg s)
def execDbgChallenge (ag : Agent) (seq : BitVec 8) (narg : BitVec 4) (s : State) : Outcome := .next (mbCommand ag 0x80 seq narg s)
def execDbgResponse (ag : Agent) (seq : BitVec 8) (narg : BitVec 4) (s : State) : Outcome := .next (mbCommand ag 0x81 seq narg s)
def execDbgLock (ag : Agent) (seq : BitVec 8) (narg : BitVec 4) (s : State) : Outcome := .next (mbCommand ag 0x82 seq narg s)

end Sys2Proof.Machine
end

