-- ==== Sys2Proof/Machine/Bus.lean ====
section
/-!
DEFINITION. A word read or written at an address by an agent (R7–R10, R13, R21, R26–R28, R279, R294, R322, R326, R333, R345,
R363, R375, R376), the reads that capture other registers, and the queues' registers.
-/

namespace Sys2Proof.Machine

/-- How an access ends, for the requester (R61, R288, R355, R357). -/
inductive BusRes where
  | ok
  /-- the address names no register (R376) -/
  | unmapped
  /-- a write ignored, in whole or in an RWO field, under R8 -/
  | rejected
  /-- a queue push refused (R326) -/
  | refused
  /-- an isolated block, or a region under reset -/
  | isolated
  /-- the device is frozen or in DORMANT: no access is made -/
  | asleep
  deriving DecidableEq, Repr

def Verdict.res : Verdict → BusRes
  | .ok => .ok
  | .runw | .own => .rejected
  | .iso | .reset => .isolated
  | .asleep => .asleep

/-! ### Registers that accept writes from every agent (R326, R333, R345, R363) -/

/-- The judgement of a write that needs no owner. -/
def openVerdict (b : Blk) (s : State) : Verdict :=
  if !awake s then .asleep else if underReset s b then .reset else if isolated s b then .iso else .ok

/-- Such a write. -/
def openWrite (ag : Agent) (b : Blk) (off : Nat) (store : State → State) (s : State) : State :=
  match openVerdict b s with
  | .ok => store s
  | .reset => resetWrite ag b off s
  | .iso => blkErr b .iso ag.code off s
  | _ => s

/-- Index of an agent's own copies. -/
def agentIx (ag : Agent) : Fin 16 := fin16 ag.code

/-- A word of the agent's staging entry of queue `q` (R326); each agent's entry serves every queue (log 99). -/
def stagePut (ag : Agent) (i : Nat) (w : Word) (s : State) : State :=
  let e := s.staging[agentIx ag]
  let e' : QEntry := match i with
    | 0 => { e with w0 := w } | 1 => { e with w1 := w } | 2 => { e with w2 := w } | _ => { e with w3 := w }
  { s with staging := s.staging.set (agentIx ag) e' }

/-- A write of Q_PUSH0 to Q_PUSH3: the last one commits the entry. -/
def pushStore (ag : Agent) (q : Fin 16) (i : Nat) (w : Word) (s : State) : State :=
  let s := stagePut ag i w s
  if i = 3 then (softWrite ag q (s.staging[agentIx ag]) s).2 else s

def pushWrite (ag : Agent) (q : Fin 16) (i : Nat) (w : Word) (s : State) : State :=
  openWrite ag (.q q) (0x50 + 4 * i) (pushStore ag q i w) s

/-- How a write of Q_PUSHi ends. -/
def pushRes (ag : Agent) (q : Fin 16) (i : Nat) (w : Word) (s : State) : BusRes :=
  match (openVerdict (.q q) s).res with
  | .ok =>
    if i = 3 then
      let s := stagePut ag i w s
      (match (softWrite ag q (s.staging[agentIx ag]) s).1 with | .refused => .refused | _ => .ok)
    else .ok
  | r => r

def execQueuePush (ag : Agent) (q : Fin 16) (w : Word) (s : State) : Outcome := .next (pushWrite ag q 3 w s)

/-- QC_FENCE_SRC and QC_FENCE_CMD (R333, R339). -/
def fenceStore (ag : Agent) (off : Nat) (w : Word) (s : State) : State :=
  if off = 0x8 then { s with fenceSrc := s.fenceSrc.set (agentIx ag) w }
  else fenceRequest ag.code (s.fenceSrc[agentIx ag]).toNat (fieldOf w Qc.FENCE_CMD_ID) (fieldOf w Qc.FENCE_CMD_TARGETS) s

def qcWrite (ag : Agent) (off : Nat) (w : Word) (s : State) : State :=
  if off = 0x8 ∨ off = 0xC then openWrite ag .qc off (fenceStore ag off w) s
  else judgedWrite ag .qc off w (storeFields .qc off w) s

def execFenceCmd (ag : Agent) (w : Word) (s : State) : Outcome := .next (qcWrite ag 0xC w s)

/-- HP_IRQ_SET (R363). -/
def irqSet (ag : Agent) (w : Word) (s : State) : State :=
  if fieldOf w Hp.IRQ_SET = 1 then setF .hp Hp.IRQ_STATUS_SWIAG ag.code (raiseF .hp Hp.IRQ_STATUS_SWI s) else s

def hpWrite (ag : Agent) (off : Nat) (w : Word) (s : State) : State :=
  if off = 0x1C then openWrite ag .hp off (irqSet ag w) s else judgedWrite ag .hp off w (storeFields .hp off w) s

def execHostSwi (ag : Agent) (w : Word) (s : State) : Outcome := .next (hpWrite ag 0x1C w s)

/-! ### Registers of a queue (R322, R330–R332) -/

/-- A write of Q_CFG: EN written 1 enables, written 0 disables. -/
def qCfgStore (q : Fin 16) (w : Word) (s : State) : State :=
  let run := running s (.q q)
  let s := forAll [Q.CFG_WRMASK, Q.CFG_CLASS, Q.CFG_POLICY] (storeField run (.q q) w) s
  if fieldOf w Q.CFG_EN = 1 then (if run then s else queueEnable q s) else setF (.q q) Q.CFG_EN 0 s

def qStore (q : Fin 16) (off : Nat) (w : Word) (s : State) : State :=
  if off = 0x8 then qCfgStore q w s
  else if off = 0x10 then queueLenWrite q (Q.LEN.fit (fieldOf w Q.LEN)) s
  else if off = 0x28 then
    let s := if fieldOf w Q.CMD_FLUSH = 1 then queueFlush q s else s
    if fieldOf w Q.CMD_CNTCLR = 1 then queueCountClear q s else s
  else storeFields (.q q) off w s

def qWrite (ag : Agent) (q : Fin 16) (off : Nat) (w : Word) (s : State) : State :=
  if 0x50 ≤ off ∧ off < 0x60 then pushWrite ag q ((off - 0x50) / 4) w s
  else judgedWrite ag (.q q) off w (qStore q off w) s

def execQueueEnable (ag : Agent) (q : Fin 16) (w : Word) (s : State) : Outcome := .next (qWrite ag q 0x8 w s)
def execQueueLenWrite (ag : Agent) (q : Fin 16) (w : Word) (s : State) : Outcome := .next (qWrite ag q 0x10 w s)
def execQueueFlush (ag : Agent) (q : Fin 16) (w : Word) (s : State) : Outcome := .next (qWrite ag q 0x28 w s)
def execQueueCountClear (ag : Agent) (q : Fin 16) (w : Word) (s : State) : Outcome := .next (qWrite ag q 0x28 w s)
def execQueuePop (ag : Agent) (q : Fin 16) (s : State) : Outcome := .next (queuePop ag q s)

/-- QUEUE_LEN_COMMIT: the write pointer has passed index 0. -/
def execQueueLenCommit (q : Fin 16) (s : State) : Outcome := .next (if live s (.q q) then lenCommit q s else s)

/-- RECORD_POST and FENCE_PLACE: the controller processes. -/
def execRecordPost (s : State) : Outcome :=
  .next (if live s .qc then recordPost s else s)
def execFencePlace (s : State) : Outcome := .next (if live s .qc then fencePlace s else s)

/-! ### A write to a register -/

/-- A write to a register of a block, beside BLK_CTRL. -/
def blkWrite (ag : Agent) (b : Blk) (off : Nat) (w : Word) (s : State) : State :=
  match b with
  | .rc n => rcWrite ag n off w s
  | .lens n => lensWrite ag n off w s
  | .ai n => aiWrite ag n off w s
  | .lp n => lpWrite ag n off w s
  | .lpe => lpeWrite ag off w s
  | .ax n => axWrite ag n off w s
  | .rs n => rsWrite ag n off w s
  | .cap => capWrite ag off w s
  | .inj n => injWrite ag n off w s
  | .le n => leWrite ag n off w s
  | .qc => qcWrite ag off w s
  | .q n => qWrite ag n off w s
  | .em n => emWrite ag n off w s
  | .sec n => secWrite ag n off w s
  | .ao n => aoWrite ag n off w s
  | .exg n => exgWrite ag n off w s
  | .lu n => luWrite ag n off w s
  | .chip => chipWrite ag off w s
  | .time => timeWrite ag off w s
  | .slot n => slotWrite ag n off w s
  | .eth n => ethWrite ag n off w s
  | .hp => hpWrite ag off w s
  | .mb => mbWrite ag off w s
  | .evc => evcWrite ag off w s
  | .ec => ecWrite ag off w s
  | .fe => judgedWrite ag .fe off w (storeFields .fe off w) s
  | .pt n => judgedWrite ag (.pt n) off w (storeFields (.pt n) off w) s
  | .lc => judgedWrite ag .lc off w (storeFields .lc off w) s
  | .pwr => judgedWrite ag .pwr off w (storeFields .pwr off w) s
  | .sns => judgedWrite ag .sns off w (storeFields .sns off w) s

/-- A write to a register of a block. -/
def regWrite (ag : Agent) (b : Blk) (off : Nat) (w : Word) (s : State) : State :=
  if off = 0 then blkCtrlWrite ag b w s else blkWrite ag b off w s

/-- How a write to BLK_CTRL ends: the owner's reaches an isolated block too. -/
def ctrlRes (ag : Agent) (b : Blk) (s : State) : BusRes :=
  if !awake s then .asleep else if underReset s b then .isolated
  else if ag.code ≠ owner s b then (if isolated s b then .isolated else .rejected) else .ok

/-- How a write to a register ends. -/
def regRes (ag : Agent) (b : Blk) (off : Nat) (w : Word) (s : State) : BusRes :=
  if off = 0 then ctrlRes ag b s
  else match b with
  | .q n => if 0x50 ≤ off ∧ off < 0x60 then pushRes ag n ((off - 0x50) / 4) w s else (judge ag (.q n) off w s).res
  | .qc => if off = 0x8 ∨ off = 0xC then (openVerdict .qc s).res else (judge ag .qc off w s).res
  | .hp => if off = 0x1C then (openVerdict .hp s).res else (judge ag .hp off w s).res
  | .ec =>
    if off = 0x80C then (openVerdict .ec s).res
    else if off = 0x808 then (if !awake s then .asleep else if ag = .keeper then .ok else .rejected)
    else (judge ag .ec off w s).res
  | b => (judge ag b off w s).res

/-! ### Memory windows -/

/-- A write to the pool: open to every agent, but for the rings of enabled queues, which are judged as a write to the queue's
block (R27, R28, R322). -/
def poolWrite (ag : Agent) (off : Nat) (w : Word) (s : State) : State :=
  if !awake s then s
  else match ringAt s off with
  | some (q, b) =>
    if regionReset s .control then resetWrite ag (.q q) (off - b) s
    else blkErr (.q q) (if isolated s (.q q) then .iso else .own) ag.code (off - b) s
  | none => if regionReset s .control then s else setWord (poolBase + off) w s

def poolRes (off : Nat) (s : State) : BusRes :=
  if !awake s then .asleep else if regionReset s .control then .isolated
  else match ringAt s off with
  | some (q, _) => if isolated s (.q q) then .isolated else .rejected
  | none => .ok

/-- A write to an applied table (R166): its fields are RWO; those of the candidate table are RO. -/
def tabVerdict (ag : Agent) (n : Fin 16) (cand changes : Bool) (s : State) : Verdict :=
  if !awake s then .asleep
  else if underReset s (.lens n) then .reset
  else if isolated s (.lens n) then .iso
  else if ag.code ≠ owner s (.lens n) then .own
  else if running s (.lens n) && changes && !cand then .runw
  else .ok

def tabWrite (ag : Agent) (n : Fin 16) (cand : Bool) (i : Nat) (w : Word) (s : State) : State :=
  let a := lensBase n cand + 4 * i
  match tabVerdict ag n cand (memWord s a != w) s with
  | .asleep => s
  | .reset => resetWrite ag (.lens n) (4 * i) s
  | .iso => blkErr (.lens n) .iso ag.code (4 * i) s
  | .own => blkErr (.lens n) .own ag.code (4 * i) s
  | .runw => blkErr (.lens n) .runw ag.code (4 * i) s
  | .ok => if cand then s else modLens n (fun x => { x with zeroed := x.zeroed.filter (· != i) }) (setWord a w s)

/-- A write to the capture memory: only the unit writes it (R257, log 100). -/
def capMemWrite (ag : Agent) (off : Nat) (s : State) : State :=
  match openVerdict .cap s with
  | .ok => blkErr .cap .own ag.code off s
  | .reset => resetWrite ag .cap off s
  | .iso => blkErr .cap .iso ag.code off s
  | _ => s

/-! ### The bus -/

/-- A word written at an address by an agent. -/
def busWrite (ag : Agent) (a : Nat) (w : Word) (s : State) : State :=
  match target a with
  | .reg b off => regWrite ag b off w s
  | .window k off => windowWrite ag k off w s
  | .iram k off => ramWrite ag k (iramBase k) off w s
  | .dram k off => ramWrite ag k (dramBase k) off w s
  | .lensTab n c i => tabWrite ag n c i w s
  | .pool off => poolWrite ag off w s
  | .capMem off => capMemWrite ag off s
  | .ident _ | .unmapped => s

/-- How that write ends. -/
def busRes (ag : Agent) (a : Nat) (w : Word) (s : State) : BusRes :=
  match target a with
  | .reg b off => regRes ag b off w s
  | .window k off =>
    (lockedVerdict ag k (windowWord (windowPut off w (s.le[k])) off != windowWord (s.le[k]) off) s).res
  | .iram k off => (lockedVerdict ag k (memWord s (iramBase k + off) != w) s).res
  | .dram k off => (lockedVerdict ag k (memWord s (dramBase k + off) != w) s).res
  | .lensTab n c i => (tabVerdict ag n c (memWord s (lensBase n c + 4 * i) != w) s).res
  | .pool off => poolRes off s
  | .capMem _ => match (openVerdict .cap s).res with | .ok => .rejected | r => r
  | .ident _ => if awake s then .ok else .asleep
  | .unmapped => if awake s then .unmapped else .asleep

/-- What a read of a register captures (R7, R34, R125, R145, R198, R216, R228, R247, R263, R293, R345, R360, R369, R385, R443). -/
def snapOf (b : Blk) (off : Nat) (s : State) : State :=
  match b with
  | .time => if off = Time.NS.off then timeSnap s else s
  | .rc n => if off = Rc.ANGLE_ANGLE.off then rcSnap n s else s
  | .ai n => if off = Ai.VALUE.off then aiValueSnap n s else if off = Ai.RMS.off then aiRmsSnap n s else s
  | .lu n => if off = Lu.TIME.off then luSnap n s else s
  | .rs n => if off = Rs.TSERVO.off then rsSnap n s else s
  | .ax n => if off = Ax.POS_LO.off then axSnap n s else s
  | .lp n => if off = Lp.U.off then lpSnap n s else s
  | .cap => if off = Cap.WP.off then capSnap s else s
  | .le k => if off = Le.CYC_LO.off then leCycSnap k s else s
  | .eth p => if off = Eth.RXTS.off then rxtsSnap p s else if off = Eth.TXTS.off then txtsSnap p s else s
  | .mb => if off = 0x80 then mbSnap s else s
  | .sns => if off = Sns.TIME.off then snsSnap s else s
  | .ec => match alarmAt off with | some i => alarmSnap i s | none => s
  | .evc => match evcAt off with | some (n, 8) => evcSnap n s | _ => s
  | _ => s

/-- The word of a register as a read by an agent shows it. QC_FENCE_SRC keeps its value while the controller is isolated, since it
takes no write then (R27). -/
def regWord (ag : Agent) (b : Blk) (off : Nat) (s : State) : Word :=
  if underReset s b then 0
  else if b = .qc ∧ off = 0x8 then s.fenceSrc[agentIx ag]
  else if isolated s b && off != 0 && off != 4 then (assocGet (blkBase b + off) s.held).getD 0
  else wordOf (liveWord s b off)

/-- What a read of a register does. -/
def regRead (ag : Agent) (b : Blk) (off : Nat) (s : State) : State :=
  if underReset s b then resetRead b s
  else if isolated s b then s
  else match b with
  | .q q => if off = 0x40 then queuePop ag q s else s
  | b => snapOf b off s

/-- The block whose memory a window shows. -/
def windowBlk : Target → Option Blk
  | .window k _ | .iram k _ | .dram k _ => some (.le k)
  | .lensTab n _ _ => some (.lens n)
  | .capMem _ => some .cap
  | _ => none

/-- The word at an address (R375, R376). -/
def busWord (ag : Agent) (a : Nat) (s : State) : Word :=
  match target a with
  | .reg b off => regWord ag b off s
  | .window k off => if !regionReset s .control && windowOpen s k then windowWord (s.le[k]) off else 0
  | .iram k off => if regionReset s .control then 0 else memWord s (iramBase k + off)
  | .dram k off => if regionReset s .control then 0 else memWord s (dramBase k + off)
  | .lensTab n c i => if regionReset s .acquisition then 0 else memWord s (lensBase n c + 4 * i)
  | .pool off => if regionReset s .control then 0 else memWord s (poolBase + off)
  | .capMem off => if regionReset s .control then 0 else capWord s (off / 4)
  | .ident a => wordOf (identWord s a)
  | .unmapped => 0

/-- A read of a word of the pool: the ECC error it meets (R280); a ring under reset reports the read with its queue (R28). -/
def poolRead (off : Nat) (s : State) : State :=
  if regionReset s .control then
    match ringAt s off with
    | some (q, _) => resetRead (.q q) s
    | none => s
  else eccMeet (poolBlk s off) (poolBase + off) s

/-- A word read at an address by an agent: what the read does. An SRAM word read in a window meets the ECC error that waits in
it (R280). -/
def busRead (ag : Agent) (a : Nat) (s : State) : State :=
  if !awake s then s
  else match target a with
  | .reg b off => regRead ag b off s
  | .pool off => poolRead off s
  | t => match windowBlk t with
    | some b =>
      if underReset s b then resetRead b s
      else if isolated s b then s
      else match t with
        | .lensTab n false i => lensMeet n i s
        | _ => eccMeet b a s
    | none => s

/-- How a read ends (R355): reads of BLK_CTRL and BLK_ERR do not count as meeting an isolated block. -/
def readRes (a : Nat) (s : State) : BusRes :=
  if !awake s then .asleep
  else match target a with
  | .reg b off => if underReset s b || (isolated s b && off != 0 && off != 4) then .isolated else .ok
  | .pool _ => if regionReset s .control then .isolated else .ok
  | .ident _ => .ok
  | .unmapped => .unmapped
  | t => match windowBlk t with
    | some b => if underReset s b || isolated s b then .isolated else .ok
    | none => .ok

/-! ### Rows -/

/-- REGISTER_WRITE: any word address. -/
def execRegisterWrite (ag : Agent) (addr w : Word) (s : State) : Outcome := .next (busWrite ag addr.toNat w s)

/-- A read command of the host: the word is the answer. -/
def readCmd (a : Nat) (s : State) : State :=
  if !awake s then s else { busRead .host a s with answer := busWord .host a s }

def execTimeNsRead (s : State) : Outcome := .next (readCmd (blkBase .time + Time.NS.off) s)
def execAiValueRead (n : Fin 8) (s : State) : Outcome := .next (readCmd (blkBase (.ai n) + Ai.VALUE.off) s)
def execAiRmsRead (n : Fin 8) (s : State) : Outcome := .next (readCmd (blkBase (.ai n) + Ai.RMS.off) s)
def execRcAngleRead (n : Fin 16) (s : State) : Outcome := .next (readCmd (blkBase (.rc n) + Rc.ANGLE_ANGLE.off) s)
def execLatchTimeRead (n : Fin 32) (s : State) : Outcome := .next (readCmd (blkBase (.lu n) + Lu.TIME.off) s)
def execRsTservoRead (n : Fin 16) (s : State) : Outcome := .next (readCmd (blkBase (.rs n) + Rs.TSERVO.off) s)
def execAxisPosRead (n : Fin 16) (s : State) : Outcome := .next (readCmd (blkBase (.ax n) + Ax.POS_LO.off) s)
def execLoopURead (n : Fin 64) (s : State) : Outcome := .next (readCmd (blkBase (.lp n) + Lp.U.off) s)
def execCapWpRead (s : State) : Outcome := .next (readCmd (blkBase .cap + Cap.WP.off) s)
def execLeCycRead (k : Fin 8) (s : State) : Outcome := .next (readCmd (blkBase (.le k) + Le.CYC_LO.off) s)
def execAlarmEntryRead (i : Fin 132) (s : State) : Outcome := .next (readCmd (blkBase .ec + 0x1000 + 0x20 * i.val) s)
def execMbStateRead (s : State) : Outcome := .next (readCmd (blkBase .mb + 0x80) s)
def execEthRxtsRead (p : Fin 2) (s : State) : Outcome := .next (readCmd (blkBase (.eth p) + Eth.RXTS.off) s)
def execEthTxtsRead (p : Fin 2) (s : State) : Outcome := .next (readCmd (blkBase (.eth p) + Eth.TXTS.off) s)
def execSensorTimeRead (s : State) : Outcome := .next (readCmd (blkBase .sns + Sns.TIME.off) s)
def execEvcLoRead (n : Fin 32) (s : State) : Outcome := .next (readCmd (blkBase .evc + 0x108 + 0x20 * n.val) s)

/-! ### The debug port (R439) -/

/-- The DAP right is in force (R401). -/
def dapRight (s : State) : Bool := flag s .mb Mb.KS_DBG_DAP

/-- Status and word of a DAP_DATA capture: 0 OK, 1 unmapped, 2 refused, 3 an uncorrectable ECC error, with the word as read. -/
def dapWord (a : Nat) (s : State) : Nat × Word :=
  if !(frozen s && dapRight s) then (2, 0)
  else match target a with
  | .unmapped => (1, 0)
  | .iram .. | .dram .. | .lensTab .. | .pool _ | .capMem _ => (if eccBad s a then 3 else 0, busWord .host a s)
  | _ => (0, busWord .host a s)

/-- The Update of DAP_ADDR, selected by its code (R439). -/
def dapAddress (a : Word) (s : State) : State := modEc (fun e => { e with dapAddr := a, jtagIr := 0x19 }) s

/-- DAP_READ: an address given is the Update of DAP_ADDR; the capture of DAP_DATA reads its word; the Update adds 4. -/
def dapRead (addr : Option Word) (s : State) : State :=
  let s := match addr with | some a => dapAddress a s | none => s
  let a := s.ec.dapAddr
  let (st, w) := dapWord a.toNat s
  let s := if st = 0 ∧ s.ec.snapEn = true then
      (match target a.toNat with
       | .reg (.q q) 0x40 =>
         let e : QEntry := if qLevel s q = 0 then {} else oldest s q
         setF (.q q) Q.POPW1 e.w1.toNat (setF (.q q) Q.POPW2 e.w2.toNat (setF (.q q) Q.POPW3 e.w3.toNat s))
       | .reg b off => if underReset s b || isolated s b then s else snapOf b off s
       | _ => s)
    else s
  modEc (fun e => { e with dapAddr := a + 4, dapOut := BitVec.ofNat 34 (st * 2 ^ 32 + w.toNat), jtagIr := 0x1A }) s

def execDapRead (addr : Option Word) (s : State) : Outcome := .next (dapRead addr s)

end Sys2Proof.Machine
end

