-- ==== Sys2Proof/Machine/HostPort.lean ====
section
/-!
DEFINITION. The frames of the host port (R350–R359): request, status, response, posted buffer, REPEAT and ABORT.
-/

namespace Sys2Proof.Machine

/-! ### Requests (R350–R353, R355) -/

/-- Bytes of a word on the wire, most significant first (R351). -/
def wireWord (w : Nat) : List Nat := [w / 16777216 % 256, w / 65536 % 256, w / 256 % 256, w % 256]

/-- Opcode and width code of a command byte (R350). -/
def frameOp (f : Frame) : Nat := f.cmd.toNat % 64
def frameWidth (f : Frame) : Nat := f.cmd.toNat / 64

/-- The frame carries data words: WRITE, WRITEP and FENCE. -/
def frameCarries (f : Frame) : Bool := frameOp f == 2 || frameOp f == 3 || frameOp f == 4

/-- The bytes before the request CRC. -/
def frameBody (f : Frame) : List Nat :=
  List.flatten [[f.cmd.toNat], wireWord f.addr.toNat, [f.len.toNat / 256, f.len.toNat % 256],
    f.data.flatMap (fun w => wireWord w.toNat)]

/-- The request CRC is right; a frame with another number of data words than its length has its CRC elsewhere (log 101). -/
def frameCrcOk (f : Frame) : Bool :=
  crc16Bytes (frameBody f) == f.crc.toNat && f.data.length == (if frameCarries f then f.len.toNat else 0)

/-- Length and address are permitted. -/
def frameLenOk (f : Frame) : Bool :=
  match frameOp f with
  | 1 | 2 | 3 => decide (1 ≤ f.len.toNat) && decide (f.len.toNat ≤ 256) && f.addr.toNat % 4 == 0
  | 4 => f.len == 1
  | _ => f.len == 0 && f.addr.toNat % 4 == 0

/-- Codes 0x81 to 0x83: nothing is executed. -/
def frameRefusal (f : Frame) : Option Nat :=
  if !frameCrcOk f then some 0x81
  else if 5 < frameOp f ∨ frameWidth f = 3 then some 0x82
  else if !frameLenOk f then some 0x83
  else none

/-- HP_STATUS bit of a status code (R355). -/
def statusFld (st : Nat) : Option Fld :=
  match st with
  | 0x81 => some Hp.STATUS_CRC | 0x82 => some Hp.STATUS_BADCMD | 0x83 => some Hp.STATUS_BADLEN | 0x84 => some Hp.STATUS_FULL
  | 0x85 => some Hp.STATUS_UNMAPPED | 0x86 => some Hp.STATUS_REJECTED | 0x87 => some Hp.STATUS_ISOLATED
  | _ => none

/-- The status of a frame whose accesses ended so: the lowest code that applies. -/
def accessStatus (rs : List BusRes) : Nat :=
  if rs.contains .unmapped then 0x85
  else if rs.contains .rejected || rs.contains .refused then 0x86
  else if rs.contains .isolated then 0x87
  else 0x80

/-! ### Responses (R354, R358, R359) -/

/-- The host port answers frames: BEACON service is available, the device is awake, the System region is not under reset. -/
def hostReady (s : State) : Bool := clocked s .system && decide (6 ≤ s.pwr.stage) && !regionReset s .system

/-- A response: status and data with their CRC. -/
def response (st : Nat) (ws : List Word) : List Nat :=
  let b := st :: ws.flatMap (fun w => wireWord w.toNat)
  let c := crc16Bytes b
  b ++ [c / 256, c % 256]

/-- The response is formed, kept and sent, with its HP_STATUS bit. A reset of the System region loses it (R359); a device that
has frozen drives nothing. -/
def respond (st : Nat) (ws : List Word) (s : State) : State :=
  if regionReset s .system then s
  else
    let r := response st ws
    let s := match statusFld st with | some f => raiseF .hp f s | none => s
    let sent := if hostReady s then r else []
    modHp (fun h => { h with kept := some r, sent := sent, out := if hostReady s && s.ec.jtagIr != 5 then .response else .undriven }) s

/-! ### Words (R356, R357) -/

/-- Addresses of the words of a frame. -/
def frameAddrs (a n : Nat) : List Nat := (List.range n).map (fun i => (a + 4 * i) % 2 ^ 32)

/-- A System region reset has begun in the frame: what is left of it is discarded (R359). -/
def frameLost (s : State) : Bool := regionReset s .system

/-- Words read in ascending order: how each ended, and the words. -/
def readWords : List Nat → State → List BusRes × List Word × State
  | [], s => ([], [], s)
  | a :: t, s =>
    if frameLost s then ([], [], s)
    else
    let r := readRes a s
    let w := if r = .asleep then 0 else busWord .host a s
    let (rs, ws, s) := readWords t (busRead .host a s)
    (r :: rs, w :: ws, s)

/-- Words written in ascending order. -/
def writeWords : List (Nat × Word) → State → List BusRes × State
  | [], s => ([], s)
  | (a, w) :: t, s =>
    if frameLost s then ([], s)
    else
    let r := busRes .host a w s
    let (rs, s) := writeWords t (busWrite .host a w s)
    (r :: rs, s)

/-- What HP_STATUS notes of a posted word. -/
def noteDrain (r : BusRes) (s : State) : State :=
  match r with
  | .rejected | .isolated => raiseF .hp Hp.STATUS_PREJ s
  | .unmapped => raiseF .hp Hp.STATUS_UNMAPPED s
  | .ok | .refused | .asleep => s

/-- The block in whose range an address lies that names no register: an engine's range holds its RAMs too (R267). -/
def unmappedBlk (a : Nat) : Option (Blk × Nat) :=
  match addrBlk a with
  | some r => some r
  | none => (slice 0x21000000 0x100000 8 a).map (fun r => (.le (fin8 r.1), r.2))

/-- A posted word that names no register is reported in BLK_ERR of its block where that block exists (R357): as a write that
reaches an isolated block or one of another owner (R8, R27), else under a bit that the spec does not name (log 145). -/
def unmappedErr (a : Nat) (s : State) : State :=
  match unmappedBlk a with
  | none => s
  | some (b, off) =>
    if underReset s b then resetWrite .host b off s
    else
      let k : ErrKind := if isolated s b then .iso else if Agent.host.code ≠ owner s b then .own
        else if Config.postedUnmapped then .own else .runw
      blkErr b k Agent.host.code off s

/-- The oldest posted word is written (R357). -/
def drainOne (s : State) : State :=
  match s.hp.posted with
  | [] => s
  | (a, w) :: t =>
    let s := modHp (fun h => { h with posted := t }) s
    let r := busRes .host a w s
    noteDrain r (if r = .unmapped then unmappedErr a s else busWrite .host a w s)

/-- HOST_POSTED_DRAIN. -/
def execHostPostedDrain (s : State) : Outcome := .next (if hostReady s then drainOne s else s)

/-- Every posted word is written before a later READ, WRITE or FENCE. -/
def drainAll (s : State) : State := (List.range s.hp.posted.length).foldl (fun s _ => drainOne s) s

/-! ### Frames -/

/-- An accepted frame is executed. -/
def frameRun (f : Frame) (s : State) : State :=
  match frameOp f with
  | 0 => respond 0x80 [] s
  | 1 =>
    let (rs, ws, s) := readWords (frameAddrs f.addr.toNat f.len.toNat) (drainAll s)
    respond (accessStatus rs) (if (accessStatus rs) = 0x86 then [] else ws) s
  | 2 =>
    let (rs, s) := writeWords ((frameAddrs f.addr.toNat f.len.toNat).zip f.data) (drainAll s)
    respond (accessStatus rs) [] s
  | 3 =>
    if s.hp.posted.length + f.len.toNat ≤ 256 then
      respond 0x80 [] (modHp (fun h => { h with posted := h.posted ++ (frameAddrs f.addr.toNat f.len.toNat).zip f.data }) s)
    else respond 0x84 [] s
  | 4 =>
    let w := (f.data.headD 0).toNat
    let s := drainAll s
    if frameLost s then s else respond 0x80 [] (fenceRequest 0 f.addr.toNat (w / 2 ^ 16) (w % 2 ^ 16) s)
  | _ =>
    match s.hp.kept with
    | some r => modHp (fun h => { h with sent := r, out := if s.ec.jtagIr != 5 then .response else .undriven }) s
    | none => respond 0x88 [] s

/-- A frame to which the port gives no response: wait bytes from bring-up stage 2 on, which the model's stage 1 with VIN present
and RESET_N high stands for (log 155), and in a System region reset; nothing is driven while the device is held in reset, frozen or
in DORMANT (R359). -/
def hostSilent (s : State) : State :=
  let on := awake s && s.ec.jtagIr != 5 && s.pwr.vinOk && !s.pwr.resetLow
  modHp (fun h => { h with sent := [], out := if on then .waits else .undriven }) s

/-- The lanes a response is driven on (R351, R354): IO1 in single width, those of the request in dual and quad; the spec names none
for the width code 3, which no command has (log 158). -/
def hostLanes (s : State) : List Nat :=
  if s.hp.out = .undriven then []
  else match s.hp.width with
  | 1 => [0, 1]
  | 2 => [0, 1, 2, 3]
  | _ => [1]

/-- Byte `i` of what the port drives, from the status byte on (R354): the response with its CRC, then 0xFF until CS_N rises; wait
bytes where it gives no response (R359). -/
def hostByte (s : State) (i : Nat) : Option Nat :=
  match s.hp.out with
  | .response => some (s.hp.sent.getD i 0xFF)
  | .waits => some 0
  | .undriven => none

/-- A whole request frame arrives. -/
def hostFrame (f : Frame) (s : State) : State :=
  let s := modHp (fun h => { h with width := frameWidth f }) s
  if !hostReady s then hostSilent s
  else match frameRefusal f with
  | some st => respond st [] (if st = 0x81 then incF .hp Hp.ERRCNT_CRCCNT s else s)
  | none =>
    let s := frameRun f s
    if frameLost s then hostSilent s else s

def execQspiPing (f : Frame) (s : State) : Outcome := .next (hostFrame f s)
def execQspiRead (f : Frame) (s : State) : Outcome := .next (hostFrame f s)
def execQspiWrite (f : Frame) (s : State) : Outcome := .next (hostFrame f s)
def execQspiWritep (f : Frame) (s : State) : Outcome := .next (hostFrame f s)
def execQspiFence (f : Frame) (s : State) : Outcome := .next (hostFrame f s)
def execQspiRepeat (f : Frame) (s : State) : Outcome := .next (hostFrame f s)

/-- QSPI_ABORT: CS_N rises before the request CRC is complete. -/
def qspiAbort (s : State) : State :=
  if hostReady s then incF .hp Hp.ERRCNT_ABCNT (raiseF .hp Hp.STATUS_ABORT s) else s

def execQspiAbort (s : State) : Outcome := .next (qspiAbort s)

end Sys2Proof.Machine
end

