-- ==== Sys2Proof/Machine/Slots.lean ====
section
/-!
DEFINITION. The firing of a timed-action slot and the actions it carries out (R61, R63, R64, R66, R335, R336).
-/

namespace Sys2Proof.Machine

/-- The agent a slot acts as (R61): its owner; none where the owner code names no agent. -/
def slotAgent (o : Nat) : Option Agent :=
  if o = 0 then some .host
  else if o ≤ 8 then some (.le (fin8 (o - 1)))
  else if o = 9 then some .keeper
  else none

/-- WRITE: SLOT_DATA to SLOT_ADDR with the owner's rights; a write that its target rejects or ignores sets WFAIL. -/
def slotDoWrite (n : Fin 64) (s : State) : State :=
  let a := getF s (.slot n) Slot.ADDR
  let w := wordOf (getF s (.slot n) Slot.DATA)
  match slotAgent (owner s (.slot n)) with
  | none => raiseF (.slot n) Slot.STATUS_WFAIL s
  | some ag =>
    let fails := match busRes ag a w s with
      | .rejected | .isolated => true
      | _ => false
    raiseIf fails (.slot n) Slot.STATUS_WFAIL (busWrite ag a w s)

/-- WAKE: the wake latch of the engine that owns the slot, in RUN, WAIT or PAUSED (R315). -/
def slotDoWake (n : Fin 64) (s : State) : State :=
  let o := owner s (.slot n)
  if 1 ≤ o ∧ o ≤ 8 then
    let k := fin8 (o - 1)
    let st := leState s k
    if st = 1 ∨ st = 2 ∨ st = 6 then modLe k (fun e => { e with wk := true }) s else s
  else s

/-- QUEUE: a timed-action record to queue SLOT_ADDR[3:0]. -/
def slotDoQueue (n : Fin 64) (t late : Nat) (s : State) : State :=
  let e : QEntry := { w0 := word0 0x01 (seqOf s clsSlot n) (timeEpoch s) (n.val * 2 ^ 8 + bitOf (late != 0)),
                      w1 := wordOf (getF s (.slot n) Slot.DATA), w2 := wordOf t, w3 := wordOf (timeNs s) }
  postRecord (fin16 (getF s (.slot n) Slot.ADDR % 16)) srcSlot [e] (seqNext clsSlot n s)

/-- The action of a slot that fires with target `t`, `late` marking a target that had passed. -/
def slotAction (n : Fin 64) (t late : Nat) (s : State) : State :=
  match getF s (.slot n) Slot.CFG_ACTION with
  | 1 => slotDoWrite n s
  | 2 => slotDoWake n s
  | 3 => slotDoQueue n t late s
  | 4 => srJoin s
  | 5 => tenderFire n s
  | _ => s

/-- The fields a firing writes: FIRES, FIRED and FEPOCH, LATE and SLOT_LATE, then FIRED or the next target. -/
def slotMark (n : Fin 64) (t : Nat) (isLate : Bool) (s : State) : State :=
  let p := getF s (.slot n) Slot.PERIOD
  let late := (timeNs s + 2 ^ 32 - t) % 2 ^ 32
  let s := setF (.slot n) Slot.STATUS_FIRES (getF s (.slot n) Slot.STATUS_FIRES + 1) s
  let s := setF (.slot n) Slot.FEPOCH (timeEpoch s) (setF (.slot n) Slot.FIRED (timeNs s) s)
  let s := if isLate then setF (.slot n) Slot.LATE late (raiseF (.slot n) Slot.STATUS_LATE s) else s
  if p = 0 then { setF (.slot n) Slot.STATUS_STATE 2 s with slotLate := s.slotLate.set n false }
  else setF (.slot n) Slot.TARGET (t + p) s

/-- One slot fires: the fire tick is recorded, the event posted, the engine told, the action carried out, and a DISARM of this
tick takes effect (R66). -/
def slotFireOne (n : Fin 64) (s : State) : State :=
  if slotDue s n then
    let t := getF s (.slot n) Slot.TARGET
    let isLate := s.slotLate[n]
    let off := s.slotOff[n]
    let late := if isLate then (timeNs s + 2 ^ 32 - t) % 2 ^ 32 else 0
    let s := slotMark n t isLate s
    let s := slotEvent n (bitOf isLate) t (timeNs s) late s
    let s := slotAction n t (bitOf isLate) (slotSignal n s)
    if off then slotDisarm n s else s
  else s

/-- SLOT_FIRE: the slots due on one tick act in ascending order (R66), so that those below the slot named fire before it. -/
def slotFire (n : Fin 64) (s : State) : State :=
  slotFireOne n (forAll ((List.finRange 64).filter (· < n)) slotFireOne s)

def execSlotFire (n : Fin 64) (s : State) : Outcome := .next (slotFire n s)

end Sys2Proof.Machine
end

