-- ==== Sys2Proof/Machine/EngineBus.lean ====
section
/-!
DEFINITION. The engines on the bus: the write buffer (R278), the answers that end a stall (R278, R310, R316, R317), the
record of rejected control-space writes (R288), and an engine cycle, in which the instruction at the PC is fetched from the
instruction RAM, decoded and executed (R268, R289).
-/

namespace Sys2Proof.Machine

/-! ### Posted stores (R278, R288) -/

/-- A C-space write by engine k: CWREJ and LE_REJADDR where its target rejects or ignores it, CNOBLK where the address names
no register. -/
def cStore (k : Fin 8) (a : Nat) (w : Word) (s : State) : State :=
  let r := busRes (.le k) a w s
  let s := busWrite (.le k) a w s
  match r with
  | .rejected | .isolated => raiseF (.le k) Le.STATUS_CWREJ (setF (.le k) Le.REJADDR a s)
  | .unmapped => raiseF (.le k) Le.STATUS_CNOBLK s
  | _ => s

/-- The accesses of a posted store, in ascending order. -/
def storeDo (k : Fin 8) (e : StoreEnt) (s : State) : State :=
  e.writes.foldl (fun s x => if e.cspace then cStore k x.1 x.2 s else poolWrite (.le k) x.1 x.2 s) s

/-- A store that found the buffer full enters it once an entry is free. -/
def storeRetry (k : Fin 8) (s : State) : State :=
  match (s.le[k]).stall with
  | some (.store e) =>
    if (s.le[k]).wbuf.length < 4 then leAdvance k 1 (modLe k (fun x => { x with wbuf := x.wbuf ++ [e] }) s) else s
  | _ => s

/-- POSTED_STORE_COMPLETE: the oldest store leaves the buffer, also while the engine is isolated (R289); a paused engine keeps
its buffer (R292). A STOP that waited for the buffer to drain takes effect. -/
def storeComplete (k : Fin 8) (s : State) : State :=
  if clocked s .control && !underReset s (.le k) && leClock (mode s) k then
    match (s.le[k]).wbuf with
    | e :: rest => leStopPoint k (storeRetry k (storeDo k e (modLe k (fun x => { x with wbuf := rest }) s)))
    | [] => s
  else s

def execPostedStoreComplete (k : Fin 8) (s : State) : Outcome := .next (storeComplete k s)

/-! ### The answers that end a stall -/

/-- A word of C space read by engine k: the word, and what the read does. -/
def cLoad (k : Fin 8) (a : Nat) (s : State) : Word × State :=
  let w := busWord (.le k) a s
  let ans := s.answer
  (w, { busRead (.le k) a s with answer := ans })

/-- Words of X or C space from an address, in ascending order; one whose read the interconnect has lost is 0 (R427). -/
def loadWords (k : Fin 8) (cspace : Bool) : Nat → Nat → State → List Word × State
  | _, 0, s => ([], s)
  | a, n + 1, s =>
    let (w, s) := if (s.le[k]).lostRd = some (if cspace then a % 2 ^ 32 else poolBase + a) then (0, s)
      else if cspace then cLoad k (a % 2 ^ 32) s
      else (memWord s (poolBase + a), if eccBad s (poolBase + a) then s else eccMeet (poolBlk s a) (poolBase + a) s)
    let (ws, s) := loadWords k cspace (a + 4) n s
    (w :: ws, s)

/-- Registers G(r) onwards take the words. -/
def putRegs (r : Nat) (ws : List Word) : List EWrite := ws.zipIdx.map (fun x => EWrite.g (r + x.2) x.1)

/-- The stalled instruction ends: results the next instruction sees, and the flags, which it does not (R303). -/
def stallEnd (k : Fin 8) (now later : List EWrite) (s : State) : State :=
  leAdvance k 1 (modLe k (fun e => { e with pend := later }) (applyWrites k now s))

/-- Flags C and V of QW and QR (R316): C alone where the queue was served. -/
def queueFlags (served refused : Bool) : List EWrite :=
  if served then [.flags 0b000100 0b000100] else [.flags 0b001100 (if refused then 0b001000 else 0)]

/-- QW: the controller, which meets the write with the end of a fabric cycle (R329), has answered; a write it holds back is where a
STOP takes effect (R289). -/
def qwAnswer (k : Fin 8) (s : State) : State :=
  match (s.le[k]).qwDone with
  | some (served, refused) => stallEnd k [] (queueFlags served refused) (modLe k (fun e => { e with qwDone := none }) s)
  | none => leStopPoint k s

/-- QR: the oldest entry, for the queue's owner alone (R327). An isolated controller does not answer (log 154). -/
def qrAnswer (k : Fin 8) (q : Fin 16) (quad : Nat) (s : State) : State :=
  if !qcServes s then s
  else if owner s (.q q) ≠ (Agent.le k).code ∨ isolated s (.q q) = true then stallEnd k [] (queueFlags false true) s
  else match takeEntry q s with
    | (some e, s) => stallEnd k (putRegs (4 * quad) [e.w0, e.w1, e.w2, e.w3]) (queueFlags true false) s
    | (none, s) => stallEnd k [] (queueFlags false false) s

/-- FENCE: the controller accepts the request once it has a place for it (R317), and not while it is isolated (log 154). -/
def fenceAnswer (k : Fin 8) (mask targets : Word) (s : State) : State :=
  let t := targets.toNat % 2 ^ 16
  if t = 0 then stallEnd k [] [] s
  else if 32 ≤ inbufHeld s ∨ qcServes s = false then s
  else stallEnd k [] [] (fenceRequest (Agent.le k).code mask.toNat (targets.toNat / 2 ^ 16) t s)

/-- An uncorrectable error among the words of X space that a load waits for (R280). -/
def xBad (s : State) (cspace : Bool) (a n : Nat) : Bool :=
  !cspace && (List.range n).any (fun i => eccBad s (poolBase + a + 4 * i))

/-- The load meets the error: ECC_U of the engine, and a cell fault of the block whose memory holds the word (R280, R425). -/
def xMeet (k : Fin 8) (a n : Nat) (s : State) : State :=
  let bad := ((List.range n).map (fun i => a + 4 * i)).find? (fun x => eccBad s (poolBase + x))
  let s := blkMet (.le k) .eccU s
  match bad with
  | some x => blkMet (poolBlk s x) .cell s
  | none => s

/-- What a stalled engine waited for arrives. -/
def stallAnswer (k : Fin 8) (x : Stall) (s : State) : State :=
  match x with
  | .load c a n r acc =>
    if xBad s c a n then leFault k 7 (lePc s k) (xMeet k a n s)
    else
    let (ws, s) := loadWords k c a n s
    let s := modLe k (fun e => { e with lostRd := none }) s
    if acc then stallEnd k [.acc r (accLoad (ws.getD 0 0) (ws.getD 1 0))] [] s else stallEnd k (putRegs r ws) [] s
  | .qw _ _ => qwAnswer k s
  | .qr q quad => qrAnswer k (fin16 q) quad s
  | .ql q d => stallEnd k [.g d (wordOf (qLevel s (fin16 q)))] [] s
  | .fence m t => fenceAnswer k m t s
  | .store _ => storeRetry k s

/-- The engine is stalled in an instruction it executes. -/
def leStalled (s : State) (k : Fin 8) : Bool :=
  leLive s k && leClock (mode s) k && (s.le[k]).stall.isSome
    && (leState s k == 1 || (leState s k == 3 && (s.le[k]).stepLeft != 0))

/-- LOAD_DATA_RETURN: every earlier store has left the buffer, and the answer arrives. -/
def loadReturn (k : Fin 8) (s : State) : State :=
  if leStalled s k && (s.le[k]).wbuf.isEmpty then
    match (s.le[k]).stall with
    | some x => stallAnswer k x s
    | none => s
  else s

def execLoadDataReturn (k : Fin 8) (s : State) : Outcome := .next (loadReturn k s)

/-! ### The writes of a fabric cycle (R329) -/

/-- The queue writes that QW asks for: the engine is stalled in it, every earlier store has left the buffer, and the controller has
not answered yet (R316). -/
def qwAsks (s : State) : List InRec :=
  (List.finRange 8).filterMap (fun k =>
    if leStalled s k && (s.le[k]).wbuf.isEmpty && (s.le[k]).qwDone.isNone then
      match (s.le[k]).stall with
      | some (.qw q e) => some (qwRec s k (fin16 q) e)
      | _ => none
    else none)

/-- The controller answers a QW (R316, R328, R347), but for one that is held back. -/
def qwMade (k : Fin 8) (r : InRec) (s : State) : State :=
  let q := fin16 r.queue
  let done := fun (served refused : Bool) => modLe k (fun e => { e with qwDone := some (served, refused) })
  if pushRefused (.le k) q (r.entries.headD {}) s then done false true (pushRefuse q s)
  else if qwBlocked q r s then s
  else if 32 ≤ inbufHeld s then done false false (dropRec q 1 s)
  else
    let (ok, _, t) := writeRecord q r.entries s
    done ok false t

/-- One write of the fabric cycle is made. -/
def pushOne (s : State) (r : InRec) : State :=
  match r.qw with
  | some k => qwMade k r s
  | none => writeNow (fin16 r.queue) r s

/-- The fabric cycle ends: its writes are made in the order of R329, the queue writes of the engines among them. An isolated
controller makes none (log 154). -/
def pushTick (s : State) : State :=
  if qcServes s && clocked s .control then
    let all := (qwAsks s).foldl (fun l r => waitInsert r l) s.qWait
    all.foldl pushOne { s with qWait := [] }
  else s

/-! ### An engine cycle -/

/-- The execution of a decoded instruction. -/
def jarExec (i : Instr) (s : State) : Outcome :=
  match i with
  | .nop k => execNop k s
  | .add_ k d a b => execAdd k d a b s
  | .addc k d a b => execAddc k d a b s
  | .sub_ k d a b => execSub k d a b s
  | .subc k d a b => execSubc k d a b s
  | .and_ k d a b => execAnd k d a b s
  | .or_ k d a b => execOr k d a b s
  | .xor_ k d a b => execXor k d a b s
  | .andn k d a b => execAndn k d a b s
  | .shl k d a b => execShl k d a b s
  | .shr k d a b => execShr k d a b s
  | .asr k d a b => execAsr k d a b s
  | .ror k d a b => execRor k d a b s
  | .min_ k d a b => execMin k d a b s
  | .max_ k d a b => execMax k d a b s
  | .minu k d a b => execMinu k d a b s
  | .maxu k d a b => execMaxu k d a b s
  | .abs_ k d a => execAbs k d a s
  | .neg_ k d a => execNeg k d a s
  | .clz k d a => execClz k d a s
  | .cmp k a b => execCmp k a b s
  | .tcmp k a b => execTcmp k a b s
  | .adds k d a b => execAdds k d a b s
  | .subs k d a b => execSubs k d a b s
  | .addi k d a imm => execAddi k d a imm s
  | .andi k d a imm => execAndi k d a imm s
  | .ori k d a imm => execOri k d a imm s
  | .xori k d a imm => execXori k d a imm s
  | .shi k d a kind amt => execShi k d a kind amt s
  | .cmpi k a imm => execCmpi k a imm s
  | .movi k d imm => execMovi k d imm s
  | .movhi k d imm => execMovhi k d imm s
  | .mul_ k d a b => execMul k d a b s
  | .mulh k d a b => execMulh k d a b s
  | .mulhu k d a b => execMulhu k d a b s
  | .mulr k d a b => execMulr k d a b s
  | .mvp k d a => execMvp k d a s
  | .mvl k d a => execMvl k d a s
  | .mvk k d a => execMvk k d a s
  | .mpv k d a => execMpv k d a s
  | .mlv k d a => execMlv k d a s
  | .mkv k d a => execMkv k d a s
  | .mvs k d sr => execMvs k d sr s
  | .msv k sr a => execMsv k sr a s
  | .mpy k acc a b mode => execMpy k acc a b mode s
  | .mac k acc a b mode => execMac k acc a b mode s
  | .msu k acc a b mode => execMsu k acc a b mode s
  | .macd k acc pi pj modI modJ sub mode => execMacd k acc pi pj modI modJ sub mode s
  | .aclr k acc => execAclr k acc s
  | .ald k acc a sh => execAld k acc a sh s
  | .aadd k acc b => execAadd k acc b s
  | .asub k acc b => execAsub k acc b s
  | .rnd k acc pos => execRnd k acc pos s
  | .mvr k acc d sh => execMvr k acc d sh s
  | .mvt k acc d sh => execMvt k acc d sh s
  | .mva k acc d part => execMva k acc d part s
  | .ld k r p sp post => execLd k r p sp post s
  | .st k r p sp post => execSt k r p sp post s
  | .ldp k r p sp post => execLdp k r p sp post s
  | .stp k r p sp post => execStp k r p sp post s
  | .lda k r p sp post => execLda k r p sp post s
  | .sta k r p sp post => execSta k r p sp post s
  | .crb k r p n post => execCrb k r p n post s
  | .cwb k r p n post => execCwb k r p n post s
  | .b_ k cond target => execB k cond target s
  | .br k cond a => execBr k cond a s
  | .call k cond target => execCall k cond target s
  | .callr k cond a => execCallr k cond a s
  | .ret k cond => execRet k cond s
  | .loop_ k fin count => execLoop k fin count s
  | .loopReg k fin c => execLoopReg k fin c s
  | .tnow k d => execTnow k d s
  | .tnowe k d => execTnowe k d s
  | .tarm k slot t => execTarm k slot t s
  | .tdis k slot => execTdis k slot s
  | .qw k q quad => execQw k q quad s
  | .qr k q quad => execQr k q quad s
  | .ql k q d => execQl k q d s
  | .fence k a b => execFence k a b s
  | .wait_ k mask t d q level => execWait k mask t d q level s
  | .rtf k => execRtf k s
  | .halt k => execHalt k s
  | .clrf k mask => execClrf k mask s
  | .illop k word => execIllop k word s
  | _ => .next s

/-- The instruction at the PC, from the instruction RAM. -/
def leFetch (s : State) (k : Fin 8) : Instr := decodeJar k (memWord s (iramBase k + 4 * lePc s k))

/-- The instruction at the PC executes; a PC beyond the RAM faults with IRANGE, an uncorrectable error in the word with IECC, and a
corrected one is reported (R280, R290). -/
def leCycle (k : Fin 8) (s : State) : State :=
  if leReady s k then
    let a := iramBase k + 4 * lePc s k
    (if 12287 < lePc s k then leFault k 4 (lePc s k) s
     else if eccBad s a then leFault k 8 (lePc s k) s
     else match jarExec (leFetch s k) (eccMeet (.le k) a s) with
      | .next t => t
      | _ => s)
  else s

/-- STEP (R289): one instruction, and the two in its delay slots where it is a branch; one that stalls ends later. -/
def leStepGo (k : Fin 8) (s : State) : State :=
  if leState s k = 3 then leCycle k (leCycle k (leCycle k s)) else s

def execLeStep (ag : Agent) (k : Fin 8) (w : Word) (s : State) : Outcome := .next (leStepGo k (leWrite ag k 0x8 w s))

/-- The stall is one that LE_STALL counts (R293): for X space, for C space, or for the write buffer. -/
def stallCounts (e : LeSt) : Bool :=
  match e.stall with
  | some (.load ..) | some (.store _) => true
  | some _ => !e.wbuf.isEmpty
  | none => false

/-- One cycle of the engine clock: a stall is counted (R293), else the engine executes. -/
def leClockOne (k : Fin 8) (s : State) : State :=
  if leStalled s k then
    let s := leCount k 1 s
    if stallCounts (s.le[k]) then incF (.le k) Le.STALL s else s
  else leCycle k s

/-- The engine cycles of one fabric cycle (R268): two in FULL, one in BALANCED, one in every second in RESCUE. -/
def leFabric (k : Fin 8) (s : State) : State :=
  match mode s with
  | 0 => leClockOne k (leClockOne k s)
  | 1 => leClockOne k s
  | 2 =>
    let h := (s.le[k]).half
    let s := modLe k (fun e => { e with half := !e.half }) s
    if h then leClockOne k s else s
  | _ => s

/-- The watchdog counts the elapsed time of RUN and WAIT while PERIOD is not 0 (R291). -/
def leWatch (d : Nat) (k : Fin 8) (s : State) : State :=
  if (leState s k = 1 ∨ leState s k = 2) ∧ getF s (.le k) Le.WDOG ≠ 0 then modLe k (fun e => { e with wdogRun := e.wdogRun + d }) s else s

end Sys2Proof.Machine
end

