-- ==== Sys2Proof/Machine/Bringup.lean ====
section
/-!
DEFINITION. Stage 7 of bring-up: the CONFIG section, the engines of the active image, INITMODE and the hand-over of the engines
(R22, R390, R410–R412).
-/

namespace Sys2Proof.Machine

/-- The pairs of address and value of the CONFIG sections of the image in slot `i`. -/
def configPairs (s : State) (i : Nat) : List (Nat × Nat) :=
  ((imgSections s i).filter (fun x => x.type == 5)).flatMap (fun x =>
    (List.range (x.len / 8)).map (fun j => (imgWord s i (x.off + 8 * j), imgWord s i (x.off + 8 * j + 4))))

/-- One pair written by the Keeper and counted in KS_CFG. -/
def configPair (x : Nat × Nat) (s : State) : State :=
  let w := wordOf x.2
  let f := if busRes .keeper x.1 w s = .ok then Mb.KS_CFG_APPLIED else Mb.KS_CFG_REJ
  incF .mb f (busWrite .keeper x.1 w s)

/-- The CONFIG section is applied; KS_CFG counts from 0. -/
def configApply (i : Nat) (s : State) : State :=
  forAll (configPairs s i) configPair (setF .mb Mb.KS_CFG_APPLIED 0 (setF .mb Mb.KS_CFG_REJ 0 s))

/-- INITMODE is entered (R414): RESCUE serves the channels of RSCMASK; 3 stays in BEACON. -/
def initEnter (s : State) : State :=
  match initMode s with
  | 3 => s
  | m => modePend m (if m = 2 then rescueMask s else 0) s

/-- The engines the image has started stay with the Keeper while it is on trial (R22, R396); every other engine goes to the host
(log 149). -/
def initHand (i : Nat) (s : State) : State :=
  if flag s .mb Mb.KS_STATE_TRIAL then
    let ks := (imgEngines s i).filter (fun k => owner s (.le k) == 9)
    modKeeper (fun k => { k with keptEngines := ks })
      (forAll (List.finRange 8) (fun k s => if owner s (.le k) = 9 ∧ ¬ ks.contains k then setOwner (.le k) 0 s else s) s)
  else handEngines s

/-- BRINGUP_STAGE7. -/
def bringup7 (s : State) : State :=
  if s.pwr.stage = 7 ∧ fwRun s = true ∧ s.pwr.hold = false ∧ s.pwr.romOnly = false then
    match activeSlot s with
    | some i => setStage 8 (initHand i (initEnter (loadEngines i (configApply i s))))
    | none => s
  else s

def execBringupStage7 (s : State) : Outcome := .next (bringup7 s)

end Sys2Proof.Machine
end

