-- ==== Sys2Proof/Machine/Clock.lean ====
section
/-!
DEFINITION. The passage of time: what one tick of the clocks does, and the commands that name something a tick brings about
(R34–R44, R268, R291, R441; log 6). Where no fast clock runs, a tick is one period of the AON clock.
-/

namespace Sys2Proof.Machine

/-! ### ECC errors (R280, R425, log 125) -/

/-- The SRAM word that an error strikes in this fabric cycle, and the word it then reads as where the error is uncorrectable. -/
def struck (s : State) : Option (Nat × Option Word) :=
  match Config.upset s.cycle with
  | none => none
  | some (a, w) => match target a with
    | .pool _ | .iram .. | .dram .. | .lensTab .. | .capMem _ | .reg .ec _ => some (a, w)
    | _ => none

/-- The error waits in its word until a read meets it or the word is written. -/
def upsetTick (s : State) : State :=
  { s with
    ecc := match struck s with | some (a, w) => assocPut a (w.isSome || eccBad s a) s.ecc | none => s.ecc
    mem := match struck s with
      | some (a, some w) => (match target a with | .capMem _ | .reg .. => s.mem | _ => (setWord a w s).mem)
      | _ => s.mem
    cap := match struck s with
      | some (a, some w) => (match target a with | .capMem off => capSet (off / 4) w s.cap | _ => s.cap)
      | _ => s.cap }

/-- An error in the alarm table or the controller's own state is met with the next fabric cycle: a cell fault of the controller with
ECC_C or ECC_U (R280, R425), and 0x1003 where it is uncorrectable (R429). -/
def tableMeet (s : State) : State :=
  let own := fun (p : Nat × Bool) => match target p.1 with | .reg .ec _ => true | _ => false
  if s.ecc.any own then
    let u := { s with ecc := s.ecc.filter (fun p => !own p) }
    let u := if s.ecc.any (fun p => own p && !p.2) then eccCell .ec false u else u
    if s.ecc.any (fun p => own p && p.2) then raiseAlarm 0x1003 (blkBase .ec) 3 false (eccCell .ec true u) else u
  else s

/-! ### A tick -/

/-- A frame boundary lies between two network times (R40). -/
def frameCrossed (s : State) (before : Nat) : Bool := s.time.now / frameNs s != before / frameNs s

/-- What the end of a fabric cycle settles before the counters: an ECC error of the alarm table, the writes and the alarm entries
that waited for it. -/
def cycleSettle (s : State) : State := alarmTick (pushTick (tableMeet s))

/-- What the end of a fabric cycle settles: the counters and the disarms that waited for a firing come last. -/
def cycleEnd (s : State) : State := slotTick (evcTick (cycleSettle s))

/-- The port region in a fabric cycle: emulators, and the inputs of SSI clocks, latch units and encoders, which see the levels that
their cells drive (R183, R187, R188, R195, R227). -/
def portTick (s : State) : State :=
  if clocked s .port then
    let s := forAll (List.finRange 16) emTick s
    let s := forAll (List.finRange 16) ssiSense s
    forAll (List.finRange 16) encSense (forAll (List.finRange 32) luSense s)
  else s

/-- ALARM_N as other devices hold it in this fabric cycle (R428, R444, log 156). -/
def alarmPin (s : State) : State := modEc (fun e => { e with almIn := Config.alarmOutside s.cycle }) s

/-- What follows the tick of the time unit in a fabric cycle, `t` and `e` being network time and elapsed time before it: the
acquisition chain, the Keeper's seconds, the ports, the engines. -/
def cycleRest (t e : Nat) (s : State) : State :=
  let s := if frameCrossed s t then occurs 1 0 s else s
  let s := portTick (grantCount (trialCount (feTick s)))
  let s := if clocked s .control then
      forAll (List.finRange 8) leFabric (forAll (List.finRange 8) (leWatch (s.elapsed - e)) s)
    else s
  upsetTick (alarmPin s)

/-- One fabric cycle: what the cycle that ends settles, the tick of the time unit, and what follows it. -/
def fabricCycle (s : State) : State := cycleRest s.time.now s.elapsed (timeTick (cycleEnd s))

/-- One tick of the clocks. -/
def fabricTick (s : State) : State :=
  if clocked s .system then fabricCycle s else { s with aon := s.aon + 1 }

/-- Units of 2^-28 ns that the next tick adds, and network time in these units. -/
def tickUnits (s : State) : Nat := (nextIncr s).1.toNat
def nowUnits (s : State) : Nat := timeUnits s

/-- A tick that brings about what a row names; where the next tick does not, nothing happens. -/
def tickIf (c : Bool) (s : State) : State := if clocked s .system && c then fabricTick s else s

/-- ZERO_ADJUST_COMPLETE (R37). -/
def execZeroAdjustComplete (s : State) : Outcome := .next (tickIf s.time.zeroPend s)

/-- SLEW_COMPLETE (R38): the remainder is at most d. -/
def execSlewComplete (s : State) : Outcome := .next (tickIf (s.time.slewRem != 0 && (nextIncr s).2 == 0) s)

/-- STEP_APPLY (R44). -/
def execStepApply (s : State) : Outcome := .next (tickIf s.time.stepPend.isSome s)

/-- TIME_WRAP (R42): the tick carries out of bit 31 of TIME_NS. -/
def execTimeWrap (s : State) : Outcome :=
  .next (tickIf ((nowUnits s + tickUnits s) / 2 ^ 60 != nowUnits s / 2 ^ 60) s)

/-- TIME_SECOND_CARRY (R34): the tick passes a whole second. -/
def execTimeSecondCarry (s : State) : Outcome :=
  .next (tickIf ((nowUnits s + tickUnits s) / secUnits != nowUnits s / secUnits) s)

/-- The counter wraps at the end of this fabric cycle (R441): it stands at its largest value and its source has occurred. -/
def evcWraps (s : State) (n : Fin 32) : Bool :=
  flag s .evc (Evc.EVCN_CFG_EN n) && evcCount s n == 2 ^ 48 - 1 && evcOccurs s n && live s .evc

/-- EVC_WRAP (R441). -/
def execEvcWrap (n : Fin 32) (s : State) : Outcome := .next (tickIf (evcWraps (cycleSettle s) n) s)

end Sys2Proof.Machine
end

