-- ==== Sys2Proof/Machine/Pins.lean ====
section
/-!
DEFINITION. What the balls show in each condition and the boundary-scan instructions (R363, R368, R424, R447, R458, R459).
-/

namespace Sys2Proof.Machine

/-- What a ball does: nothing, a level, or the levels of a protocol that the model holds as bytes or frames. -/
inductive PinOut where
  | highZ
  | drives (b : Bool)
  | protocol
  deriving DecidableEq, Repr

def PinOut.ofLevel : Option Bool → PinOut
  | some b => .drives b
  | none => .highZ

/-- The device is powered and out of reset (R424). -/
def outOfReset (s : State) : Bool := s.pwr.vinOk && !s.pwr.resetLow

/-- BEACON service or a higher mode, the device neither frozen nor in DORMANT. -/
def inService (s : State) : Bool := outOfReset s && awake s && decide (6 ≤ s.pwr.stage)

/-- Outputs that BEACON leaves undriven until the firmware runs (R424). -/
def firmwarePins (s : State) : Bool := inService s && (decide (mode s ≤ 2) || flag s .mb Mb.KS_STATE_FWRUN)

/-- RGMII outputs of a MAC (R368, R424, R438). -/
def rgmiiPin (s : State) (m : Fin 2) : PinOut :=
  if firmwarePins s && (mode s != 2 || rescuePort s == m) then .protocol else .highZ

/-- IO0 to IO3 of the host port (R354, R359, R424). -/
def hostPin (s : State) (i : Fin 4) : PinOut :=
  if outOfReset s && awake s && (hostLanes s).contains i.val then .protocol else .highZ

/-- A ball of the boot flash: driven by the Keeper from stage 4; in DORMANT the select is high and the rest undriven (R424). -/
def flashPin (s : State) (select : Bool) : PinOut :=
  if !outOfReset s || frozen s || decide (s.pwr.stage < 4) then .highZ
  else if dormant s then (if select then .drives true else .highZ)
  else .protocol

/-- IRQ_N (R362, R363, R424): push-pull, or open-drain with IRQOD. -/
def irqPin (s : State) : PinOut :=
  if !inService s then .highZ
  else if irqOut s then .drives false
  else if flag s .hp Hp.CFG_IRQOD then .highZ
  else .drives true

/-- SYNC (R52, R58, R424): driven by a leader that has met no contention. -/
def syncPin (s : State) : PinOut :=
  if firmwarePins s && getF s .time Time.CFG_ROLE == 1 && !s.time.syncStop then .drives (syncLevel s) else .highZ

/-- What the function of a ball does with it (R424, R431, R438). -/
def functionPin (s : State) : Ball → PinOut
  | .ptP c => .ofLevel (cellDrive s c)
  | .ptN c => .ofLevel (driveN s c)
  | .rgmiiTx m _ => rgmiiPin s m
  | .io i => hostPin s i
  | .fcsN => flashPin s true
  | .fsclk | .fio _ => flashPin s false
  | .irqN => irqPin s
  | .alarmN => if alarmOut s then .drives false else .highZ
  | .sync => syncPin s
  | .rgmiiRx _ _ | .sclk | .csN | .resetN | .safeN | .freezeN | .dbgEn => .highZ

/-- What a ball does: HIGHZ holds each of them high-impedance, the boundary register drives them while RESET_N is low (R459). -/
def pinOut (s : State) (b : Ball) : PinOut :=
  if s.ec.jtagIr = 5 then .highZ
  else if boundaryDrives s then .ofLevel (boundaryDrive s b)
  else functionPin s b

/-- The level of a ball, where the model holds it: IRQ_N has an external pull-up (R363). -/
def ballLevel (s : State) : Ball → Option Bool
  | .ptP c => some (cellP s c)
  | .ptN c => some (cellN s c)
  | .irqN => (match pinOut s .irqN with | .drives b => some b | _ => some true)
  | .resetN => some (!s.pwr.resetLow)
  | .safeN => some (!s.ec.safePin)
  | .freezeN => some (!s.ec.freezeLow)
  | .alarmN => some (pinOut s .alarmN != .drives false && !s.ec.almIn)
  | b => (match pinOut s b with | .drives v => some v | _ => none)

def allBalls : List Ball :=
  (List.finRange 64).map .ptP ++ (List.finRange 64).map .ptN
    ++ (List.finRange 2).flatMap (fun m => (List.finRange 6).map (.rgmiiTx m) ++ (List.finRange 6).map (.rgmiiRx m))
    ++ [.sclk, .csN] ++ (List.finRange 4).map .io ++ [.fsclk, .fcsN] ++ (List.finRange 4).map .fio
    ++ [.irqN, .resetN, .safeN, .freezeN, .alarmN, .sync, .dbgEn]

/-- A cell of the boundary register takes a level. -/
def cellSet (i : Nat) (b : Bool) (v : BitVec 513) : BitVec 513 :=
  if b then v ||| (1#513 <<< i) else v &&& ~~~(1#513 <<< i)

/-- A ball's input cell takes its level, its enable and output cells what its function does with it. -/
def ballCells (s : State) (b : Ball) (v : BitVec 513) : BitVec 513 :=
  let v := match ballLevel s b with
    | some l => cellSet (Config.scanInput b.num) l v
    | none => v
  match functionPin s b with
  | .drives l => cellSet (Config.scanEnable b.num) true (cellSet (Config.scanOutput b.num) l v)
  | .highZ => cellSet (Config.scanEnable b.num) false v
  | .protocol => cellSet (Config.scanEnable b.num) true v

/-- A capture of the boundary register (R458): the balls as they stand; cells of which the model holds no level are `other`. -/
def scanCapture (other : BitVec 513) (s : State) : BitVec 513 := allBalls.foldl (fun v b => ballCells s b v) other

/-- The instruction a code of the TAP selects: every code not listed acts as BYPASS (R458). -/
def tapCode (code : BitVec 5) : BitVec 5 :=
  if [0x00#5, 0x01#5, 0x02#5, 0x04#5, 0x05#5, 0x18#5, 0x19#5, 0x1A#5].contains code then code else 0x1F

/-- The TAP takes an instruction. -/
def tapSelect (code : BitVec 5) (s : State) : State := modEc (fun e => { e with jtagIr := tapCode code }) s

def execIdcode (s : State) : Outcome := .next (modEc (fun e => { e with dapOut := 0x0166454B }) (tapSelect 0x01 s))
def execBypass (s : State) : Outcome := .next (tapSelect 0x1F s)
def execHighz (s : State) : Outcome := .next (tapSelect 0x05 s)
def execClamp (s : State) : Outcome := .next (tapSelect 0x04 s)

/-- A scan of the boundary register under an instruction: the capture of the balls as they stand, then the Update (R458). -/
def boundaryScan (code : BitVec 5) (other cells : BitVec 513) (s : State) : State :=
  let s := tapSelect code s
  let got := scanCapture other s
  modEc (fun e => { e with boundary := cells, sampled := got }) s

/-- EXTEST, which acts as SAMPLE/PRELOAD where RESET_N is high: what it captures of balls that the model does not hold is free
(log 148). -/
def extest (cells : BitVec 513) (s : State) : State :=
  freeNext (boundaryScan 0x00 (Config.scanOther s.free) cells s)

def execExtest (cells : BitVec 513) (s : State) : Outcome := .next (extest cells s)

/-- SAMPLE/PRELOAD; the row gives the levels of the balls that the model does not hold. -/
def execSamplePreload (sampled cells : BitVec 513) (s : State) : Outcome := .next (boundaryScan 0x02 sampled cells s)

end Sys2Proof.Machine
end

