-- ==== Sys2Proof/Machine/Dispatch.lean ====
section
/-!
DEFINITION. One arm per command of the table: each calls the command's meaning.
-/

namespace Sys2Proof.Machine

def exec (i : Instr) (s : State) : Host.Outcome State Fault Refusal :=
  match i with
  | .leCycRead k => Sys2Proof.Machine.execLeCycRead k s
  | .nop k => Sys2Proof.Machine.execNop k s
  | .add_ k d a b => Sys2Proof.Machine.execAdd k d a b s
  | .addc k d a b => Sys2Proof.Machine.execAddc k d a b s
  | .sub_ k d a b => Sys2Proof.Machine.execSub k d a b s
  | .subc k d a b => Sys2Proof.Machine.execSubc k d a b s
  | .and_ k d a b => Sys2Proof.Machine.execAnd k d a b s
  | .or_ k d a b => Sys2Proof.Machine.execOr k d a b s
  | .xor_ k d a b => Sys2Proof.Machine.execXor k d a b s
  | .andn k d a b => Sys2Proof.Machine.execAndn k d a b s
  | .shl k d a b => Sys2Proof.Machine.execShl k d a b s
  | .shr k d a b => Sys2Proof.Machine.execShr k d a b s
  | .asr k d a b => Sys2Proof.Machine.execAsr k d a b s
  | .ror k d a b => Sys2Proof.Machine.execRor k d a b s
  | .min_ k d a b => Sys2Proof.Machine.execMin k d a b s
  | .max_ k d a b => Sys2Proof.Machine.execMax k d a b s
  | .minu k d a b => Sys2Proof.Machine.execMinu k d a b s
  | .maxu k d a b => Sys2Proof.Machine.execMaxu k d a b s
  | .abs_ k d a => Sys2Proof.Machine.execAbs k d a s
  | .neg_ k d a => Sys2Proof.Machine.execNeg k d a s
  | .clz k d a => Sys2Proof.Machine.execClz k d a s
  | .cmp k a b => Sys2Proof.Machine.execCmp k a b s
  | .tcmp k a b => Sys2Proof.Machine.execTcmp k a b s
  | .adds k d a b => Sys2Proof.Machine.execAdds k d a b s
  | .subs k d a b => Sys2Proof.Machine.execSubs k d a b s
  | .addi k d a imm => Sys2Proof.Machine.execAddi k d a imm s
  | .andi k d a imm => Sys2Proof.Machine.execAndi k d a imm s
  | .ori k d a imm => Sys2Proof.Machine.execOri k d a imm s
  | .xori k d a imm => Sys2Proof.Machine.execXori k d a imm s
  | .shi k d a kind amt => Sys2Proof.Machine.execShi k d a kind amt s
  | .cmpi k a imm => Sys2Proof.Machine.execCmpi k a imm s
  | .movi k d imm => Sys2Proof.Machine.execMovi k d imm s
  | .movhi k d imm => Sys2Proof.Machine.execMovhi k d imm s
  | .mul_ k d a b => Sys2Proof.Machine.execMul k d a b s
  | .mulh k d a b => Sys2Proof.Machine.execMulh k d a b s
  | .mulhu k d a b => Sys2Proof.Machine.execMulhu k d a b s
  | .mulr k d a b => Sys2Proof.Machine.execMulr k d a b s
  | .mvp k d a => Sys2Proof.Machine.execMvp k d a s
  | .mvl k d a => Sys2Proof.Machine.execMvl k d a s
  | .mvk k d a => Sys2Proof.Machine.execMvk k d a s
  | .mpv k d a => Sys2Proof.Machine.execMpv k d a s
  | .mlv k d a => Sys2Proof.Machine.execMlv k d a s
  | .mkv k d a => Sys2Proof.Machine.execMkv k d a s
  | .mvs k d sr => Sys2Proof.Machine.execMvs k d sr s
  | .msv k sr a => Sys2Proof.Machine.execMsv k sr a s
  | .mpy k acc a b mode => Sys2Proof.Machine.execMpy k acc a b mode s
  | .mac k acc a b mode => Sys2Proof.Machine.execMac k acc a b mode s
  | .msu k acc a b mode => Sys2Proof.Machine.execMsu k acc a b mode s
  | .macd k acc pi pj modI modJ sub mode => Sys2Proof.Machine.execMacd k acc pi pj modI modJ sub mode s
  | .aclr k acc => Sys2Proof.Machine.execAclr k acc s
  | .ald k acc a sh => Sys2Proof.Machine.execAld k acc a sh s
  | .aadd k acc b => Sys2Proof.Machine.execAadd k acc b s
  | .asub k acc b => Sys2Proof.Machine.execAsub k acc b s
  | .rnd k acc pos => Sys2Proof.Machine.execRnd k acc pos s
  | .mvr k acc d sh => Sys2Proof.Machine.execMvr k acc d sh s
  | .mvt k acc d sh => Sys2Proof.Machine.execMvt k acc d sh s
  | .mva k acc d part => Sys2Proof.Machine.execMva k acc d part s
  | .ld k r p sp post => Sys2Proof.Machine.execLd k r p sp post s
  | .st k r p sp post => Sys2Proof.Machine.execSt k r p sp post s
  | .ldp k r p sp post => Sys2Proof.Machine.execLdp k r p sp post s
  | .stp k r p sp post => Sys2Proof.Machine.execStp k r p sp post s
  | .lda k r p sp post => Sys2Proof.Machine.execLda k r p sp post s
  | .sta k r p sp post => Sys2Proof.Machine.execSta k r p sp post s
  | .crb k r p n post => Sys2Proof.Machine.execCrb k r p n post s
  | .cwb k r p n post => Sys2Proof.Machine.execCwb k r p n post s
  | .b_ k cond target => Sys2Proof.Machine.execB k cond target s
  | .br k cond a => Sys2Proof.Machine.execBr k cond a s
  | .call k cond target => Sys2Proof.Machine.execCall k cond target s
  | .callr k cond a => Sys2Proof.Machine.execCallr k cond a s
  | .ret k cond => Sys2Proof.Machine.execRet k cond s
  | .loop_ k fin count => Sys2Proof.Machine.execLoop k fin count s
  | .loopReg k fin c => Sys2Proof.Machine.execLoopReg k fin c s
  | .tnow k d => Sys2Proof.Machine.execTnow k d s
  | .tnowe k d => Sys2Proof.Machine.execTnowe k d s
  | .tarm k slot t => Sys2Proof.Machine.execTarm k slot t s
  | .tdis k slot => Sys2Proof.Machine.execTdis k slot s
  | .qw k q quad => Sys2Proof.Machine.execQw k q quad s
  | .qr k q quad => Sys2Proof.Machine.execQr k q quad s
  | .ql k q d => Sys2Proof.Machine.execQl k q d s
  | .fence k a b => Sys2Proof.Machine.execFence k a b s
  | .wait_ k mask t d q level => Sys2Proof.Machine.execWait k mask t d q level s
  | .rtf k => Sys2Proof.Machine.execRtf k s
  | .halt k => Sys2Proof.Machine.execHalt k s
  | .clrf k mask => Sys2Proof.Machine.execClrf k mask s
  | .illop k word => Sys2Proof.Machine.execIllop k word s
  | .registerWrite ag addr w => Sys2Proof.Machine.execRegisterWrite ag addr w s
  | .ownCmd ag w => Sys2Proof.Machine.execOwnCmd ag w s
  | .isolateRequest ag b w => Sys2Proof.Machine.execIsolateRequest ag b w s
  | .isolationComplete b => Sys2Proof.Machine.execIsolationComplete b s
  | .isolationRelease ag b w => Sys2Proof.Machine.execIsolationRelease ag b w s
  | .timeNsRead => Sys2Proof.Machine.execTimeNsRead s
  | .incrWrite ag w => Sys2Proof.Machine.execIncrWrite ag w s
  | .timeAdj ag w => Sys2Proof.Machine.execTimeAdj ag w s
  | .zeroAdjustComplete => Sys2Proof.Machine.execZeroAdjustComplete s
  | .slewComplete => Sys2Proof.Machine.execSlewComplete s
  | .stepApply => Sys2Proof.Machine.execStepApply s
  | .excitationAligned n => Sys2Proof.Machine.execExcitationAligned n s
  | .timeWrap => Sys2Proof.Machine.execTimeWrap s
  | .timeSecondCarry => Sys2Proof.Machine.execTimeSecondCarry s
  | .ptpMasterLost => Sys2Proof.Machine.execPtpMasterLost s
  | .ptpMasterAcquired offset => Sys2Proof.Machine.execPtpMasterAcquired offset s
  | .ptpMessageReceived msg => Sys2Proof.Machine.execPtpMessageReceived msg s
  | .syncMsEdgeOut => Sys2Proof.Machine.execSyncMsEdgeOut s
  | .syncEdgeReceived half => Sys2Proof.Machine.execSyncEdgeReceived half s
  | .syncTimeWordReceived word => Sys2Proof.Machine.execSyncTimeWordReceived word s
  | .syncLoss => Sys2Proof.Machine.execSyncLoss s
  | .syncResume => Sys2Proof.Machine.execSyncResume s
  | .syncAcquireTimeout => Sys2Proof.Machine.execSyncAcquireTimeout s
  | .syncContention => Sys2Proof.Machine.execSyncContention s
  | .ppsPulseStart => Sys2Proof.Machine.execPpsPulseStart s
  | .ppsPulseEnd => Sys2Proof.Machine.execPpsPulseEnd s
  | .slotArm ag n w => Sys2Proof.Machine.execSlotArm ag n w s
  | .slotDisarm ag n w => Sys2Proof.Machine.execSlotDisarm ag n w s
  | .slotFire n => Sys2Proof.Machine.execSlotFire n s
  | .synchronisingReset => Sys2Proof.Machine.execSynchronisingReset s
  | .exgEnable ag n w => Sys2Proof.Machine.execExgEnable ag n w s
  | .exgDisable ag n w => Sys2Proof.Machine.execExgDisable ag n w s
  | .exgAmpWrite ag n w => Sys2Proof.Machine.execExgAmpWrite ag n w s
  | .carrierCycleEnd n irms ipk => Sys2Proof.Machine.execCarrierCycleEnd n irms ipk s
  | .pwmPeriodEnd => Sys2Proof.Machine.execPwmPeriodEnd s
  | .exgLimitEvent n => Sys2Proof.Machine.execExgLimitEvent n s
  | .exgShortCircuit n => Sys2Proof.Machine.execExgShortCircuit n s
  | .exgRetryTimeout n => Sys2Proof.Machine.execExgRetryTimeout n s
  | .exgRetryClear n => Sys2Proof.Machine.execExgRetryClear n s
  | .vexcUndervoltage mv => Sys2Proof.Machine.execVexcUndervoltage mv s
  | .vexcRecover mv => Sys2Proof.Machine.execVexcRecover mv s
  | .aoEnable ag n w => Sys2Proof.Machine.execAoEnable ag n w s
  | .aoDisable ag n w => Sys2Proof.Machine.execAoDisable ag n w s
  | .aoCodeWrite ag n w => Sys2Proof.Machine.execAoCodeWrite ag n w s
  | .occultHoldEnd n => Sys2Proof.Machine.execOccultHoldEnd n s
  | .aoRangeChange ag n w => Sys2Proof.Machine.execAoRangeChange ag n w s
  | .aoRailSwitch n => Sys2Proof.Machine.execAoRailSwitch n s
  | .aoRangeRampDone n => Sys2Proof.Machine.execAoRangeRampDone n s
  | .aoLimitEvent n => Sys2Proof.Machine.execAoLimitEvent n s
  | .aoShortCircuit n => Sys2Proof.Machine.execAoShortCircuit n s
  | .aoRetryTimeout n => Sys2Proof.Machine.execAoRetryTimeout n s
  | .sentinelWake => Sys2Proof.Machine.execSentinelWake s
  | .sentinelBurstStart => Sys2Proof.Machine.execSentinelBurstStart s
  | .sentinelBurstEnd => Sys2Proof.Machine.execSentinelBurstEnd s
  | .sentinelAngleReady j bitsS bitsC clocks => Sys2Proof.Machine.execSentinelAngleReady j bitsS bitsC clocks s
  | .modulatorOverload lane => Sys2Proof.Machine.execModulatorOverload lane s
  | .modulatorStuck lane => Sys2Proof.Machine.execModulatorStuck lane s
  | .modulatorClockFault lane => Sys2Proof.Machine.execModulatorClockFault lane s
  | .feSchedule streams => Sys2Proof.Machine.execFeSchedule streams s
  | .aiRmsWindowEnd n => Sys2Proof.Machine.execAiRmsWindowEnd n s
  | .aiEnable ag n w => Sys2Proof.Machine.execAiEnable ag n w s
  | .aiRmswWrite ag n w => Sys2Proof.Machine.execAiRmswWrite ag n w s
  | .aiValueRead n => Sys2Proof.Machine.execAiValueRead n s
  | .aiRmsRead n => Sys2Proof.Machine.execAiRmsRead n s
  | .acqCountClear ag n w => Sys2Proof.Machine.execAcqCountClear ag n w s
  | .converterUpdate n => Sys2Proof.Machine.execConverterUpdate n s
  | .lockAcquired n => Sys2Proof.Machine.execLockAcquired n s
  | .converterEnable ag n w => Sys2Proof.Machine.execConverterEnable ag n w s
  | .converterDisable ag n w => Sys2Proof.Machine.execConverterDisable ag n w s
  | .reacquire ag n w => Sys2Proof.Machine.execReacquire ag n w s
  | .phaseAcqDone n => Sys2Proof.Machine.execPhaseAcqDone n s
  | .trkK1Write ag n w => Sys2Proof.Machine.execTrkK1Write ag n w s
  | .trkGainCommit ag n w => Sys2Proof.Machine.execTrkGainCommit ag n w s
  | .rcAngleRead n => Sys2Proof.Machine.execRcAngleRead n s
  | .lensOff ag n w => Sys2Proof.Machine.execLensOff ag n w s
  | .lensLearn ag n w => Sys2Proof.Machine.execLensLearn ag n w s
  | .lensApply ag n w => Sys2Proof.Machine.execLensApply ag n w s
  | .lensLearnApply ag n w => Sys2Proof.Machine.execLensLearnApply ag n w s
  | .lensRestart ag n w => Sys2Proof.Machine.execLensRestart ag n w s
  | .lensCommit ag n w => Sys2Proof.Machine.execLensCommit ag n w s
  | .lensRevolutionEnd n => Sys2Proof.Machine.execLensRevolutionEnd n s
  | .lensRevolutionProcessed n => Sys2Proof.Machine.execLensRevolutionProcessed n s
  | .lensCommitEffect n => Sys2Proof.Machine.execLensCommitEffect n s
  | .monitorActive n m => Sys2Proof.Machine.execMonitorActive n m s
  | .monitorInactive n m => Sys2Proof.Machine.execMonitorInactive n m s
  | .stuckWindowEnd n => Sys2Proof.Machine.execStuckWindowEnd n s
  | .xcheckFault n => Sys2Proof.Machine.execXcheckFault n s
  | .xcheckClear n => Sys2Proof.Machine.execXcheckClear n s
  | .holdoverExpiry n => Sys2Proof.Machine.execHoldoverExpiry n s
  | .axisFallback ag n w => Sys2Proof.Machine.execAxisFallback ag n w s
  | .axisSafe ag n w => Sys2Proof.Machine.execAxisSafe ag n w s
  | .axisClear ag n w => Sys2Proof.Machine.execAxisClear ag n w s
  | .tenArm ag n w => Sys2Proof.Machine.execTenArm ag n w s
  | .axisDelivery n => Sys2Proof.Machine.execAxisDelivery n s
  | .portDelivery n => Sys2Proof.Machine.execPortDelivery n s
  | .heldDelivery n => Sys2Proof.Machine.execHeldDelivery n s
  | .emEnable ag n w => Sys2Proof.Machine.execEmEnable ag n w s
  | .emDisable ag n w => Sys2Proof.Machine.execEmDisable ag n w s
  | .emEdgeEmit n => Sys2Proof.Machine.execEmEdgeEmit n s
  | .ssiClockFall n => Sys2Proof.Machine.execSsiClockFall n s
  | .ssiClockRise n => Sys2Proof.Machine.execSsiClockRise n s
  | .ssiMonoflopExpiry n => Sys2Proof.Machine.execSsiMonoflopExpiry n s
  | .latchEdge n rising age => Sys2Proof.Machine.execLatchEdge n rising age s
  | .latchRecordPost n => Sys2Proof.Machine.execLatchRecordPost n s
  | .latchSwtrig ag n w => Sys2Proof.Machine.execLatchSwtrig ag n w s
  | .latchArm ag n w => Sys2Proof.Machine.execLatchArm ag n w s
  | .latchEnable ag n w => Sys2Proof.Machine.execLatchEnable ag n w s
  | .latchTimeRead n => Sys2Proof.Machine.execLatchTimeRead n s
  | .sectorWindowCommit ag n w => Sys2Proof.Machine.execSectorWindowCommit ag n w s
  | .servoInstant n => Sys2Proof.Machine.execServoInstant n s
  | .rsEnable ag n w => Sys2Proof.Machine.execRsEnable ag n w s
  | .rsDisable ag n w => Sys2Proof.Machine.execRsDisable ag n w s
  | .rsTservoRead n => Sys2Proof.Machine.execRsTservoRead n s
  | .shapeEnable ag n w => Sys2Proof.Machine.execShapeEnable ag n w s
  | .shapeDisable ag n w => Sys2Proof.Machine.execShapeDisable ag n w s
  | .shapeCoefWrite ag n bank c w => Sys2Proof.Machine.execShapeCoefWrite ag n bank c w s
  | .shapeRequest ag n w => Sys2Proof.Machine.execShapeRequest ag n w s
  | .fadeComplete n => Sys2Proof.Machine.execFadeComplete n s
  | .axisSrcWrite ag n w => Sys2Proof.Machine.execAxisSrcWrite ag n w s
  | .axisOffsetLoWrite ag n w => Sys2Proof.Machine.execAxisOffsetLoWrite ag n w s
  | .axisOffsetCommit ag n w => Sys2Proof.Machine.execAxisOffsetCommit ag n w s
  | .axisPosRead n => Sys2Proof.Machine.execAxisPosRead n s
  | .encoderEnable ag n w => Sys2Proof.Machine.execEncoderEnable ag n w s
  | .encoderTransition n a b => Sys2Proof.Machine.execEncoderTransition n a b s
  | .encoderSample n => Sys2Proof.Machine.execEncoderSample n s
  | .loopOpen ag n w => Sys2Proof.Machine.execLoopOpen ag n w s
  | .loopTrack ag n w => Sys2Proof.Machine.execLoopTrack ag n w s
  | .loopClose ag n w => Sys2Proof.Machine.execLoopClose ag n w s
  | .loopOff ag n w => Sys2Proof.Machine.execLoopOff ag n w s
  | .loopTargetCommit ag n w => Sys2Proof.Machine.execLoopTargetCommit ag n w s
  | .loopIset ag n w => Sys2Proof.Machine.execLoopIset ag n w s
  | .loopURead n => Sys2Proof.Machine.execLoopURead n s
  | .rateGroupInstant k => Sys2Proof.Machine.execRateGroupInstant k s
  | .loopEvaluation n => Sys2Proof.Machine.execLoopEvaluation n s
  | .injArm ag n w => Sys2Proof.Machine.execInjArm ag n w s
  | .injStart ag n w => Sys2Proof.Machine.execInjStart ag n w s
  | .injStop ag n w => Sys2Proof.Machine.execInjStop ag n w s
  | .injTaperStart n => Sys2Proof.Machine.execInjTaperStart n s
  | .injDone n => Sys2Proof.Machine.execInjDone n s
  | .capArm ag w => Sys2Proof.Machine.execCapArm ag w s
  | .capStop ag w => Sys2Proof.Machine.execCapStop ag w s
  | .capTrig ag w => Sys2Proof.Machine.execCapTrig ag w s
  | .captureSample => Sys2Proof.Machine.execCaptureSample s
  | .captureComplete => Sys2Proof.Machine.execCaptureComplete s
  | .capLenWrite ag w => Sys2Proof.Machine.execCapLenWrite ag w s
  | .capLenCommit => Sys2Proof.Machine.execCapLenCommit s
  | .capWpRead => Sys2Proof.Machine.execCapWpRead s
  | .leRun ag k w => Sys2Proof.Machine.execLeRun ag k w s
  | .leStop ag k w => Sys2Proof.Machine.execLeStop ag k w s
  | .leStep ag k w => Sys2Proof.Machine.execLeStep ag k w s
  | .leResume ag k w => Sys2Proof.Machine.execLeResume ag k w s
  | .leReset ag k w => Sys2Proof.Machine.execLeReset ag k w s
  | .leSwi ag k w => Sys2Proof.Machine.execLeSwi ag k w s
  | .interruptEntry k => Sys2Proof.Machine.execInterruptEntry k s
  | .watchdogExpiry k => Sys2Proof.Machine.execWatchdogExpiry k s
  | .waitComplete k => Sys2Proof.Machine.execWaitComplete k s
  | .loadDataReturn k => Sys2Proof.Machine.execLoadDataReturn k s
  | .postedStoreComplete k => Sys2Proof.Machine.execPostedStoreComplete k s
  | .queueEnable ag q w => Sys2Proof.Machine.execQueueEnable ag q w s
  | .queuePush ag q w => Sys2Proof.Machine.execQueuePush ag q w s
  | .queuePop ag q => Sys2Proof.Machine.execQueuePop ag q s
  | .queueLenWrite ag q w => Sys2Proof.Machine.execQueueLenWrite ag q w s
  | .queueLenCommit q => Sys2Proof.Machine.execQueueLenCommit q s
  | .queueFlush ag q w => Sys2Proof.Machine.execQueueFlush ag q w s
  | .queueCountClear ag q w => Sys2Proof.Machine.execQueueCountClear ag q w s
  | .recordPost => Sys2Proof.Machine.execRecordPost s
  | .fenceCmd ag w => Sys2Proof.Machine.execFenceCmd ag w s
  | .fencePlace => Sys2Proof.Machine.execFencePlace s
  | .alarmRaise code src grade kept => Sys2Proof.Machine.execAlarmRaise code src grade kept s
  | .alarmConditionGone code src => Sys2Proof.Machine.execAlarmConditionGone code src s
  | .alarmAck ag w => Sys2Proof.Machine.execAlarmAck ag w s
  | .atRaise ag w => Sys2Proof.Machine.execAtRaise ag w s
  | .atRaiseSrcWrite ag w => Sys2Proof.Machine.execAtRaiseSrcWrite ag w s
  | .alarmEntryRead n => Sys2Proof.Machine.execAlarmEntryRead n s
  | .incidentClose => Sys2Proof.Machine.execIncidentClose s
  | .keeperForward => Sys2Proof.Machine.execKeeperForward s
  | .qspiPing f => Sys2Proof.Machine.execQspiPing f s
  | .qspiRead f => Sys2Proof.Machine.execQspiRead f s
  | .qspiWrite f => Sys2Proof.Machine.execQspiWrite f s
  | .qspiWritep f => Sys2Proof.Machine.execQspiWritep f s
  | .qspiFence f => Sys2Proof.Machine.execQspiFence f s
  | .qspiRepeat f => Sys2Proof.Machine.execQspiRepeat f s
  | .qspiAbort => Sys2Proof.Machine.execQspiAbort s
  | .hostPostedDrain => Sys2Proof.Machine.execHostPostedDrain s
  | .mbConsume ag w => Sys2Proof.Machine.execMbConsume ag w s
  | .mailboxComplete => Sys2Proof.Machine.execMailboxComplete s
  | .mbStateRead => Sys2Proof.Machine.execMbStateRead s
  | .hostSwi ag w => Sys2Proof.Machine.execHostSwi ag w s
  | .ethFrameReceived port f => Sys2Proof.Machine.execEthFrameReceived port f s
  | .ethFrameSent port ptpEvent sync half => Sys2Proof.Machine.execEthFrameSent port ptpEvent sync half s
  | .ethLinkChange port link fdx speed => Sys2Proof.Machine.execEthLinkChange port link fdx speed s
  | .ethRxtsRead port => Sys2Proof.Machine.execEthRxtsRead port s
  | .ethTxtsRead port => Sys2Proof.Machine.execEthTxtsRead port s
  | .heartbeatSend => Sys2Proof.Machine.execHeartbeatSend s
  | .envenHeartbeat m => Sys2Proof.Machine.execEnvenHeartbeat m s
  | .envenAlarm m => Sys2Proof.Machine.execEnvenAlarm m s
  | .envenEvent m => Sys2Proof.Machine.execEnvenEvent m s
  | .envenTrace m => Sys2Proof.Machine.execEnvenTrace m s
  | .envenData m => Sys2Proof.Machine.execEnvenData m s
  | .envenActivate m => Sys2Proof.Machine.execEnvenActivate m s
  | .envenLevel m => Sys2Proof.Machine.execEnvenLevel m s
  | .envenAck m => Sys2Proof.Machine.execEnvenAck m s
  | .activateResend => Sys2Proof.Machine.execActivateResend s
  | .peerLost node chip => Sys2Proof.Machine.execPeerLost node chip s
  | .levelRise => Sys2Proof.Machine.execLevelRise s
  | .keeperAliveTick => Sys2Proof.Machine.execKeeperAliveTick s
  | .info ag seq narg => Sys2Proof.Machine.execInfo ag seq narg s
  | .setMode ag seq narg => Sys2Proof.Machine.execSetMode ag seq narg s
  | .holdBeacon ag seq narg => Sys2Proof.Machine.execHoldBeacon ag seq narg s
  | .beaconSet ag seq narg => Sys2Proof.Machine.execBeaconSet ag seq narg s
  | .timeRole ag seq narg => Sys2Proof.Machine.execTimeRole ag seq narg s
  | .timeSlew ag seq narg => Sys2Proof.Machine.execTimeSlew ag seq narg s
  | .ptpSet ag seq narg => Sys2Proof.Machine.execPtpSet ag seq narg s
  | .ethSet ag seq narg => Sys2Proof.Machine.execEthSet ag seq narg s
  | .ipSet ag seq narg => Sys2Proof.Machine.execIpSet ag seq narg s
  | .envenSet ag seq narg => Sys2Proof.Machine.execEnvenSet ag seq narg s
  | .traceCap ag seq narg => Sys2Proof.Machine.execTraceCap ag seq narg s
  | .sensorSet ag seq narg => Sys2Proof.Machine.execSensorSet ag seq narg s
  | .lensSave ag seq narg => Sys2Proof.Machine.execLensSave ag seq narg s
  | .lensLoad ag seq narg => Sys2Proof.Machine.execLensLoad ag seq narg s
  | .logInfo ag seq narg => Sys2Proof.Machine.execLogInfo ag seq narg s
  | .logRead ag seq narg => Sys2Proof.Machine.execLogRead ag seq narg s
  | .logErase ag seq narg => Sys2Proof.Machine.execLogErase ag seq narg s
  | .tndBegin ag seq narg => Sys2Proof.Machine.execTndBegin ag seq narg s
  | .tndWrite ag seq narg => Sys2Proof.Machine.execTndWrite ag seq narg s
  | .tndVerify ag seq narg => Sys2Proof.Machine.execTndVerify ag seq narg s
  | .tndSchedule ag seq narg => Sys2Proof.Machine.execTndSchedule ag seq narg s
  | .tndCancel ag seq narg => Sys2Proof.Machine.execTndCancel ag seq narg s
  | .tndConfirm ag seq narg => Sys2Proof.Machine.execTndConfirm ag seq narg s
  | .tndStatus ag seq narg => Sys2Proof.Machine.execTndStatus ag seq narg s
  | .tndSwitch ag seq narg => Sys2Proof.Machine.execTndSwitch ag seq narg s
  | .keyFuse ag seq narg => Sys2Proof.Machine.execKeyFuse ag seq narg s
  | .keyRevoke ag seq narg => Sys2Proof.Machine.execKeyRevoke ag seq narg s
  | .dbgChallenge ag seq narg => Sys2Proof.Machine.execDbgChallenge ag seq narg s
  | .dbgResponse ag seq narg => Sys2Proof.Machine.execDbgResponse ag seq narg s
  | .dbgLock ag seq narg => Sys2Proof.Machine.execDbgLock ag seq narg s
  | .debugGrantExpiry => Sys2Proof.Machine.execDebugGrantExpiry s
  | .dbgLockoutEnd => Sys2Proof.Machine.execDbgLockoutEnd s
  | .tenderArm => Sys2Proof.Machine.execTenderArm s
  | .trialSave => Sys2Proof.Machine.execTrialSave s
  | .trialExpiry => Sys2Proof.Machine.execTrialExpiry s
  | .sensorSample r => Sys2Proof.Machine.execSensorSample r s
  | .sensorConditionChange c => Sys2Proof.Machine.execSensorConditionChange c s
  | .sensorTimeRead => Sys2Proof.Machine.execSensorTimeRead s
  | .vinRise mv => Sys2Proof.Machine.execVinRise mv s
  | .brownout mv => Sys2Proof.Machine.execBrownout mv s
  | .resetNAssert => Sys2Proof.Machine.execResetNAssert s
  | .resetNRelease dbgEn => Sys2Proof.Machine.execResetNRelease dbgEn s
  | .powerGood => Sys2Proof.Machine.execPowerGood s
  | .pllLocked => Sys2Proof.Machine.execPllLocked s
  | .pllLockLost => Sys2Proof.Machine.execPllLockLost s
  | .aonXtalSwitch => Sys2Proof.Machine.execAonXtalSwitch s
  | .romBootDone => Sys2Proof.Machine.execRomBootDone s
  | .beaconServiceStart => Sys2Proof.Machine.execBeaconServiceStart s
  | .firmwareStarted => Sys2Proof.Machine.execFirmwareStarted s
  | .bringupStage7 => Sys2Proof.Machine.execBringupStage7 s
  | .modeEntered => Sys2Proof.Machine.execModeEntered s
  | .dormantEntry => Sys2Proof.Machine.execDormantEntry s
  | .hostWake => Sys2Proof.Machine.execHostWake s
  | .dormantWake => Sys2Proof.Machine.execDormantWake s
  | .regionBusError e => Sys2Proof.Machine.execRegionBusError e s
  | .regionStarve r => Sys2Proof.Machine.execRegionStarve r s
  | .forceFatal ag w => Sys2Proof.Machine.execForceFatal ag w s
  | .regionResetRequest ag w => Sys2Proof.Machine.execRegionResetRequest ag w s
  | .regionResetDone r => Sys2Proof.Machine.execRegionResetDone r s
  | .safeNAssert => Sys2Proof.Machine.execSafeNAssert s
  | .safeNRelease => Sys2Proof.Machine.execSafeNRelease s
  | .freezePin => Sys2Proof.Machine.execFreezePin s
  | .freezePinRelease => Sys2Proof.Machine.execFreezePinRelease s
  | .freezeCmd ag w => Sys2Proof.Machine.execFreezeCmd ag w s
  | .freezeTimeout => Sys2Proof.Machine.execFreezeTimeout s
  | .dapUnfreeze w => Sys2Proof.Machine.execDapUnfreeze w s
  | .dapRead addr => Sys2Proof.Machine.execDapRead addr s
  | .extest cells => Sys2Proof.Machine.execExtest cells s
  | .idcode => Sys2Proof.Machine.execIdcode s
  | .samplePreload sampled cells => Sys2Proof.Machine.execSamplePreload sampled cells s
  | .clamp => Sys2Proof.Machine.execClamp s
  | .highz => Sys2Proof.Machine.execHighz s
  | .bypass => Sys2Proof.Machine.execBypass s
  | .evcSnapall ag w => Sys2Proof.Machine.execEvcSnapall ag w s
  | .evcClrall ag w => Sys2Proof.Machine.execEvcClrall ag w s
  | .evcClr ag n w => Sys2Proof.Machine.execEvcClr ag n w s
  | .evcLoRead n => Sys2Proof.Machine.execEvcLoRead n s
  | .evcWrap n => Sys2Proof.Machine.execEvcWrap n s
  | .portCellDriveMismatch n => Sys2Proof.Machine.execPortCellDriveMismatch n s
  | .sensorStale => Sys2Proof.Machine.execSensorStale s
  | .aoRetryClear n => Sys2Proof.Machine.execAoRetryClear n s
  | .aliveMsAdvance => Sys2Proof.Machine.execAliveMsAdvance s

end Sys2Proof.Machine
end

