-- ==== Sys2Proof/Machine/Step.lean ====
section
/-!
DEFINITION. One step: the command at the front of the queue is taken and executed; on an empty queue one tick of the clocks
passes (log 2).
-/

namespace Sys2Proof.Machine

/-- The state with the front command taken from the queue. -/
def State.take (rest : List Instr) (s : State) : State := { s with pending := rest }

/-- One step of the device. -/
def step (s : State) : Host.Outcome State Fault Refusal :=
  match s.pending with
  | [] => .next (fabricTick s)
  | c :: rest => exec c (s.take rest)

/-- The state with a command put at the front of its queue. -/
def State.enqueueFront (c : Instr) (s : State) : State := { s with pending := c :: s.pending }

/-- The state with the command that a word of the table spells at the front of its queue; no row of the table gives bits,
so that no word spells one. -/
def State.withFetchWord (s : State) (nbits w : Nat) : State :=
  match decodeTableWord nbits w with
  | some c => s.enqueueFront c
  | none => s

end Sys2Proof.Machine
end

