-- ==== Sys2Proof/Safety.lean ====
section
/-!
DEFINITION. Well-formed states, in the terms the claims use: memories and register fields in their one canonical form, and
the bounds of the queues inside the engines.
-/

namespace Sys2Proof.Machine

/-- Memory is canonical: addresses strictly rising, no byte listed that an unlisted address reads as. -/
def Memory.wf (d : Byte) (m : List Host.Cell) : Bool := assocWf (fun _ => d) m

/-- The capture memory is canonical: indices strictly rising, and no word listed that an unlisted index reads as while unlisted
words read 0 (R257; log 4, log 70). -/
def CapSt.memWf (c : CapSt) : Bool :=
  decide (c.mem.Pairwise (fun p q => p.1 < q.1)) && (c.undef.isSome || c.mem.all (fun p => p.2 != 0))

/-- The memories of the device are canonical. -/
def State.memWf (s : State) : Bool := Memory.wf 0 s.mem && Memory.wf 0xFF s.flash && s.cap.memWf

/-- An engine's internal bounds (R269, R278, R282, R283): G0 holds 0, the loop stack holds two loops at most, the write
buffer four stores, and two delay slots are left at most. -/
def LeSt.wf (e : LeSt) : Bool :=
  (e.g[0] == 0) && decide (e.loops.length ≤ 2) && decide (e.wbuf.length ≤ 4) && decide (e.slots ≤ 2)

/-- Every engine is within its bounds. -/
def State.enginesWf (s : State) : Bool := (List.finRange 8).all (fun k => (s.le[k]).wf)

/-- A write is accepted whole (R8, R27, R28): the device is neither frozen nor in DORMANT, the block's region is not under
reset, the block is not isolated, the agent owns it, and a running block sees no RWO field changed. -/
abbrev Accepts (ag : Agent) (b : Blk) (off : Nat) (w : Word) (s : State) : Prop :=
  awake s = true ∧ underReset s b = false ∧ isolated s b = false ∧ ag.code = owner s b
    ∧ ¬ (running s b = true ∧ rwoChanged s b off w = true)

/-- A register of the block can be read (R27, R28, R419, R438): the device is neither frozen nor in DORMANT, the block is not
isolated and its region is not under reset. -/
abbrev Readable (s : State) (b : Blk) : Prop := awake s = true ∧ isolated s b = false ∧ underReset s b = false

/-- Two states hold the same registers but for the fields listed. -/
def RegsBut (l : List (Blk × Fld)) (s t : State) : Prop :=
  ∀ b f, (∀ p ∈ l, fkey b f ≠ fkey p.1 p.2) → getF t b f = getF s b f

/-- Engine `k` executes the instruction at its PC (R289, R290): it runs, with no stall, and the PC lies in the RAM. -/
abbrev LeOn (s : State) (k : Fin 8) : Prop := leReady s k = true ∧ lePc s k ≤ 12287

/-- The instruction stands neither in a delay slot nor in the last two places of a loop body in progress (R282, R283). -/
abbrev LeFree (s : State) (k : Fin 8) : Prop := (s.le[k]).slots = 0 ∧ loopTail s k (lePc s k) = false

/-- The results an engine has now: those the last instruction left become visible, then `now`; `later` waits for the second
instruction (R281, R303). -/
def leResults (k : Fin 8) (now later : List EWrite) (s : State) : State :=
  modLe k (fun e => { e with pend := later }) (applyWrites k now (settle k s))

/-- An instruction of one cycle with its results, after which the engine goes on to the next. -/
def retired (k : Fin 8) (now later : List EWrite) (s : State) : State := leAdvance k 1 (leResults k now later s)

/-- A command completes: it neither stops the model nor is refused by it. -/
def Completes (i : Instr) (s : State) : Prop := ∃ t, exec i s = .next t

end Sys2Proof.Machine
end

