-- ==== Sys2Proof/WellFormed.lean ====
section
/-!
DEFINITION. Well-formed commands: an instruction whose operands R295 to R318 allow, a register write whose word carries the
command its row names, a message or frame of its row's kind. The device takes any command; these are the ones their rows are
about.
-/

namespace Sys2Proof

open Machine

/-- The word carries a value in a field. -/
def carries (w : Word) (f : Fld) (v : Nat) : Bool := fieldOf w f == v

/-- The command is an instruction of the Jarharus set (R300 to R319). -/
def Instr.jarharus : Instr → Bool
  | .nop .. | .add_ .. | .addc .. | .sub_ .. | .subc .. | .and_ .. | .or_ .. | .xor_ .. | .andn .. | .shl .. | .shr ..
  | .asr .. | .ror .. | .min_ .. | .max_ .. | .minu .. | .maxu .. | .adds .. | .subs .. | .abs_ .. | .neg_ .. | .clz ..
  | .cmp .. | .tcmp .. | .addi .. | .andi .. | .ori .. | .xori .. | .shi .. | .cmpi .. | .movi .. | .movhi .. | .mul_ ..
  | .mulh .. | .mulhu .. | .mulr .. | .mvp .. | .mvl .. | .mvk .. | .mpv .. | .mlv .. | .mkv .. | .mvs .. | .msv ..
  | .mpy .. | .mac .. | .msu .. | .macd .. | .aclr .. | .ald .. | .aadd .. | .asub .. | .rnd .. | .mvr .. | .mvt ..
  | .mva .. | .ld .. | .st .. | .ldp .. | .stp .. | .lda .. | .sta .. | .crb .. | .cwb .. | .b_ .. | .br .. | .call ..
  | .callr .. | .ret .. | .loop_ .. | .loopReg .. | .tnow .. | .tnowe .. | .tarm .. | .tdis .. | .qw .. | .qr .. | .ql ..
  | .fence .. | .wait_ .. | .rtf .. | .halt .. | .clrf .. => true
  | _ => false

/-- The command is well-formed. -/
def Instr.wellFormed : Instr → Bool
  | .mvs _ _ sr => decide (sr.val ≤ 11) && sr != 9
  | .msv _ sr _ => decide (sr.val ≤ 5) || sr == 9
  | .ald _ _ _ sh => decide (sh.val ≤ 40)
  | .rnd _ _ pos => pos != 0
  | .mva _ _ _ part => decide (part.val ≤ 3)
  | .ldp _ r _ _ _ => r.val % 2 == 0
  | .stp _ r _ _ _ => r.val % 2 == 0
  | .lda _ r _ _ _ => decide (r.val < 4)
  | .sta _ r _ _ _ => decide (r.val < 4)
  | .crb _ r _ n _ => decide (r.val + n.val ≤ 31)
  | .cwb _ r _ n _ => decide (r.val + n.val ≤ 31)
  | .wait_ _ mask _ _ _ _ => mask != 0
  | .illop k word => (decodeWord k word.toNat).isNone
  | .registerWrite _ addr _ => addr.toNat % 4 == 0
  | .isolateRequest _ _ w => carries w Hdr.ISOLATE 1
  | .isolationRelease _ _ w => carries w Hdr.ISOLATE 0
  | .slotArm _ _ w => carries w Slot.CMD_ARM 1 && carries w Slot.CMD_DISARM 0
  | .slotDisarm _ _ w => carries w Slot.CMD_DISARM 1
  | .exgEnable _ _ w => carries w Exg.CTRL_EN 1
  | .exgDisable _ _ w => carries w Exg.CTRL_EN 0
  | .aoEnable _ _ w => carries w Ao.CTRL_EN 1
  | .aoDisable _ _ w => carries w Ao.CTRL_EN 0
  | .aiEnable _ _ w => carries w Ai.CTRL_EN 1
  | .converterEnable _ _ w => carries w Rc.TRK_CTRL_EN 1
  | .converterDisable _ _ w => carries w Rc.TRK_CTRL_EN 0
  | .reacquire _ _ w => carries w Rc.TRK_CTRL_REACQ 1
  | .lensOff _ _ w => carries w Lens.CTRL_STATE 0
  | .lensLearn _ _ w => carries w Lens.CTRL_STATE 1
  | .lensApply _ _ w => carries w Lens.CTRL_STATE 2
  | .lensLearnApply _ _ w => carries w Lens.CTRL_STATE 3
  | .lensRestart _ _ w => carries w Lens.CTRL_RESTART 1
  | .lensCommit _ _ w => carries w Lens.CTRL_COMMIT 1
  | .axisFallback _ _ w => carries w Ax.FB_CMD_FALLBACK 1
  | .axisSafe _ _ w => carries w Ax.FB_CMD_SAFE 1
  | .axisClear _ _ w => carries w Ax.FB_CMD_CLEAR 1
  | .emEnable _ _ w => carries w Em.CTRL_EN 1
  | .emDisable _ _ w => carries w Em.CTRL_EN 0
  | .latchSwtrig _ _ w => carries w Lu.CFG_SWTRIG 1
  | .latchArm _ _ w => carries w Lu.CFG_ARM 1
  | .latchEnable _ _ w => carries w Lu.CFG_EN 1
  | .rsEnable _ _ w => carries w Rs.CFG_EN 1
  | .rsDisable _ _ w => carries w Rs.CFG_EN 0
  | .shapeEnable _ _ w => carries w Rs.SH_CTRL_SHEN 1
  | .shapeDisable _ _ w => carries w Rs.SH_CTRL_SHEN 0
  | .shapeRequest _ _ w => carries w Rs.SH_CMD_REQ 1
  | .encoderEnable _ _ w => carries w Ax.ENC_CFG_EN 1
  | .loopOpen _ _ w => carries w Lp.CMD 1
  | .loopTrack _ _ w => carries w Lp.CMD 2
  | .loopClose _ _ w => carries w Lp.CMD 3
  | .loopOff _ _ w => carries w Lp.CMD 4
  | .injArm _ _ w => carries w Inj.CMD_ARM 1
  | .injStart _ _ w => carries w Inj.CMD_START 1
  | .injStop _ _ w => carries w Inj.CMD_STOP 1
  | .capArm _ w => carries w Cap.CMD_ARM 1
  | .capStop _ w => carries w Cap.CMD_STOP 1
  | .capTrig _ w => carries w Cap.CMD_TRIG 1
  | .leRun _ _ w => carries w Le.CMD_CMD 1
  | .leStop _ _ w => carries w Le.CMD_CMD 2
  | .leStep _ _ w => carries w Le.CMD_CMD 3
  | .leResume _ _ w => carries w Le.CMD_CMD 4
  | .leReset _ _ w => carries w Le.CMD_CMD 5
  | .leSwi _ _ w => carries w Le.CMD_SWI 1
  | .queueEnable _ _ w => carries w Q.CFG_EN 1
  | .queueFlush _ _ w => carries w Q.CMD_FLUSH 1
  | .queueCountClear _ _ w => carries w Q.CMD_CNTCLR 1
  | .qspiPing f => frameOp f == 0
  | .qspiRead f => frameOp f == 1
  | .qspiWrite f => frameOp f == 2
  | .qspiWritep f => frameOp f == 3
  | .qspiFence f => frameOp f == 4
  | .qspiRepeat f => frameOp f == 5
  | .mbConsume _ w => carries w Mb.CONSUME_CONSUME 1
  | .hostSwi _ w => carries w Hp.IRQ_SET 1
  | .ethLinkChange _ _ _ speed => decide (speed.val ≤ 2)
  | .envenHeartbeat m => m.type == 1
  | .envenAlarm m => m.type == 2
  | .envenEvent m => m.type == 3
  | .envenTrace m => m.type == 4
  | .envenData m => m.type == 5
  | .envenActivate m => m.type == 6
  | .envenLevel m => m.type == 7
  | .envenAck m => m.type == 8
  | .forceFatal _ w => carries w Ec.CMD_FORCEFATAL 1
  | .regionResetRequest _ w => !carries w Ec.CMD_RRESET 0
  | .freezeCmd _ w => carries w Ec.FRZCMD_GO 1
  | .evcSnapall _ w => carries w Evc.CMD_SNAPALL 1
  | .evcClrall _ w => carries w Evc.CMD_CLRALL 1
  | .evcClr _ n w => carries w (Evc.EVCN_CFG_CLR n) 1
  | .leCycRead .. | .nop .. | .add_ .. | .addc .. | .sub_ .. | .subc .. | .and_ .. | .or_ .. | .xor_ .. | .andn ..
  | .shl .. | .shr .. | .asr .. | .ror .. | .min_ .. | .max_ .. | .minu .. | .maxu .. | .abs_ .. | .neg_ .. | .clz ..
  | .cmp .. | .tcmp .. | .adds .. | .subs .. | .addi .. | .andi .. | .ori .. | .xori .. | .shi .. | .cmpi ..
  | .movi .. | .movhi .. | .mul_ .. | .mulh .. | .mulhu .. | .mulr .. | .mvp .. | .mvl .. | .mvk .. | .mpv ..
  | .mlv .. | .mkv .. | .mpy .. | .mac .. | .msu .. | .macd .. | .aclr .. | .aadd .. | .asub .. | .mvr .. | .mvt ..
  | .ld .. | .st .. | .b_ .. | .br .. | .call .. | .callr .. | .ret .. | .loop_ .. | .loopReg .. | .tnow ..
  | .tnowe .. | .tarm .. | .tdis .. | .qw .. | .qr .. | .ql .. | .fence .. | .rtf .. | .halt .. | .clrf ..
  | .ownCmd .. | .isolationComplete .. | .timeNsRead | .incrWrite .. | .timeAdj .. | .zeroAdjustComplete
  | .slewComplete | .stepApply | .excitationAligned .. | .timeWrap | .timeSecondCarry | .ptpMasterLost
  | .ptpMasterAcquired .. | .ptpMessageReceived .. | .syncMsEdgeOut | .syncEdgeReceived .. | .syncTimeWordReceived ..
  | .syncLoss | .syncResume | .syncAcquireTimeout | .syncContention | .ppsPulseStart | .ppsPulseEnd | .slotFire ..
  | .synchronisingReset | .exgAmpWrite .. | .carrierCycleEnd .. | .pwmPeriodEnd | .exgLimitEvent ..
  | .exgShortCircuit .. | .exgRetryTimeout .. | .exgRetryClear .. | .vexcUndervoltage .. | .vexcRecover ..
  | .aoCodeWrite .. | .occultHoldEnd .. | .aoRangeChange .. | .aoRailSwitch .. | .aoRangeRampDone ..
  | .aoLimitEvent .. | .aoShortCircuit .. | .aoRetryTimeout .. | .sentinelWake | .sentinelBurstStart
  | .sentinelBurstEnd | .sentinelAngleReady .. | .modulatorOverload .. | .modulatorStuck .. | .modulatorClockFault ..
  | .feSchedule .. | .aiRmsWindowEnd .. | .aiRmswWrite .. | .aiValueRead .. | .aiRmsRead .. | .acqCountClear ..
  | .converterUpdate .. | .lockAcquired .. | .phaseAcqDone .. | .trkK1Write .. | .trkGainCommit .. | .rcAngleRead ..
  | .lensRevolutionEnd .. | .lensRevolutionProcessed .. | .lensCommitEffect .. | .monitorActive ..
  | .monitorInactive .. | .stuckWindowEnd .. | .xcheckFault .. | .xcheckClear .. | .holdoverExpiry .. | .tenArm ..
  | .axisDelivery .. | .portDelivery .. | .heldDelivery .. | .emEdgeEmit .. | .ssiClockFall .. | .ssiClockRise ..
  | .ssiMonoflopExpiry .. | .latchEdge .. | .latchRecordPost .. | .latchTimeRead .. | .sectorWindowCommit ..
  | .servoInstant .. | .rsTservoRead .. | .shapeCoefWrite .. | .fadeComplete .. | .axisSrcWrite ..
  | .axisOffsetLoWrite .. | .axisOffsetCommit .. | .axisPosRead .. | .encoderTransition .. | .encoderSample ..
  | .loopTargetCommit .. | .loopIset .. | .loopURead .. | .rateGroupInstant .. | .loopEvaluation ..
  | .injTaperStart .. | .injDone .. | .captureSample | .captureComplete | .capLenWrite .. | .capLenCommit
  | .capWpRead | .interruptEntry .. | .watchdogExpiry .. | .waitComplete .. | .loadDataReturn ..
  | .postedStoreComplete .. | .queuePush .. | .queuePop .. | .queueLenWrite .. | .queueLenCommit .. | .recordPost
  | .fenceCmd .. | .fencePlace | .alarmRaise .. | .alarmConditionGone .. | .alarmAck .. | .atRaise ..
  | .atRaiseSrcWrite .. | .alarmEntryRead .. | .incidentClose | .keeperForward | .qspiAbort | .hostPostedDrain
  | .mailboxComplete | .mbStateRead | .ethFrameReceived .. | .ethFrameSent .. | .ethRxtsRead .. | .ethTxtsRead ..
  | .heartbeatSend | .activateResend | .peerLost .. | .levelRise | .keeperAliveTick | .info .. | .setMode ..
  | .holdBeacon .. | .beaconSet .. | .timeRole .. | .timeSlew .. | .ptpSet .. | .ethSet .. | .ipSet .. | .envenSet ..
  | .traceCap .. | .sensorSet .. | .lensSave .. | .lensLoad .. | .logInfo .. | .logRead .. | .logErase ..
  | .tndBegin .. | .tndWrite .. | .tndVerify .. | .tndSchedule .. | .tndCancel .. | .tndConfirm .. | .tndStatus ..
  | .tndSwitch .. | .keyFuse .. | .keyRevoke .. | .dbgChallenge .. | .dbgResponse .. | .dbgLock ..
  | .debugGrantExpiry | .dbgLockoutEnd | .tenderArm | .trialSave | .trialExpiry | .sensorSample ..
  | .sensorConditionChange .. | .sensorTimeRead | .vinRise .. | .brownout .. | .resetNAssert | .resetNRelease ..
  | .powerGood | .pllLocked | .pllLockLost | .aonXtalSwitch | .romBootDone | .beaconServiceStart | .firmwareStarted
  | .bringupStage7 | .modeEntered | .dormantEntry | .hostWake | .dormantWake | .regionBusError .. | .regionStarve ..
  | .regionResetDone .. | .safeNAssert | .safeNRelease | .freezePin | .freezePinRelease | .freezeTimeout
  | .dapUnfreeze .. | .dapRead .. | .extest .. | .idcode | .samplePreload .. | .clamp | .highz | .bypass
  | .evcLoRead .. | .evcWrap .. | .portCellDriveMismatch .. | .sensorStale | .aoRetryClear .. | .aliveMsAdvance => true

end Sys2Proof
end

