-- ==== Sys2Proof/Certificates/Slice0/Obligations.lean ====
section
/-!
DEFINITION. The statements for the provers. "Completion" clauses have the form: for every state and operands that meet
hypotheses on the state and the operands alone, `exec` answers the next state named, or one whose fields are named. A clause
`t = { s with … }` says at once which parts of the state may change: every part not listed is unchanged.
-/

open Sys2Proof Sys2Proof.Machine

/-! ### Steps and reset -/

/-- STEP. A step takes the command at the front of the queue and is `exec` of it on the state with the rest of the queue. On
an empty queue it lets one tick of the clocks pass, which is the model's choice (log 2). -/
def Obligations.StepRunsTheFrontCommand : Prop :=
  (∀ (c : Instr) (rest : List Instr) (s : State), s.pending = c :: rest → step s = exec c (s.take rest)) ∧
  (∀ s : State, s.pending = [] → step s = .next (fabricTick s))

/-- From R7, R26, R410. After reset every field of every register holds the value the register map gives it (which the log names
where the spec gives none), every block is owned as R22 and R23 say and none runs in isolation, bring-up stands in stage 1,
network time and elapsed time are 0, no queue entry, fence or command waits, and no memory byte is listed. That an unlisted byte of
memory reads 0 (log 4) and an unlisted byte of the flash 0xFF (log 5), and the registers' reset values where the spec gives
none (logs 3, 22 and 23), are the model's choices. -/
def Obligations.ResetState : Prop :=
  (∀ (b : Blk) (f : Fld), getF State.reset b f = f.rst (blkIndex b) % 2 ^ f.width) ∧
  (∀ b : Blk, owner State.reset b = resetOwner b ∧ isolated State.reset b = false) ∧
  (∀ a : Nat, memByte State.reset a = 0 ∧ flashByte State.reset a = 0xFF) ∧
  State.reset.time.now = 0 ∧ State.reset.time.frac = 0 ∧ State.reset.elapsed = 0 ∧ State.reset.pwr.stage = 1 ∧
  State.reset.inbuf = [] ∧ State.reset.fences = [] ∧ State.reset.pending = [] ∧
  State.reset.memWf = true ∧ State.reset.enginesWf = true

/-- The memories keep their canonical form, and every engine its bounds: G0 holds 0, two loops at most, four stores in the
write buffer at most, two delay slots at most (R269, R278, R282, R283), over every step of every command and every tick.
From R23: every step leaves a block whose owner is fixed with that owner. From R36: every step leaves INCR within 5 ns ± 1,000 ppm.
(What the queues keep is stated for each write with the queues, since a shorter length may leave a ring longer than itself,
log 26.) -/
def Obligations.EveryStepKeepsTheBounds : Prop :=
  (∀ s t : State, s.memWf = true → s.enginesWf = true → step s = .next t → t.memWf = true ∧ t.enginesWf = true) ∧
  (∀ (b : Blk) (s t : State), blkFixed b = true → owner s b = resetOwner b → step s = .next t → owner t b = resetOwner b) ∧
  (∀ s t : State, 0x4FEB851F ≤ incr s → incr s ≤ 0x50147AE1 → step s = .next t →
    0x4FEB851F ≤ incr t ∧ incr t ≤ 0x50147AE1)

/-- A command is taken exactly once: over a step the queue loses its front command and nothing else, whatever the command
does to the device, to its power or to its clocks. -/
def Obligations.EveryStepTakesOneCommand : Prop :=
  ∀ s t : State, step s = .next t → t.pending = s.pending.tail

/-! ### Encoding (R295, R296) -/

/-- From R295 to R319. For every well-formed instruction of the Jarharus set with any operands, the decoder reads from the word
that the encoder writes the same instruction (of the engine that fetches the word: the engine is no part of it), and a word
that stands for no instruction is read as the illegal opcode that it is. The encoder writes a word for every instruction of the
set, and every word is read as an instruction of the set or as an illegal opcode. -/
def Obligations.JarharusDecodeOfEncode : Prop :=
  (∀ (i : Instr) (w : Word), i.wellFormed = true → encodeJar i = some w → ∃ k : Fin 8, decodeJar k w = i) ∧
  (∀ (k : Fin 8) (w : Word), (Instr.illop k w).wellFormed = true → decodeJar k w = .illop k w) ∧
  (∀ i : Instr, i.jarharus = true → ∃ w, encodeJar i = some w) ∧
  (∀ (k : Fin 8) (w : Word), (decodeJar k w).jarharus = true ∨ decodeJar k w = .illop k w)

/-! ### Network time (chapter 2) -/

/-- From R37, for an adjustment made while no step is pending. Row TIME_ADJ. An accepted write completes: TIME_ADJ_SEC is cleared; a
total offset of 0 starts no slew and no step and completes at the next tick; one of magnitude up to SLEW_LIMIT becomes the
remainder of a slew; a larger one becomes the pending step, the remainder being 0. Nothing else changes.
From R37, for a write that arrives between the decision of a step and its tick: the offset is added to the pending step; a sum
of 0 cancels the step and completes at the next tick. That the offset in ns meets a remainder and a pending step with a fraction of
2^-28 ns is the model's choice (log 35). The marks kAdj, kStep and kZero say what the Keeper has written (R49). -/
def Obligations.TimeAdjustments : Prop :=
  (
  ∀ (ag : Agent) (w : Word) (s : State), Accepts ag .time 0x28 w s → s.time.stepPend = none →
    ∃ t, exec (.timeAdj ag w) s = .next t ∧ t = { s with regs := t.regs, time := t.time } ∧
      RegsBut [(.time, Time.ADJ_SEC), (.time, Time.STATUS_SLEWING)] s t ∧ getF t .time Time.ADJ_SEC = 0 ∧
      (let total := s.time.slewRem + (getI s .time Time.ADJ_SEC * 1000000000 + toSigned 32 w.toNat) * 2 ^ 28
       let limit := getF s .time Time.SLEW_LIMIT * 2 ^ 28
       (total = 0 → t.time = { s.time with slewRem := 0, zeroPend := true, kAdj := false, kZero := true }
          ∧ getF t .time Time.STATUS_SLEWING = 0) ∧
       (total ≠ 0 → total.natAbs ≤ limit →
          t.time = { s.time with slewRem := total, kAdj := true } ∧ getF t .time Time.STATUS_SLEWING = 1) ∧
       (limit < total.natAbs →
          t.time = { s.time with slewRem := 0, stepPend := some total, stepSync := false, kAdj := false, kStep := true }
            ∧ getF t .time Time.STATUS_SLEWING = 0))) ∧
  (
  ∀ (ag : Agent) (w : Word) (p : Int) (s : State), Accepts ag .time 0x28 w s → s.time.stepPend = some p →
    ∃ t, exec (.timeAdj ag w) s = .next t ∧ t = { s with regs := t.regs, time := t.time } ∧
      RegsBut [(.time, Time.ADJ_SEC)] s t ∧ getF t .time Time.ADJ_SEC = 0 ∧
      (let sum := p + (getI s .time Time.ADJ_SEC * 1000000000 + toSigned 32 w.toNat) * 2 ^ 28
       (sum = 0 → t.time = { s.time with stepPend := none, stepSync := false, zeroPend := true, kStep := false, kZero := true }) ∧
       (sum ≠ 0 → t.time = { s.time with stepPend := some sum, kStep := true })))

/-- From R36. Row INCR_WRITE. An accepted write stores the value where it lies from 0x4FEB_851F to 0x5014_7AE1, else the nearer
limit with TIME.ICLAMP set; no other register field and no other state changes but the mark that keeps a W1C bit just set. -/
def Obligations.IncrIsClamped : Prop :=
  ∀ (ag : Agent) (w : Word) (s : State), Accepts ag .time 0x20 w s →
    ∃ t, exec (.incrWrite ag w) s = .next t ∧ t = { s with regs := t.regs, fresh := t.fresh } ∧
      RegsBut [(.time, Time.INCR_INT), (.time, Time.INCR_FRAC), (.time, Time.STATUS_ICLAMP)] s t ∧
      (0x4FEB851F ≤ w.toNat → w.toNat ≤ 0x50147AE1 →
        incr t = w.toNat ∧ getF t .time Time.STATUS_ICLAMP = getF s .time Time.STATUS_ICLAMP) ∧
      (w.toNat < 0x4FEB851F → incr t = 0x4FEB851F ∧ getF t .time Time.STATUS_ICLAMP = 1) ∧
      (0x50147AE1 < w.toNat → incr t = 0x50147AE1 ∧ getF t .time Time.STATUS_ICLAMP = 1)

/-- From R34, R35, R38, R42, R465. A tick on which no step is applied adds the effective increment, INCR ± d while a slew runs (d is
INCR × SLEW_RATE × 10^-6, rounded to nearest, ties to even) and the exact remainder at its end, to network time and to elapsed time; WRAP is
set by a carry out of bit 31 of TIME_NS; the tick that ends a slew clears SLEWING. From R49: the tick that completes an
adjustment clears DISC where the Keeper has written that adjustment since DISC was set, and leaves it otherwise. -/
def Obligations.TickAddsTheEffectiveIncrement : Prop :=
  ∀ s : State, s.time.stepPend = none →
    let t := timeTick s
    let i := (nextIncr s).1.toNat
    let before := s.time.now * 2 ^ 28 + s.time.frac
    t = { s with regs := t.regs, fresh := t.fresh, time := t.time, elapsed := t.elapsed, cycle := t.cycle } ∧
    t.time.now * 2 ^ 28 + t.time.frac = (before + i) % (timeMod * 2 ^ 28) ∧ t.time.frac < 2 ^ 28 ∧
    t.elapsed = s.elapsed + i ∧ t.cycle = s.cycle + 1 ∧ t.time.slewRem = (nextIncr s).2 ∧ t.time.zeroPend = false ∧
    (s.time.slewRem = 0 → i = incr s ∧ t.time.slewRem = 0) ∧
    (let d : Int := roundEven ((incr s * getF s .time Time.SLEW_RATE : Nat) : Int) 1000000
     (0 < s.time.slewRem → d < s.time.slewRem → (i : Int) = incr s + d ∧ t.time.slewRem = s.time.slewRem - d) ∧
     (s.time.slewRem < 0 → d < -s.time.slewRem → (i : Int) = incr s - d ∧ t.time.slewRem = s.time.slewRem + d) ∧
     (s.time.slewRem ≠ 0 → (s.time.slewRem.natAbs : Int) ≤ d →
       (i : Int) = incr s + s.time.slewRem ∧ t.time.slewRem = 0)) ∧
    RegsBut [(.time, Time.STATUS_WRAP), (.time, Time.STATUS_SLEWING), (.time, Time.STATUS_DISC)] s t ∧
    ((before + i) / 2 ^ 60 ≠ before / 2 ^ 60 → getF t .time Time.STATUS_WRAP = 1) ∧
    ((before + i) / 2 ^ 60 = before / 2 ^ 60 → getF t .time Time.STATUS_WRAP = getF s .time Time.STATUS_WRAP) ∧
    (s.time.slewRem ≠ 0 → t.time.slewRem = 0 → getF t .time Time.STATUS_SLEWING = 0) ∧
    (let done := (s.time.slewRem ≠ 0 ∧ t.time.slewRem = 0 ∧ s.time.kAdj = true) ∨ (s.time.zeroPend = true ∧ s.time.kZero = true)
     (done → getF t .time Time.STATUS_DISC = 0 ∧ t.time.kAdj = false ∧ t.time.kStep = false ∧ t.time.kZero = false) ∧
     (¬ done → getF t .time Time.STATUS_DISC = getF s .time Time.STATUS_DISC))

/-- From R34, R37, R38, R42, R44, R45, R49, R441. Rows ZERO_ADJUST_COMPLETE, SLEW_COMPLETE, STEP_APPLY, TIME_WRAP,
TIME_SECOND_CARRY and EVC_WRAP: each is the tick of the clocks that brings about what it names, where the next tick does;
otherwise nothing happens (the model's reading of a row that names a tick, log 6). The fabric cycle that ends is settled first
(`cycleEnd`); then the time unit takes its tick (`u`), and the rest of the device follows it. In `u` the adjustment is complete, the
slew has ended, or the step stands applied: network time moved by its size beside the increment, elapsed time by the increment
alone, STEP, EXALIGN and SET at 1, the epoch advanced where the device does not follow SYNC, and STEP_LAST the size in ns;
WRAP is set; TIME_SEC is the new second. The counter that wraps stands at 0 with its OVF bit set. That the size of a step may hold
a fraction of a ns, of which STEP_LAST shows the quotient towards zero, is the model's choice (log 35). -/
def Obligations.TickRowsComplete : Prop :=
  (∀ s : State, clocked s .system = true → s.time.zeroPend = true →
    let c := cycleEnd s
    ∃ u, u = timeTick c ∧ exec .zeroAdjustComplete s = .next (cycleRest s.time.now s.elapsed u) ∧
      u.time.zeroPend = false ∧
      (c.time.stepPend = none → c.time.zeroPend = true → c.time.kZero = true →
        getF u .time Time.STATUS_DISC = 0 ∧ u.time.kZero = false)) ∧
  (∀ s : State, clocked s .system = true → s.time.slewRem ≠ 0 → (nextIncr s).2 = 0 →
    let c := cycleEnd s
    ∃ u, u = timeTick c ∧ exec .slewComplete s = .next (cycleRest s.time.now s.elapsed u) ∧
      (c.time.stepPend = none → c.time.slewRem ≠ 0 → (nextIncr c).2 = 0 →
        u.time.slewRem = 0 ∧ getF u .time Time.STATUS_SLEWING = 0 ∧
        (u.elapsed : Int) = c.elapsed + incr c + c.time.slewRem)) ∧
  (∀ (s : State), clocked s .system = true → s.time.stepPend ≠ none →
    let c := cycleEnd s
    ∃ u, u = timeTick c ∧ exec .stepApply s = .next (cycleRest s.time.now s.elapsed u) ∧ u.time.stepPend = none ∧
      u.elapsed = c.elapsed + tickUnits c ∧
      ∀ d, c.time.stepPend = some d →
        (timeUnits u : Int) = ((nowUnits c + tickUnits c : Nat) + d) % ((timeMod * 2 ^ 28 : Nat) : Int) ∧
        getF u .time Time.STATUS_STEP = 1 ∧ getF u .time Time.STATUS_EXALIGN = 1 ∧ getF u .time Time.STATUS_SET = 1 ∧
        (d.natAbs < 2 ^ 58 → getI u .time Time.STEP_LAST = Int.tdiv d (2 ^ 28)) ∧
        (getF c .time Time.CFG_ROLE ≠ 2 → timeEpoch u = (timeEpoch c + 1) % 2 ^ 16)) ∧
  (∀ s : State, clocked s .system = true →
    (nowUnits s + tickUnits s) / 2 ^ 60 ≠ nowUnits s / 2 ^ 60 →
    let c := cycleEnd s
    ∃ u, u = timeTick c ∧ exec .timeWrap s = .next (cycleRest s.time.now s.elapsed u) ∧
      ((nowUnits c + tickUnits c) / 2 ^ 60 ≠ nowUnits c / 2 ^ 60 → getF u .time Time.STATUS_WRAP = 1)) ∧
  (∀ s : State, clocked s .system = true →
    (nowUnits s + tickUnits s) / secUnits ≠ nowUnits s / secUnits →
    let c := cycleEnd s
    ∃ u, u = timeTick c ∧ exec .timeSecondCarry s = .next (cycleRest s.time.now s.elapsed u) ∧
      (c.time.stepPend = none → timeSec u = (nowUnits c + tickUnits c) / secUnits % 2 ^ 48 ∧
        u.elapsed = c.elapsed + tickUnits c)) ∧
  (∀ (n : Fin 32) (s : State), clocked s .system = true → evcWraps (cycleSettle s) n = true →
    let c := cycleEnd s
    evcCount c n = 0 ∧ bitAt (getF c .evc Evc.OVF) n = 1 ∧
      exec (.evcWrap n) s = .next (cycleRest s.time.now s.elapsed (timeTick c))) ∧
  (∀ s : State, s.time.zeroPend = false → exec .zeroAdjustComplete s = .next s) ∧
  (∀ s : State, s.time.slewRem = 0 → exec .slewComplete s = .next s) ∧
  (∀ s : State, s.time.stepPend = none → exec .stepApply s = .next s)

/-- From R46 to R48, R53, R55 to R59. Rows EXCITATION_ALIGNED, PTP_MASTER_LOST, PTP_MASTER_ACQUIRED, SYNC_MS_EDGE_OUT,
SYNC_EDGE_RECEIVED, SYNC_TIME_WORD_RECEIVED, SYNC_LOSS, SYNC_RESUME, SYNC_ACQUIRE_TIMEOUT, SYNC_CONTENTION,
PPS_PULSE_START and PPS_PULSE_END, each where its event is due, with its alarm. The model's choices: the nearest millisecond of an
edge that stands half-way (log 121), that an edge far from it still corrects (log 31), the 3 ms without an edge and what a follower
that has lost SYNC drops or adopts (log 33), and the 1.5 s within which a word follows another (log 122). -/
def Obligations.MasterAndSyncEvents : Prop :=
  (∀ (n : Fin 16) (s : State), clocked s .port = true → devNow s n = 0 →
    ∃ t, exec (.excitationAligned n) s = .next t ∧ getF t (.exg n) Exg.STATUS_ALIGN = 0 ∧
      ((∀ m, getF t (.exg m) Exg.STATUS_ALIGN ≠ 1) → getF t .time Time.STATUS_EXALIGN = 0) ∧
      t = { s with regs := t.regs, exg := t.exg }) ∧
  (∀ s : State, clocked s .system = true → getF s .time Time.CFG_ROLE ≠ 2 → getF s .time Time.STATUS_HOLDOVER = 0 →
    exec .ptpMasterLost s = .next (raiseAlarm 0x0201 0x40010000 1 true (setF .time Time.STATUS_HOLDOVER 1 s))) ∧
  (∀ (off : Int) (s : State), clocked s .system = true → getF s .time Time.CFG_ROLE ≠ 2 →
    getF s .time Time.STATUS_HOLDOVER = 1 →
    exec (.ptpMasterAcquired off) s
      = .next (timeAdjust off (alarmGone 0x0201 0x40010000 (setF .time Time.STATUS_HOLDOVER 0 s)))) ∧
  (∀ s : State, clocked s .system = true → getF s .time Time.CFG_ROLE = 1 → s.time.syncStop = false →
    timeUnits s % (1000000 * 2 ^ 28) < s.time.inc → s.time.syncAt = none →
    exec .syncMsEdgeOut s = .next { s with time := { s.time with
      syncAt := some { t0 := s.elapsed - timeUnits s % (1000000 * 2 ^ 28), whole := timeSub s / 1000000 == 0,
                       word := timeWord s } } }) ∧
  (∀ (half : Bool) (s : State), clocked s .system = true → getF s .time Time.CFG_ROLE = 2 →
    getF s .time Time.STATUS_SYNCLOST = 1 →
    ∃ t, exec (.syncEdgeReceived half) s = .next t ∧ t = { s with time := t.time } ∧
      t.time.edgeAt = s.elapsed ∧ t.time.gotEdge = true ∧ t.time.slewRem = s.time.slewRem) ∧
  (∀ (half : Bool) (s : State), clocked s .system = true → getF s .time Time.CFG_ROLE = 2 →
    getF s .time Time.STATUS_SYNCLOST = 0 → s.time.stepPend = none →
    let t2 : Int := 2 * (s.time.now : Int) + (if half then 5 else 0) - 2 * (getF s .time Time.CFG_SYNCDLY : Int)
    let total := s.time.slewRem - ((t2 + 1000000) % 2000000 - 1000000) * 2 ^ 27
    ∃ t, exec (.syncEdgeReceived half) s = .next t ∧ t.time.edgeAt = s.elapsed ∧ t.time.gotEdge = true ∧
      (total ≠ 0 → total.natAbs ≤ getF s .time Time.SLEW_LIMIT * 2 ^ 28 →
        t.time.slewRem = total ∧ t.time.stepPend = none ∧ getF t .time Time.STATUS_SLEWING = 1) ∧
      (getF s .time Time.SLEW_LIMIT * 2 ^ 28 < total.natAbs → t.time.stepPend = some total ∧ t.time.slewRem = 0)) ∧
  (∀ (word : BitVec 96) (s : State), clocked s .system = true → getF s .time Time.CFG_ROLE = 2 →
    (crc16 80 (word.toNat / 2 ^ 16) ≠ word.toNat % 2 ^ 16 →
      exec (.syncTimeWordReceived word) s = .next (raiseF .time Time.STATUS_SCRC
        { s with time := { s.time with syncBad := s.time.syncBad + 1, syncGood := 0 } })) ∧
    (crc16 80 (word.toNat / 2 ^ 16) = word.toNat % 2 ^ 16 → word.toNat / 2 ^ 48 = timeSec s →
      word.toNat / 2 ^ 32 % 2 ^ 16 = timeEpoch s → exec (.syncTimeWordReceived word) s = .next (setTimeSet
        { s with time := { s.time with syncBad := 0,
                                       syncGood := if sinceNs s s.time.wordAt < 1500000000 then s.time.syncGood + 1 else 1,
                                       wordAt := s.elapsed,
                                       leadEpoch := some (word.toNat / 2 ^ 32 % 2 ^ 16) } }))) ∧
  (∀ s : State, clocked s .system = true → getF s .time Time.CFG_ROLE = 2 → getF s .time Time.STATUS_SYNCLOST = 0 →
    (s.time.edgeFar = true ∨ 2 ≤ s.time.syncBad ∨ (s.time.gotEdge = true ∧ 3000000 < sinceNs s s.time.edgeAt)) →
    exec .syncLoss s = .next (raiseAlarm 0x0202 0x40010000 1 true (setF .time Time.STATUS_SYNCLOST 1
      { s with time := { s.time with syncGood := 0, edgeFar := false } }))) ∧
  (∀ s : State, clocked s .system = true → getF s .time Time.STATUS_SYNCLOST = 1 → 2 ≤ s.time.syncGood →
    exec .syncResume s = .next (alarmGone 0x0202 0x40010000 (setF .time Time.STATUS_SYNCLOST 0 s))) ∧
  (∀ s : State, clocked s .system = true → getF s .time Time.CFG_ROLE = 2 → s.time.gotEdge = false →
    getF s .time Time.STATUS_SYNCLOST = 0 → 10000000 ≤ sinceNs s s.time.roleAt →
    exec .syncAcquireTimeout s = .next (raiseAlarm 0x0202 0x40010000 1 true (setF .time Time.STATUS_SYNCLOST 1
      { s with time := { s.time with syncGood := 0, edgeFar := false } }))) ∧
  (∀ s : State, clocked s .system = true → getF s .time Time.CFG_ROLE = 1 → s.time.syncStop = false →
    exec .syncContention s = .next (raiseAlarm 0x0203 0x40010000 1 false (raiseF .time Time.STATUS_SYNCCONF
      { s with time := { s.time with syncStop := true, syncAt := none } }))) ∧
  (∀ s : State, clocked s .system = true → getF s .time Time.CFG_PPSEN = 1 → timeUnits s % (1000000000 * 2 ^ 28) < s.time.inc →
    s.time.ppsOut = false →
    exec .ppsPulseStart s = .next { s with time := { s.time with ppsOut := true, ppsAt := s.elapsed } }) ∧
  (∀ s : State, clocked s .system = true → s.time.ppsOut = true →
    1000 * getF s .time Time.CFG_PPSW ≤ sinceNs s s.time.ppsAt →
    exec .ppsPulseEnd s = .next { s with time := { s.time with ppsOut := false } })

/-! ### Registers, owners and isolation (chapter 1) -/

/-- From R7 to R10. Row REGISTER_WRITE, for a word address that names a register of a block whose registers have no effect beside
their fields (the front end, a port cell, the latch control, power control, the sensors): an accepted write stores each RW
field, moved into its range, stores an RWO field of a block that does not run, leaves every field that software does not
write, and leaves every field of the other registers of the block; nothing but the register file changes.
From R375, R376. Row REGISTER_WRITE, for the other addresses: a word of pool SRAM outside the rings of the enabled queues is
written and every other byte of memory reads as before; a write to an address that names nothing does nothing.
From R8, R27, R28. A write to a register of a generator by another than its owner is ignored and recorded as OWN, one to an
isolated block as ISO, one to a block whose region is under reset waits for the end of that reset, and a frozen or dormant
device makes no access: in none of these cases is anything stored. From R26, R426, R427. The record sets the kind's BLK_ERR bit
with the agent and the offset, counts in the region, and raises the kind's alarm, which acts with the end of the fabric cycle (said
of the kind OWN of a generator that no engine owns, at a grade below FATAL that isolates nothing).
From R9. A status word of a generator, a slot, a queue or the time unit: a bit of a W1C field written 1 is cleared, unless
hardware has set it in this fabric cycle, and every other bit of it stays. (No register holds a W1S field.) From R8. A word that
changes an RWO field of an armed slot or of a running generator is stored but for its RWO fields, and recorded as RUNW.
From R26. BLK_ERR is cleared bit by bit; a write of BLK_CTRL to a block whose owner is fixed takes no effect. From R13, R166, R257,
R279. The identity registers and the candidate tables of Lens take no effect from a write, the capture memory records one as OWN
(the model's choice, log 100), and the RAMs of an engine that does not run store the word, while one that changes a RAM of a
running engine is recorded as RUNW. -/
def Obligations.WritesStoreOrAreRejected : Prop :=
  (
  ∀ (ag : Agent) (addr w : Word) (b : Blk) (off : Nat) (s : State), target addr.toNat = .reg b off →
    (b = .fe ∨ (∃ n, b = .pt n) ∨ b = .lc ∨ b = .pwr ∨ b = .sns) → off ≠ 0 → off ≠ 4 → Accepts ag b off w s →
    ∃ t, exec (.registerWrite ag addr w) s = .next t ∧ t = { s with regs := t.regs } ∧
      (∀ f ∈ fieldsAt b off,
        (f.acc = .rw → getF t b f = f.fit (fieldOf w f) % 2 ^ f.width) ∧
        (f.acc = .rwo → running s b = false → getF t b f = f.fit (fieldOf w f) % 2 ^ f.width) ∧
        (f.acc = .rwo → running s b = true → getF t b f = getF s b f) ∧
        (f.acc = .ro ∨ f.acc = .wo ∨ f.acc = .snap → getF t b f = getF s b f)) ∧
      (∀ g : Fld, g.lo < 32 → g.off ≠ off → getF t b g = getF s b g)) ∧
  (
  (∀ (ag : Agent) (addr w : Word) (off : Nat) (s : State), target addr.toNat = .pool off → awake s = true →
    regionReset s .control = false → ringAt s off = none →
    ∃ t, exec (.registerWrite ag addr w) s = .next t ∧ t = { s with mem := t.mem, ecc := t.ecc } ∧ eccAt t (poolBase + off) = none ∧
      memWord t (poolBase + off) = w ∧
      ∀ a, (a < poolBase + off ∨ poolBase + off + 4 ≤ a) → memByte t a = memByte s a) ∧
  (∀ (ag : Agent) (addr w : Word) (s : State), target addr.toNat = .unmapped →
    exec (.registerWrite ag addr w) s = .next s)) ∧
  (
  ∀ (ag : Agent) (n : Fin 16) (w : Word) (s : State),
    (awake s = false → exec (.exgAmpWrite ag n w) s = .next s) ∧
    (awake s = true → underReset s (.exg n) = true → exec (.exgAmpWrite ag n w) s
      = .next { s with ec := { s.ec with isoPend := s.ec.isoPend ++ [(Blk.exg n, some (ag.code, 0x14))] } }) ∧
    (awake s = true → underReset s (.exg n) = false → isolated s (.exg n) = true →
      exec (.exgAmpWrite ag n w) s = .next (blkErr (.exg n) .iso ag.code 0x14 s)) ∧
    (awake s = true → underReset s (.exg n) = false → isolated s (.exg n) = false → ag.code ≠ owner s (.exg n) →
      ∃ t, exec (.exgAmpWrite ag n w) s = .next t ∧ t = blkErr (.exg n) .own ag.code 0x14 s)) ∧
  (
  ∀ (code off : Nat) (n : Fin 16) (s : State), clocked s .system = true → frozen s = false → ¬ (1 ≤ owner s (.exg n) ∧ owner s (.exg n) ≤ 8) →
    getF s .ec Ec.GRADE_OWN ≠ 3 → (getF s .ec Ec.GRADE_OWN = 2 → bitAt (getF s .ec Ec.ISOEN) 0 = 0) → code < 16 → off < 0x1000 →
    let r : AlarmRaise := { code := 0x0101, src := blkBase (.exg n), grade := getF s .ec Ec.GRADE_OWN, keep := false }
    let t := blkErr (.exg n) .own code off s
    t = { s with regs := t.regs, fresh := t.fresh, occ := t.occ, alarmRaises := raiseInsert r s.alarmRaises } ∧
    getF t (.exg n) Hdr.OWN = 1 ∧ getF t (.exg n) Hdr.AGENT = code ∧ getF t (.exg n) Hdr.OFFSET = off ∧
    bitAt (getF t .ec (Ec.RERR_KINDS 2)) 0 = 1 ∧
    getF t .ec (Ec.RERRCNT 2) = incSat (Ec.RERRCNT 2).width (getF s .ec (Ec.RERRCNT 2)) ∧
    (getF s .ec (Ec.RERR_KINDS 2) = 0 → getF t .ec (Ec.RERRFIRST 2) = blkBase (.exg n) ∧ getF t .ec (Ec.RERRFTIME 2) = timeNs s)) ∧
  (
  ∀ (ag : Agent) (addr w : Word) (b : Blk) (off : Nat) (s : State), target addr.toNat = .reg b off → Accepts ag b off w s →
    ((∃ n, b = .exg n) ∧ off = Exg.STATUS_STATE.off ∨ (∃ n, b = .slot n) ∧ off = Slot.STATUS_STATE.off ∨
      (∃ q, b = .q q) ∧ off = Q.STATUS_EMPTY.off ∨ b = .time ∧ off = Time.STATUS_SET.off) →
    ∃ t, exec (.registerWrite ag addr w) s = .next t ∧ t = { s with regs := t.regs } ∧
      ∀ f ∈ fieldsAt b off,
        (f.acc = .w1c → ∀ i < f.width, bitAt (getF t b f) i
          = if bitAt (fieldOf w f) i = 1 ∧ ¬ s.fresh.contains (bitKey b f i) then 0 else bitAt (getF s b f) i) ∧
        (f.acc = .ro → getF t b f = getF s b f)) ∧
  (
  ∀ (ag : Agent) (addr w : Word) (b : Blk) (off : Nat) (s : State), target addr.toNat = .reg b off →
    ((∃ n, b = .slot n) ∧ 0xC ≤ off ∨ (∃ n, b = .exg n) ∧ (off = 0xC ∨ off = 0x10)) → awake s = true → underReset s b = false →
    isolated s b = false → ag.code = owner s b → running s b = true → rwoChanged s b off w = true →
    ∃ u, exec (.registerWrite ag addr w) s = .next (blkErr b .runw ag.code off u) ∧ u = { s with regs := u.regs } ∧
      ∀ f ∈ fieldsAt b off,
        (f.acc = .rwo → getF u b f = getF s b f) ∧ (f.acc = .rw → getF u b f = f.fit (fieldOf w f) % 2 ^ f.width)) ∧
  (
  (∀ (ag : Agent) (addr w : Word) (b : Blk) (s : State), target addr.toNat = .reg b 4 → (∃ n, b = .exg n) → Accepts ag b 4 w s →
    ∃ t, exec (.registerWrite ag addr w) s = .next t ∧ t = { s with regs := t.regs } ∧
      (∀ k : ErrKind, getF t b k.fld
        = if bitAt (fieldOf w k.fld) 0 = 1 ∧ ¬ s.fresh.contains (bitKey b k.fld 0) then 0 else getF s b k.fld) ∧
      getF t b Hdr.AGENT = getF s b Hdr.AGENT ∧ getF t b Hdr.OFFSET = getF s b Hdr.OFFSET) ∧
  (∀ (ag : Agent) (addr w : Word) (b : Blk) (s : State), target addr.toNat = .reg b 0 → blkFixed b = true → awake s = true →
    underReset s b = false → ag.code = owner s b → exec (.registerWrite ag addr w) s = .next s)) ∧
  (
  (∀ (ag : Agent) (addr w : Word) (a : Nat) (s : State), target addr.toNat = .ident a →
    exec (.registerWrite ag addr w) s = .next s) ∧
  (∀ (ag : Agent) (addr w : Word) (n : Fin 16) (i : Nat) (s : State), target addr.toNat = .lensTab n true i → awake s = true →
    underReset s (.lens n) = false → isolated s (.lens n) = false → ag.code = owner s (.lens n) →
    exec (.registerWrite ag addr w) s = .next s) ∧
  (∀ (ag : Agent) (addr w : Word) (off : Nat) (s : State), target addr.toNat = .capMem off → awake s = true →
    underReset s .cap = false → isolated s .cap = false →
    exec (.registerWrite ag addr w) s = .next (blkErr .cap .own ag.code off s)) ∧
  (∀ (ag : Agent) (addr w : Word) (k : Fin 8) (off base : Nat) (s : State),
    (target addr.toNat = .iram k off ∧ base = iramBase k ∨ target addr.toNat = .dram k off ∧ base = dramBase k) →
    awake s = true → regionReset s .control = false → isolated s (.le k) = false → ag.code = owner s (.le k) →
    (running s (.le k) = false → ∃ t, exec (.registerWrite ag addr w) s = .next t ∧ t = { s with mem := t.mem, ecc := t.ecc } ∧
      memWord t (base + off) = w ∧ ∀ a, (a < base + off ∨ base + off + 4 ≤ a) → memByte t a = memByte s a) ∧
    (running s (.le k) = true → memWord s (base + off) ≠ w →
      exec (.registerWrite ag addr w) s = .next (blkErr (.le k) .runw ag.code off s))))

/-- From R24. Row OWN_CMD, written by the owner of chip control: a base that names no block, a block of R23 and a reserved owner
code are refused with RESULT 1, 2 and 3 and PREV 15; otherwise the block's OWNER field becomes the code, and RESULT is 0 with
the previous owner in PREV. -/
def Obligations.OwnerCommand : Prop :=
  ∀ (ag : Agent) (w : Word) (s : State), Accepts ag .chip 0x100 w s →
    let base := fieldOf w Chip.OWN_CMD_BASE * 32
    let code := fieldOf w Chip.OWN_CMD_OWNER
    ∃ t, exec (.ownCmd ag w) s = .next t ∧
      (blkOfBase base = none → getF t .chip Chip.OWN_RES_RESULT = 1 ∧ getF t .chip Chip.OWN_RES_PREV = 15) ∧
      (∀ b, blkOfBase base = some b → blkFixed b = true →
        getF t .chip Chip.OWN_RES_RESULT = 2 ∧ getF t .chip Chip.OWN_RES_PREV = 15 ∧ owner t b = owner s b) ∧
      (∀ b, blkOfBase base = some b → blkFixed b = false → 10 ≤ code → code ≤ 14 →
        getF t .chip Chip.OWN_RES_RESULT = 3 ∧ getF t .chip Chip.OWN_RES_PREV = 15 ∧ owner t b = owner s b) ∧
      (∀ b, blkOfBase base = some b → blkFixed b = false → (code < 10 ∨ code = 15) →
        t = injOwnerCheck (setF b (Hdr.OWNER b) code (setF .chip Chip.OWN_RES_PREV (owner (storeFields .chip 0x100 w s) b)
          (setF .chip Chip.OWN_RES_RESULT 0 (storeFields .chip 0x100 w s)))))

/-- From R26, R27. Rows ISOLATE_REQUEST, ISOLATION_COMPLETE and ISOLATION_RELEASE, by the owner of a block that can be isolated: the
request sets ISOLATE alone; completion sets ISOLATED, makes the block safe and keeps what its registers show; the release of a
block not yet isolated clears ISOLATE; that of an isolated block returns it to service. That an isolated injection generator puts
out 0 is the model's choice (log 113), as is that a loop takes its trigger after the one that this fabric cycle has
taken (log 123). -/
def Obligations.IsolationCommands : Prop :=
  (∀ (ag : Agent) (b : Blk) (w : Word) (s : State), awake s = true → underReset s b = false → ag.code = owner s b →
    blkFixed b = false → fieldOf w Hdr.ISOLATE = 1 →
    ∃ t, exec (.isolateRequest ag b w) s = .next t ∧ t = { s with regs := t.regs } ∧ RegsBut [(b, Hdr.ISOLATE)] s t ∧
      getF t b Hdr.ISOLATE = 1) ∧
  (∀ (b : Blk) (s : State), awake s = true → 4 ≤ s.pwr.stage → getF s b Hdr.ISOLATE = 1 → getF s b Hdr.ISOLATED = 0 →
    blkFixed b = false →
    let u := isolateEffects b (setF b Hdr.ISOLATED 1 s)
    ∃ t, exec (.isolationComplete b) s = .next t ∧
      t = { u with held := (blkSnapshot u b).foldl (fun l p => assocPut p.1 p.2 l) u.held } ∧ getF t b Hdr.ISOLATED = 1 ∧
      (∀ n, b = .exg n → exgPrior s n false = none → getF s b Exg.STATUS_STATE ≠ 0 → getF t b Exg.STATUS_STATE = 6) ∧
      (∀ n, b = .lp n → lpTaken s n = none → getF s b Lp.STATUS_STATE ≠ 0 → getF t b Lp.STATUS_STATE = 6) ∧
      (∀ k, b = .inj k → getF t b Inj.OUT = 0 ∧ (t.inj[k]).out = 0) ∧ (b = .cap → getF t b Cap.STATUS_STATE = 0) ∧
      (∀ n, b = .em n → t = { s with regs := t.regs, held := t.held })) ∧
  (∀ (ag : Agent) (b : Blk) (w : Word) (s : State), awake s = true → underReset s b = false → ag.code = owner s b →
    blkFixed b = false → fieldOf w Hdr.ISOLATE = 0 → getF s b Hdr.ISOLATED = 0 →
    ∃ t, exec (.isolationRelease ag b w) s = .next t ∧ t = { s with regs := t.regs } ∧
      getF t b Hdr.ISOLATE = 0 ∧ getF t b Hdr.ISOLATED = 0 ∧ RegsBut [(b, Hdr.ISOLATE), (b, Hdr.ISOLATED)] s t) ∧
  (∀ (ag : Agent) (b : Blk) (w : Word) (s : State), awake s = true → underReset s b = false → ag.code = owner s b →
    blkFixed b = false → fieldOf w Hdr.ISOLATE = 0 → getF s b Hdr.ISOLATED = 1 →
    ∃ t, exec (.isolationRelease ag b w) s = .next t ∧ t = isolationRelease b s ∧ getF t b Hdr.ISOLATE = 0 ∧
      getF t b Hdr.ISOLATED = 0 ∧ (∀ n, b = .em n → t = { s with regs := t.regs, held := t.held }))

/-! ### Timed-action slots (R60 to R66) -/

/-- From R62, R64, R66. Rows SLOT_ARM and SLOT_DISARM. DISARM returns the slot to IDLE, after the firing where it reaches the slot on
its fire tick. ARM of a slot that is not armed is refused, the
slot going to REFUSED, exactly in the cases of R62; otherwise SLOT_SKIP is cleared and a slot whose target is in the future is
ARMED; a one-shot target already passed fires at the next tick, or misses the instant where the slot is STRICT: it is FIRED
with MISS and the notice 0x0204. A repeating slot whose target is passed skips to the first multiple of its period in the
future, counting what it skips, with MISS where it is STRICT. ARM while ARMED has no effect. -/
def Obligations.SlotArmAndDisarm : Prop :=
  ∀ (ag : Agent) (n : Fin 64) (w : Word) (s : State), Accepts ag (.slot n) 8 w s →
    (fieldOf w Slot.CMD_DISARM = 1 → slotDue s n = false →
      ∃ t, exec (.slotDisarm ag n w) s = .next t ∧
        t = { s with regs := t.regs, slotLate := t.slotLate, slotOff := t.slotOff } ∧
        getF t (.slot n) Slot.STATUS_STATE = 0 ∧ t.slotLate[n] = false ∧ t.slotOff[n] = false ∧
        RegsBut [(.slot n, Slot.STATUS_STATE)] s t) ∧
    (fieldOf w Slot.CMD_DISARM = 1 → slotDue s n = true →
      exec (.slotDisarm ag n w) s = .next { s with slotOff := s.slotOff.set n true }) ∧
    (fieldOf w Slot.CMD_DISARM = 0 → fieldOf w Slot.CMD_ARM = 1 → getF s (.slot n) Slot.STATUS_STATE = 1 →
      exec (.slotArm ag n w) s = .next s) ∧
    (fieldOf w Slot.CMD_DISARM = 0 → fieldOf w Slot.CMD_ARM = 1 → getF s (.slot n) Slot.STATUS_STATE ≠ 1 →
      let action := getF s (.slot n) Slot.CFG_ACTION
      let period := getF s (.slot n) Slot.PERIOD
      let o := owner s (.slot n)
      let refused := 6 ≤ action ∨ (1 ≤ period ∧ period ≤ 319) ∨ 2 ^ 31 ≤ period ∨ (action = 2 ∧ ¬ (1 ≤ o ∧ o ≤ 8)) ∨
        (action = 4 ∧ o ≠ 0 ∧ o ≠ 9) ∨ (action = 5 ∧ o ≠ 9) ∨
        (action = 1 ∧ target (getF s (.slot n) Slot.ADDR) = .unmapped)
      ∃ t, exec (.slotArm ag n w) s = .next t ∧
        (refused → t = sigEngine o 2 (setF (.slot n) Slot.STATUS_STATE 4 s)) ∧
        (¬ refused → passed s (getF s (.slot n) Slot.TARGET) = false →
          t = { s with regs := t.regs, slotLate := t.slotLate, fresh := slotKey n :: s.fresh } ∧
          getF t (.slot n) Slot.STATUS_STATE = 1 ∧ getF t (.slot n) Slot.SKIP = 0 ∧ t.slotLate[n] = false ∧
          RegsBut [(.slot n, Slot.STATUS_STATE), (.slot n, Slot.SKIP)] s t) ∧
        (¬ refused → passed s (getF s (.slot n) Slot.TARGET) = true → period = 0 →
          getF s (.slot n) Slot.CFG_STRICT = 0 →
          getF t (.slot n) Slot.STATUS_STATE = 1 ∧ getF t (.slot n) Slot.SKIP = 0 ∧ t.slotLate[n] = true) ∧
        (let past := getF s (.slot n) Slot.TARGET
         let strict := getF s (.slot n) Slot.CFG_STRICT
         (¬ refused → passed s past = true → period = 0 → strict = 1 →
           ∃ m, m = { s with regs := m.regs, fresh := m.fresh, slotLate := m.slotLate } ∧
             getF m (.slot n) Slot.STATUS_STATE = 3 ∧ getF m (.slot n) Slot.STATUS_MISS = 1 ∧ getF m (.slot n) Slot.SKIP = 0 ∧
             getF m (.slot n) Slot.TARGET = past ∧
             t = slotSignal n (slotEvent n 2 past (timeNs s) 0 (raiseAlarm 0x0204 (blkBase (.slot n)) 0 false m))) ∧
         (¬ refused → passed s past = true → period ≠ 0 →
           let k := (timeNs s + 2 ^ 32 - past) % 2 ^ 32 / period + 1
           ∃ m, m = { s with regs := m.regs, fresh := m.fresh, slotLate := m.slotLate } ∧
             getF m (.slot n) Slot.STATUS_STATE = 1 ∧ getF m (.slot n) Slot.STATUS_SKIP = 1 ∧
             getF m (.slot n) Slot.SKIP = min (2 ^ 32 - 1) k ∧ getF m (.slot n) Slot.TARGET = (past + k * period) % 2 ^ 32 ∧
             (strict = 1 → getF m (.slot n) Slot.STATUS_MISS = 1) ∧
             (strict = 0 → getF m (.slot n) Slot.STATUS_MISS = getF s (.slot n) Slot.STATUS_MISS) ∧
             t = slotEvent n 3 past (timeNs s) k
               (if strict = 1 then raiseAlarm 0x0204 (blkBase (.slot n)) 0 false m else m))))

/-- From R63, R64, R66. Row SLOT_FIRE, for a slot that is due. The fire tick and its epoch are recorded and FIRES counts it; a late
target sets LATE with its lateness; a one-shot slot goes to FIRED and a repeating slot stays armed at its next target; then
the event record, the engine's interrupt and the action follow, in this order, which is the model's choice (log 102). A slot whose
target is still in the future, and which was not late when it was armed, does not fire. The
slots below it that are due fire first, and a DISARM of the fire tick follows the firing.
From R65. At a step of d ns an armed slot with NETTIME = 0 moves its target by d, modulo 2^32, and sets
SHIFT; with NETTIME = 1 a target still in the future is kept. -/
def Obligations.SlotFiresAndSteps : Prop :=
  (
  (∀ (n : Fin 64) (s : State), slotDue s n = true → s.slotOff[n] = false → (∀ m < n, slotDue s m = false) →
    let target := getF s (.slot n) Slot.TARGET
    let period := getF s (.slot n) Slot.PERIOD
    let lateBy := (timeNs s + 2 ^ 32 - target) % 2 ^ 32
    let late := s.slotLate[n]
    ∃ m, m = { s with regs := m.regs, fresh := m.fresh, slotLate := m.slotLate } ∧
      getF m (.slot n) Slot.STATUS_FIRES = (getF s (.slot n) Slot.STATUS_FIRES + 1) % 2 ^ Slot.STATUS_FIRES.width ∧
      getF m (.slot n) Slot.FIRED = timeNs s ∧ getF m (.slot n) Slot.FEPOCH = timeEpoch s ∧
      (late = true → getF m (.slot n) Slot.STATUS_LATE = 1 ∧ getF m (.slot n) Slot.LATE = lateBy) ∧
      (late = false → getF m (.slot n) Slot.STATUS_LATE = getF s (.slot n) Slot.STATUS_LATE) ∧
      (period = 0 → getF m (.slot n) Slot.STATUS_STATE = 2 ∧ getF m (.slot n) Slot.TARGET = target) ∧
      (period ≠ 0 → getF m (.slot n) Slot.STATUS_STATE = 1 ∧
        getF m (.slot n) Slot.TARGET = (target + period) % 2 ^ 32) ∧
      exec (.slotFire n) s = .next (slotAction n target (bitOf late) (slotSignal n
        (slotEvent n (bitOf late) target (timeNs s) (if late then lateBy else 0) m)))) ∧
  (∀ (n : Fin 64) (s : State), passed s (getF s (.slot n) Slot.TARGET) = false → s.slotLate[n] = false →
    (∀ m < n, slotDue s m = false) → exec (.slotFire n) s = .next s) ∧
  (∀ (n : Fin 64) (s : State),
    ∃ u, u = forAll ((List.finRange 64).filter (· < n)) slotFireOne s ∧ exec (.slotFire n) s = .next (slotFireOne n u) ∧
      (slotDue u n = true → u.slotOff[n] = true →
        ∃ t, exec (.slotFire n) s = .next t ∧ getF t (.slot n) Slot.STATUS_STATE = 0))) ∧
  (
  ∀ (d : Int) (n : Fin 64) (s : State), getF s (.slot n) Slot.STATUS_STATE = 1 →
    let t := slotStep d n s
    (getF s (.slot n) Slot.CFG_NETTIME = 0 →
      getF t (.slot n) Slot.TARGET = (((getF s (.slot n) Slot.TARGET : Int) + d) % 2 ^ 32).toNat ∧
      getF t (.slot n) Slot.STATUS_SHIFT = 1 ∧ getF t (.slot n) Slot.STATUS_STATE = 1 ∧
      t = { s with regs := t.regs, fresh := t.fresh }) ∧
    (getF s (.slot n) Slot.CFG_NETTIME = 1 → passed s (getF s (.slot n) Slot.TARGET) = false → t = s))

/-! ### Excitation (chapter 3) -/

/-- From R79, R80, R87. Rows EXG_ENABLE, EXG_DISABLE and EXG_AMP_WRITE, accepted. EN going to 1 clears LIMCNT and takes a generator
in OFF to RAMP from amplitude 0, or to SAFE while a cause holds, and one in STOPPING back to RAMP; EN going to 0 takes RAMP and
ON to STOPPING, and RETRY_WAIT and TRIPPED to OFF; EXG_AMP holds the amplitude written, at most 8,000. Where the same fabric
cycle has taken another row of the table of R79, the states are those before that row, and the lower row stands. -/
def Obligations.GeneratorCommands : Prop :=
  ∀ (ag : Agent) (n : Fin 16) (w : Word) (s : State),
    let base := exgBase s n true
    let wins : Nat → Prop := fun row => ∀ p, exgPrior s n true = some p → p.row < row
    (Accepts ag (.exg n) 8 w s → fieldOf w Exg.CTRL_EN = 1 → getF s (.exg n) Exg.CTRL_EN = 0 →
      ∃ t, exec (.exgEnable ag n w) s = .next t ∧ t = { s with regs := t.regs, exg := t.exg } ∧
        getF t (.exg n) Exg.CTRL_EN = 1 ∧ getF t (.exg n) Exg.COUNT_LIMCNT = 0 ∧
        (base = 0 → wins 1 → exgCause s n = false → getF t (.exg n) Exg.STATUS_STATE = 1 ∧ (t.exg[n]).amp = 0) ∧
        (base = 0 → wins 11 → exgCause s n = true → getF t (.exg n) Exg.STATUS_STATE = 6) ∧
        (base = 3 → wins 5 → getF t (.exg n) Exg.STATUS_STATE = 1) ∧
        (base ≠ 0 → base ≠ 3 → getF t (.exg n) Exg.STATUS_STATE = getF s (.exg n) Exg.STATUS_STATE)) ∧
    (Accepts ag (.exg n) 8 w s → fieldOf w Exg.CTRL_EN = 0 → getF s (.exg n) Exg.CTRL_EN = 1 →
      ∃ t, exec (.exgDisable ag n w) s = .next t ∧ t = { s with regs := t.regs, exg := t.exg } ∧
        getF t (.exg n) Exg.CTRL_EN = 0 ∧
        (base = 1 ∨ base = 2 → wins 3 → getF t (.exg n) Exg.STATUS_STATE = 3 ∧
          (exgPrior s n true = none → (t.exg[n]).amp = (s.exg[n]).amp)) ∧
        (base = 4 ∨ base = 5 → wins 9 → getF t (.exg n) Exg.STATUS_STATE = 0 ∧ (t.exg[n]).amp = 0)) ∧
    (Accepts ag (.exg n) 0x14 w s →
      ∃ t, exec (.exgAmpWrite ag n w) s = .next t ∧ t = { s with regs := t.regs } ∧
        getF t (.exg n) Exg.AMP = min 8000 (fieldOf w Exg.AMP) ∧
        getF t (.exg n) Exg.STATUS_STATE = getF s (.exg n) Exg.STATUS_STATE)

/-- From R77, R79, R83 to R85, R87. Rows EXG_LIMIT_EVENT, EXG_SHORT_CIRCUIT, EXG_RETRY_TIMEOUT, EXG_RETRY_CLEAR, VEXC_UNDERVOLTAGE and
VEXC_RECOVER, each where its event is due: a limit event sets LIMEV and counts; 2 ms of limiting set SC with its alarm, and trip
the generator, make it wait for a retry while retries are left, or restart the timer; a retry ramps again and counts; 1 s in
ON without a limit event clears RETRIES; an undervoltage of VEXC is a safe-state cause of every generator. The statements of a short
circuit and of a retry are about a fabric cycle in which the generator has taken no other row; what RETRIES holds after
255 is a free value (log 129), and that a short circuit in another state than RAMP and ON ends the timer and changes no state is
the model's choice (log 43). In a sentinel burst a limit event starts no timer (R94). VEXC that passes a threshold while the region
has no clock is taken up when it has one. -/
def Obligations.GeneratorProtection : Prop :=
  (∀ (n : Fin 16) (s : State), live s (.exg n) = true → exgDrives s n = true → (s.exg[n]).burst = 0 →
    ∃ t, exec (.exgLimitEvent n) s = .next t ∧ t = { s with regs := t.regs, fresh := t.fresh, exg := t.exg } ∧
      getF t (.exg n) Exg.STATUS_LIMEV = 1 ∧
      getF t (.exg n) Exg.COUNT_LIMCNT = min (2 ^ 24 - 1) (getF s (.exg n) Exg.COUNT_LIMCNT + 1) ∧
      (t.exg[n]).limited = true ∧ (t.exg[n]).low = true ∧ (t.exg[n]).scAt = some ((s.exg[n]).scAt.getD s.elapsed)) ∧
  (∀ (n : Fin 16) (s : State), 0 < (s.exg[n]).burst → exgDrives s n = true →
    ∃ t, exec (.exgLimitEvent n) s = .next t ∧ t = { s with regs := t.regs, fresh := t.fresh, exg := t.exg } ∧
      getF t (.exg n) Exg.STATUS_LIMEV = 1 ∧ (t.exg[n]).low = true ∧ (t.exg[n]).scAt = none) ∧
  (∀ (n : Fin 16) (s : State), live s (.exg n) = true → scDue s (s.exg[n]).scAt = true → exgPrior s n false = none →
    let u := raiseAlarm 0x0301 (blkBase (.exg n)) 1 false (raiseF (.exg n) Exg.STATUS_SC s)
    let st := getF s (.exg n) Exg.STATUS_STATE
    let mx := getF s (.exg n) Exg.CTRL_RETRYMAX
    ∃ t, exec (.exgShortCircuit n) s = .next t ∧ getF t (.exg n) Exg.STATUS_SC = 1 ∧
      (getF s (.exg n) Exg.CTRL_SCMODE = 1 → t = modExg n (fun x => { x with scAt := some s.elapsed }) u) ∧
      (getF s (.exg n) Exg.CTRL_SCMODE = 0 → (st = 1 ∨ st = 2) → getF s (.exg n) Exg.CTRL_RETRY = 0 →
        t = { u with regs := t.regs, exg := t.exg } ∧ RegsBut [(.exg n, Exg.STATUS_STATE)] u t ∧
        getF t (.exg n) Exg.STATUS_STATE = 5 ∧ (t.exg[n]).amp = 0 ∧ (t.exg[n]).scAt = none) ∧
      (getF s (.exg n) Exg.CTRL_SCMODE = 0 → (st = 1 ∨ st = 2) → getF s (.exg n) Exg.CTRL_RETRY = 1 →
        (mx = 0 ∨ getF s (.exg n) Exg.COUNT_RETRIES < mx) →
        t = { u with regs := t.regs, exg := t.exg } ∧ RegsBut [(.exg n, Exg.STATUS_STATE)] u t ∧
        getF t (.exg n) Exg.STATUS_STATE = 4 ∧ (t.exg[n]).amp = 0 ∧ (t.exg[n]).retryAt = s.elapsed) ∧
      (getF s (.exg n) Exg.CTRL_SCMODE = 0 → (st = 1 ∨ st = 2) → getF s (.exg n) Exg.CTRL_RETRY = 1 →
        mx ≠ 0 → mx ≤ getF s (.exg n) Exg.COUNT_RETRIES →
        getF t (.exg n) Exg.STATUS_STATE = 5 ∧ getF t (.exg n) Exg.STATUS_RETRYFAIL = 1 ∧
        ∃ v, t = raiseAlarm 0x0302 (blkBase (.exg n)) 2 false v ∧ (v.exg[n]).amp = 0) ∧
      (getF s (.exg n) Exg.CTRL_SCMODE = 0 → st ≠ 1 → st ≠ 2 → t = modExg n (fun x => { x with scAt := none }) u)) ∧
  (∀ (n : Fin 16) (s : State), live s (.exg n) = true → getF s (.exg n) Exg.STATUS_STATE = 4 →
    exgPrior s n false = none → 100000000 ≤ sinceNs s (s.exg[n]).retryAt →
    ∃ t, exec (.exgRetryTimeout n) s = .next t ∧ t = { s with regs := t.regs, exg := t.exg, free := t.free } ∧
      getF t (.exg n) Exg.STATUS_STATE = 1 ∧ (t.exg[n]).amp = 0 ∧
      (getF s (.exg n) Exg.COUNT_RETRIES < 255 →
        getF t (.exg n) Exg.COUNT_RETRIES = getF s (.exg n) Exg.COUNT_RETRIES + 1 ∧ t.free = s.free) ∧
      (getF s (.exg n) Exg.COUNT_RETRIES = 255 → getF t (.exg n) Exg.COUNT_RETRIES = freeVal s % 256)) ∧
  (∀ (n : Fin 16) (s : State), live s (.exg n) = true → getF s (.exg n) Exg.STATUS_STATE = 2 →
    1000000000 ≤ sinceNs s (s.exg[n]).cleanAt →
    ∃ t, exec (.exgRetryClear n) s = .next t ∧ t = { s with regs := t.regs } ∧ getF t (.exg n) Exg.COUNT_RETRIES = 0 ∧
      RegsBut [(.exg n, Exg.COUNT_RETRIES)] s t) ∧
  (∀ (mv : Nat) (s : State), clocked s .port = true → mv < 7500 →
    ∃ u, exec (.vexcUndervoltage mv) s = .next (refreshOutputs u) ∧ u.pwr = { s.pwr with vexcLow := true } ∧
      ∀ n : Fin 16, (u.exg[n]).vuv = true ∧ getF u (.exg n) Exg.VEXC = mv ∧
        ((s.exg[n]).vuv = false → getF u (.exg n) Exg.STATUS_VUV = 1)) ∧
  (∀ (mv : Nat) (s : State), clocked s .port = true → 7800 < mv →
    ∃ u, exec (.vexcRecover mv) s = .next (refreshOutputs u) ∧ u.pwr = { s.pwr with vexcLow := false } ∧
      ∀ n : Fin 16, (u.exg[n]).vuv = false) ∧
  (∀ (mv : Nat) (s : State), clocked s .port = false →
    (mv < 7500 → exec (.vexcUndervoltage mv) s = .next { s with pwr := { s.pwr with vexcLow := true } }) ∧
    (7800 < mv → exec (.vexcRecover mv) s = .next { s with pwr := { s.pwr with vexcLow := false } }))

/-- From R88 to R92. Rows AO_ENABLE, AO_DISABLE, AO_CODE_WRITE, AO_RANGE_CHANGE, OCCULT_HOLD_END, AO_RAIL_SWITCH, AO_RANGE_RAMP_DONE,
AO_LIMIT_EVENT, AO_SHORT_CIRCUIT, AO_RETRY_TIMEOUT and AO_RETRY_CLEAR, each accepted or due. That a pin which stops applies code
0, and that the restart after RETRY_WAIT applies AO_RESET_CODE, are the model's choices (log 28). -/
def Obligations.AnalogueOutputs : Prop :=
  (∀ (ag : Agent) (n : Fin 8) (w : Word) (s : State), Accepts ag (.ao n) 8 w s → fieldOf w Ao.CTRL_EN = 1 →
    getF s (.ao n) Ao.CTRL_EN = 0 →
    ∃ t, exec (.aoEnable ag n w) s = .next t ∧ t = { s with regs := t.regs, ao := t.ao } ∧
      (outCause s (.ao n) = false → getF t (.ao n) Ao.STATUS_STATE = 1 ∧
        getF t (.ao n) Ao.STATUS_APPLIED = getF s (.ao n) Ao.RESET_CODE ∧
        getF t (.ao n) Ao.CODE = getF s (.ao n) Ao.RESET_CODE) ∧
      (outCause s (.ao n) = true → getF t (.ao n) Ao.STATUS_STATE = 6)) ∧
  (∀ (ag : Agent) (n : Fin 8) (w : Word) (s : State), Accepts ag (.ao n) 8 w s → fieldOf w Ao.CTRL_EN = 0 →
    getF s (.ao n) Ao.CTRL_EN = 1 → getF s (.ao n) Ao.STATUS_STATE ≠ 6 →
    ∃ t, exec (.aoDisable ag n w) s = .next t ∧ t = { s with regs := t.regs, ao := t.ao } ∧
      getF t (.ao n) Ao.STATUS_STATE = 0 ∧ getF t (.ao n) Ao.CTRL_EN = 0) ∧
  (∀ (ag : Agent) (n : Fin 8) (w : Word) (s : State), Accepts ag (.ao n) 0xC w s → getF s (.ao n) Ao.CTRL_SRC = 0 →
    ∃ t, exec (.aoCodeWrite ag n w) s = .next t ∧ t = { s with regs := t.regs, ao := t.ao } ∧
      getF t (.ao n) Ao.CODE = fieldOf w Ao.CODE ∧
      (let old := getF s (.ao n) Ao.STATUS_APPLIED
       let new := fieldOf w Ao.CODE
       let far := getF s (.ao n) Ao.DGL_THRESH < (if old ≤ new then new - old else old - new)
       getF s (.ao n) Ao.STATUS_STATE = 1 →
        (getF s (.ao n) Ao.DGL_EN = 1 → far → getF t (.ao n) Ao.STATUS_STATE = 2 ∧ (t.ao[n]).pend = new ∧
          getF t (.ao n) Ao.STATUS_APPLIED = old) ∧
        (getF s (.ao n) Ao.DGL_EN = 0 ∨ ¬ far →
          getF t (.ao n) Ao.STATUS_STATE = 1 ∧ getF t (.ao n) Ao.STATUS_APPLIED = new))) ∧
  (∀ (ag : Agent) (n : Fin 8) (w : Word) (s : State), Accepts ag (.ao n) 8 w s → fieldOf w Ao.CTRL_EN = 1 →
    getF s (.ao n) Ao.CTRL_EN = 1 → fieldOf w Ao.CTRL_RANGE ≠ getF s (.ao n) Ao.CTRL_RANGE →
    (getF s (.ao n) Ao.STATUS_STATE = 1 ∨ getF s (.ao n) Ao.STATUS_STATE = 2) →
    ∃ t, exec (.aoRangeChange ag n w) s = .next t ∧ t = { s with regs := t.regs, ao := t.ao } ∧
      getF t (.ao n) Ao.STATUS_STATE = 3 ∧ getF t (.ao n) Ao.STATUS_APPLIED = getF s (.ao n) Ao.OCCULT ∧
      (t.ao[n]).rstep = 1 ∧ (t.ao[n]).rcnt = 0 ∧ (t.ao[n]).rnew = fieldOf w Ao.CTRL_RANGE ∧
      (t.ao[n]).rail = (s.ao[n]).rail) ∧
  (∀ (n : Fin 8) (s : State), live s (.ao n) = true → getF s (.ao n) Ao.STATUS_STATE = 2 → (s.ao[n]).hold = 0 →
    ∃ t, exec (.occultHoldEnd n) s = .next t ∧ t = { s with regs := t.regs, fresh := t.fresh } ∧
      getF t (.ao n) Ao.STATUS_STATE = 1 ∧ getF t (.ao n) Ao.FLAGS_HOLDEV = 1 ∧
      getF t (.ao n) Ao.STATUS_APPLIED = (s.ao[n]).pend % 2 ^ Ao.STATUS_APPLIED.width) ∧
  (∀ (n : Fin 8) (s : State), live s (.ao n) = true → getF s (.ao n) Ao.STATUS_STATE = 3 → (s.ao[n]).rstep = 1 →
    8 ≤ (s.ao[n]).rcnt →
    ∃ t, exec (.aoRailSwitch n) s = .next t ∧ t = { s with ao := t.ao } ∧ (t.ao[n]).rail = (s.ao[n]).rnew ∧
      (t.ao[n]).rstep = 2 ∧ (t.ao[n]).rcnt = 0) ∧
  (∀ (n : Fin 8) (s : State), live s (.ao n) = true → getF s (.ao n) Ao.STATUS_STATE = 3 → (s.ao[n]).rstep = 2 →
    20 ≤ (s.ao[n]).rcnt → getF s (.ao n) Ao.CTRL_RANGE = (s.ao[n]).rail →
    ∃ t, exec (.aoRangeRampDone n) s = .next t ∧ t = { s with regs := t.regs, ao := t.ao } ∧
      getF t (.ao n) Ao.STATUS_STATE = 1 ∧ getF t (.ao n) Ao.STATUS_APPLIED = getF s (.ao n) Ao.CODE) ∧
  (∀ (n : Fin 8) (s : State), live s (.ao n) = true → aoDrives s n = true →
    ∃ t, exec (.aoLimitEvent n) s = .next t ∧ t = { s with regs := t.regs, fresh := t.fresh, ao := t.ao } ∧
      getF t (.ao n) Ao.FLAGS_LIMEV = 1 ∧ (t.ao[n]).limAt = s.elapsed) ∧
  (∀ (n : Fin 8) (s : State), live s (.ao n) = true → aoDrives s n = true → scDue s (s.ao[n]).scAt = true →
    sinceNs s (s.ao[n]).limAt < 256000 → getF s (.ao n) Ao.CTRL_SCMODE = 0 →
    let u := raiseAlarm 0x0303 (blkBase (.ao n)) 1 false (raiseF (.ao n) Ao.FLAGS_SC s)
    (getF s (.ao n) Ao.CTRL_RETRY = 0 → exec (.aoShortCircuit n) s = .next (aoStop n 5 u)) ∧
    (getF s (.ao n) Ao.CTRL_RETRY = 1 → (s.ao[n]).retries < 3 →
      exec (.aoShortCircuit n) s = .next (modAo n (fun x => { x with retryAt := s.elapsed }) (aoStop n 4 u)))) ∧
  (∀ (n : Fin 8) (s : State), live s (.ao n) = true → getF s (.ao n) Ao.STATUS_STATE = 4 →
    100000000 ≤ sinceNs s (s.ao[n]).retryAt →
    ∃ t, exec (.aoRetryTimeout n) s = .next t ∧ t = { s with regs := t.regs, ao := t.ao } ∧
      getF t (.ao n) Ao.STATUS_STATE = 1 ∧ (t.ao[n]).retries = (s.ao[n]).retries + 1 ∧
      getF t (.ao n) Ao.STATUS_APPLIED = getF s (.ao n) Ao.RESET_CODE) ∧
  (∀ (n : Fin 8) (s : State), live s (.ao n) = true → getF s (.ao n) Ao.STATUS_STATE = 1 →
    1000000000 ≤ sinceNs s (s.ao[n]).cleanAt →
    ∃ t, exec (.aoRetryClear n) s = .next t ∧ t = { s with ao := t.ao } ∧ (t.ao[n]).retries = 0)

/-- From R31, R74, R75, R79, R80, R86, R94, R134, R337. Rows CARRIER_CYCLE_END and PWM_PERIOD_END. Where the last tick carried the phase of a
generator through its crossing, once: a generator in RAMP, ON or STOPPING moves
its amplitude one step towards its target and publishes its currents: RAMP ends in ON at the target amplitude, STOPPING in
OFF at 0; the channels that take their reference from it then close their cycles. In a sentinel burst a cycle that the burst's own
phase has passed is counted off, and the currents are published. At a PWM period boundary VEXC is measured (a free value: the
row names no measurement, log 29); the AO stream, the legs and the pins advance in turn, the legs of a burst alone in
DORMANT. -/
def Obligations.CarrierAndPwm : Prop :=
  (∀ (g : Fin 16) (irms ipk : Nat) (s : State), live s (.exg g) = true → clocked s .acquisition = true →
    bursting s = false → cycleDue s g = true → exgPrior s g false = none →
    ∃ u, exec (.carrierCycleEnd g irms ipk) s
        = .next (forAll (List.finRange 16) (channelCycle g (s.exg[g]).limited) u) ∧
      u = { s with regs := u.regs, exg := u.exg } ∧ (u.exg[g]).endCyc = some s.cycle ∧ cycleDue u g = false ∧
      getF u (.exg g) Exg.IRMS = min (2 ^ 20 - 1) irms ∧ getF u (.exg g) Exg.IPK = min (2 ^ 20 - 1) ipk ∧
      (let step : Rat := 8000 / (getF s (.exg g) Exg.CTRL_RAMP : Rat)
       let target : Rat := (getF s (.exg g) Exg.AMP : Rat)
       let up := rampTo target (s.exg[g]).amp step
       let down := rampTo 0 (s.exg[g]).amp step
       (getF s (.exg g) Exg.STATUS_STATE = 1 → (u.exg[g]).amp = up ∧
          (up = target → getF u (.exg g) Exg.STATUS_STATE = 2) ∧ (up ≠ target → getF u (.exg g) Exg.STATUS_STATE = 1)) ∧
       (getF s (.exg g) Exg.STATUS_STATE = 2 → (u.exg[g]).amp = up ∧ getF u (.exg g) Exg.STATUS_STATE = 2) ∧
       (getF s (.exg g) Exg.STATUS_STATE = 3 → (u.exg[g]).amp = down ∧
          (down = 0 → getF u (.exg g) Exg.STATUS_STATE = 0) ∧ (down ≠ 0 → getF u (.exg g) Exg.STATUS_STATE = 3)))) ∧
  (∀ (g : Fin 16) (irms ipk : Nat) (s : State), bursting s = true → cycleDue s g = true →
    ∃ t, exec (.carrierCycleEnd g irms ipk) s = .next t ∧ t = { s with regs := t.regs, exg := t.exg } ∧
      (t.exg[g]).burst + 1 = (s.exg[g]).burst ∧ getF t (.exg g) Exg.IRMS = min (2 ^ 20 - 1) irms ∧
      getF t (.exg g) Exg.IPK = min (2 ^ 20 - 1) ipk ∧ RegsBut [(.exg g, Exg.IRMS), (.exg g, Exg.IPK)] s t) ∧
  (∀ (g : Fin 16) (irms ipk : Nat) (s : State), cycleDue s g = false → exec (.carrierCycleEnd g irms ipk) s = .next s) ∧
  (∀ s : State,
    ∃ u, u = vexcPeriod s ∧ (∀ n : Fin 16, getF u (.exg n) Exg.VEXC = freeVal s % 2 ^ 16) ∧
      (clocked s .port = true → exec .pwmPeriodEnd s
        = .next (forAll (List.finRange 8) aoPeriod (forAll (List.finRange 16) exgPeriod (aoStream u)))) ∧
      (clocked s .port = false → bursting s = true →
        exec .pwmPeriodEnd s = .next (forAll (List.finRange 16) exgPeriod u)) ∧
      (clocked s .port = false → bursting s = false → exec .pwmPeriodEnd s = .next s))

/-! ### Reads that capture (chapter 1 and the blocks' chapters) -/

/-- From R7, R34, R44, R125, R145, R198, R216, R228, R247, R263, R293. Rows TIME_NS_READ, AI_VALUE_READ, AI_RMS_READ, RC_ANGLE_READ,
LATCH_TIME_READ, RS_TSERVO_READ, AXIS_POS_READ, LOOP_U_READ, CAP_WP_READ and LE_CYC_READ, of a block that can be read: the host
receives the word the register shows, the registers of its snapshot capture the same sample, and no state but the snapshot
registers named and the answer changes.
From R345, R360, R369, R385, R443. Rows ALARM_ENTRY_READ, MB_STATE_READ, ETH_RXTS_READ, ETH_TXTS_READ, SENSOR_TIME_READ and
EVC_LO_READ, as above. -/
def Obligations.SnapshotReads : Prop :=
  (
  (∀ s : State, Readable s .time →
    ∃ t, exec .timeNsRead s = .next t ∧ t = { s with regs := t.regs, answer := wordOf (timeNs s) } ∧
      RegsBut [(.time, Time.SUB), (.time, Time.SEC_LO), (.time, Time.SEC_HI), (.time, Time.EPOCH)] s t ∧
      getF t .time Time.SUB = timeSub s ∧ getF t .time Time.SEC_LO = timeSec s % 2 ^ 32 ∧
      getF t .time Time.SEC_HI = timeSec s / 2 ^ 32 ∧ getF t .time Time.EPOCH = timeEpoch s) ∧
  (∀ (n : Fin 8) (s : State), Readable s (.ai n) →
    ∃ t, exec (.aiValueRead n) s = .next t ∧ t = { s with regs := t.regs, answer := wordOf (getF s (.ai n) Ai.VALUE) } ∧
      RegsBut [(.ai n, Ai.TSTAMP)] s t ∧ getF t (.ai n) Ai.TSTAMP = (s.ai[n]).valT % 2 ^ 32) ∧
  (∀ (n : Fin 8) (s : State), Readable s (.ai n) →
    ∃ t, exec (.aiRmsRead n) s = .next t ∧ t = { s with regs := t.regs, answer := wordOf (getF s (.ai n) Ai.RMS) } ∧
      RegsBut [(.ai n, Ai.MEAN), (.ai n, Ai.RTSTAMP)] s t ∧ getF t (.ai n) Ai.RTSTAMP = (s.ai[n]).meanT % 2 ^ 32 ∧
      getF t (.ai n) Ai.MEAN = ofSigned 32 (s.ai[n]).mean) ∧
  (∀ (n : Fin 16) (s : State), Readable s (.rc n) →
    ∃ t, exec (.rcAngleRead n) s = .next t ∧
      t = { s with regs := t.regs, answer := wordOf (storedWord s (.rc n) Rc.ANGLE_ANGLE.off) } ∧
      RegsBut [(.rc n, Rc.TURNS), (.rc n, Rc.VEL), (.rc n, Rc.TSTAMP), (.rc n, Rc.SEPOCH)] s t ∧
      getF t (.rc n) Rc.TURNS = ofSigned 32 (s.rc[n]).pub.turns ∧
      getF t (.rc n) Rc.SEPOCH = (s.rc[n]).pub.epoch % 2 ^ Rc.SEPOCH.width ∧
      getF t (.rc n) Rc.VEL = ofSigned Rc.VEL.width (s.rc[n]).pub.vel % 2 ^ Rc.VEL.width ∧
      getF t (.rc n) Rc.TSTAMP = (s.rc[n]).pub.t % 2 ^ 32) ∧
  (∀ (n : Fin 32) (s : State), Readable s (.lu n) →
    ∃ t, exec (.latchTimeRead n) s = .next t ∧
      t = { s with regs := t.regs, answer := wordOf (storedWord s (.lu n) Lu.TIME.off) } ∧
      RegsBut [(.lu n, Lu.REC0), (.lu n, Lu.POS_LO), (.lu n, Lu.POS_HI)] s t ∧
      getF t (.lu n) Lu.POS_LO = (s.lu[n]).recPos % 2 ^ 32) ∧
  (∀ (n : Fin 16) (s : State), Readable s (.rs n) →
    ∃ t, exec (.rsTservoRead n) s = .next t ∧
      t = { s with regs := t.regs, answer := wordOf (storedWord s (.rs n) Rs.TSERVO.off) } ∧
      RegsBut [(.rs n, Rs.POS_LO), (.rs n, Rs.POS_HI), (.rs n, Rs.VEL), (.rs n, Rs.W0), (.rs n, Rs.SHOUT), (.rs n, Rs.LEAD),
        (.rs n, Rs.EPOCH)] s t ∧
      getF t (.rs n) Rs.POS_LO = ofSigned 64 (s.rs[n]).posOut % 2 ^ 32 ∧
      getF t (.rs n) Rs.POS_HI = ofSigned 64 (s.rs[n]).posOut / 2 ^ 32 ∧
      getF t (.rs n) Rs.VEL = ofSigned Rs.VEL.width (s.rs[n]).velOut % 2 ^ Rs.VEL.width ∧
      getF t (.rs n) Rs.SHOUT = ofSigned Rs.SHOUT.width (s.rs[n]).shOut % 2 ^ Rs.SHOUT.width) ∧
  (∀ (n : Fin 16) (s : State), Readable s (.ax n) →
    ∃ t, exec (.axisPosRead n) s = .next t ∧
      t = { s with regs := t.regs, answer := wordOf (ofSigned 64 (s.ax[n]).del.pos % 2 ^ 32) } ∧
      RegsBut [(.ax n, Ax.POS_HI), (.ax n, Ax.VEL), (.ax n, Ax.TS), (.ax n, Ax.STAT)] s t ∧
      getF t (.ax n) Ax.POS_HI = ofSigned 64 (s.ax[n]).del.pos / 2 ^ 32 ∧ getF t (.ax n) Ax.TS = (s.ax[n]).del.t % 2 ^ 32) ∧
  (∀ (n : Fin 64) (s : State), Readable s (.lp n) →
    ∃ t, exec (.loopURead n) s = .next t ∧ t = { s with regs := t.regs, answer := wordOf (storedWord s (.lp n) Lp.U.off) } ∧
      RegsBut [(.lp n, Lp.E), (.lp n, Lp.I), (.lp n, Lp.R_LO), (.lp n, Lp.R_HI), (.lp n, Lp.TU)] s t ∧
      getF t (.lp n) Lp.E = ofSigned Lp.E.width (s.lp[n]).e % 2 ^ Lp.E.width ∧
      getF t (.lp n) Lp.R_LO = ofSigned 64 (s.lp[n]).rEval % 2 ^ 32 ∧
      getF t (.lp n) Lp.R_HI = ofSigned 64 (s.lp[n]).rEval / 2 ^ 32 ∧
      getF t (.lp n) Lp.TU = (s.lp[n]).inst % 2 ^ Lp.TU.width) ∧
  (∀ s : State, Readable s .cap →
    ∃ t, exec .capWpRead s = .next t ∧ t = { s with regs := t.regs, answer := wordOf (storedWord s .cap Cap.WP.off) } ∧
      RegsBut [(.cap, Cap.WRAPS), (.cap, Cap.OVR), (.cap, Cap.RP)] s t ∧
      getF t .cap Cap.WRAPS = s.cap.wraps % 2 ^ Cap.WRAPS.width ∧ getF t .cap Cap.OVR = s.cap.ovr % 2 ^ Cap.OVR.width ∧
      getF t .cap Cap.RP = s.cap.rp % 2 ^ Cap.RP.width) ∧
  (∀ (k : Fin 8) (s : State), Readable s (.le k) →
    ∃ t, exec (.leCycRead k) s = .next t ∧ t = { s with regs := t.regs, answer := wordOf ((s.le[k]).cyc % 2 ^ 32) } ∧
      RegsBut [(.le k, Le.CYC_HI)] s t ∧ getF t (.le k) Le.CYC_HI = (s.le[k]).cyc / 2 ^ 32 % 2 ^ 32)) ∧
  (
  (∀ (i : Fin 132) (s : State), Readable s .ec →
    ∃ t, exec (.alarmEntryRead i) s = .next t ∧ t = { s with regs := t.regs, answer := wordOf (alarmWord (s.alarms[i])) } ∧
      RegsBut [(.ec, Ec.AT1 i), (.ec, Ec.AT2 i), (.ec, Ec.AT3 i), (.ec, Ec.AT4 i), (.ec, Ec.AT5_LASTEP i),
        (.ec, Ec.AT5_FIRSTEP i)] s t ∧
      getF t .ec (Ec.AT4 i) = (s.alarms[i]).count % 2 ^ 32 ∧
      getF t .ec (Ec.AT1 i) = (s.alarms[i]).src % 2 ^ 32 ∧ getF t .ec (Ec.AT2 i) = (s.alarms[i]).first % 2 ^ 32 ∧
      getF t .ec (Ec.AT3 i) = (s.alarms[i]).last % 2 ^ 32) ∧
  (∀ s : State, Readable s .mb →
    ∃ t, exec .mbStateRead s = .next t ∧ t = { s with regs := t.regs, answer := wordOf (storedWord s .mb 0x80) } ∧
      RegsBut ((List.range 14).map (fun i => (Blk.mb, Mb.RES i))) s t ∧ ∀ i, i < 14 → getF t .mb (Mb.RES i) = (s.hp.mbWords.getD i 0).toNat) ∧
  (∀ (p : Fin 2) (s : State), Readable s (.eth p) →
    ∃ t, exec (.ethRxtsRead p) s = .next t ∧
      t = { s with regs := t.regs, answer := wordOf (storedWord s (.eth p) Eth.RXTS.off) } ∧
      RegsBut [(.eth p, Eth.RXTS_SEC)] s t ∧ getF t (.eth p) Eth.RXTS_SEC = (s.eth[p]).rxSec % 2 ^ Eth.RXTS_SEC.width) ∧
  (∀ (p : Fin 2) (s : State), Readable s (.eth p) →
    ∃ t, exec (.ethTxtsRead p) s = .next t ∧
      t = { s with regs := t.regs, answer := wordOf (storedWord s (.eth p) Eth.TXTS.off) } ∧
      RegsBut [(.eth p, Eth.TXTS_SEC)] s t ∧ getF t (.eth p) Eth.TXTS_SEC = (s.eth[p]).txSec % 2 ^ Eth.TXTS_SEC.width) ∧
  (∀ s : State, Readable s .sns →
    ∃ t, exec .sensorTimeRead s = .next t ∧ t = { s with regs := t.regs, answer := wordOf (storedWord s .sns Sns.TIME.off) } ∧
      RegsBut ([Sns.TJ, Sns.TJ0, Sns.TJ1, Sns.TJ2, Sns.TJ3, Sns.VIN, Sns.VEXC, Sns.VIO, Sns.VCORE, Sns.AVDD, Sns.VREF, Sns.VAON,
        Sns.TMAX].map (fun f => (Blk.sns, f))) s t ∧
      getF t .sns Sns.TJ = (s.keeper.sample.toList.getD 0 0) % 2 ^ Sns.TJ.width ∧
      getF t .sns Sns.TMAX = (s.keeper.sample.toList.getD 12 0) % 2 ^ Sns.TMAX.width) ∧
  (∀ (n : Fin 32) (s : State), Readable s .evc →
    ∃ t, exec (.evcLoRead n) s = .next t ∧ t = { s with regs := t.regs, answer := wordOf (evcCount s n % 2 ^ 32) } ∧
      RegsBut [(.evc, Evc.EVCN_HI n)] s t ∧ getF t .evc (Evc.EVCN_HI n) = evcCount s n / 2 ^ 32))

/-! ### The filter engine and the sentinel (chapters 4 and 19) -/

/-- From R96, R100, R425. Rows MODULATOR_OVERLOAD, MODULATOR_STUCK and MODULATOR_CLOCK_FAULT of a lane that runs, or
that takes part in a sentinel burst: the flag of the lane is
set; an overload marks the samples whose impulse response holds the clock, a stuck modulator starts the time the STUCK
monitor watches (its length is the model's choice, log 59), and a clock fault makes the frame's samples INVALID and reports
BLK_ERR.CELL. In a sentinel burst the overload and the clock fault are kept with their time from the enable, for the samples that
are combed later.
From R99, R101, R104 to R106, R111, R113, R115, R117, R119, R125. Rows FE_SCHEDULE, AI_RMS_WINDOW_END, AI_ENABLE and AI_RMSW_WRITE. A
schedule serves the sample instant whose decimation tick has come last, once: each channel served whose converter runs gets
one hand-off of that instant, and the eight auxiliary slots follow at their times. A full RMS window publishes the square root of the mean square, the
mean and the time of the newest sample, and starts an empty window. An input that becomes enabled starts its lane with four
INVALID samples, its window event armed (the model's choice, log 132); a write of the window length abandons the window in
progress. What the bits of a schedule are where they are fewer or more than a frame's is the model's choice (log 130). -/
def Obligations.AcquisitionRows : Prop :=
  (
  (∀ (l : Fin 40) (s : State), (laneRuns s l = true ∨ burstLane s l = true) →
    ∃ t, exec (.modulatorOverload l) s = .next t ∧
      t = { s with regs := t.regs, fresh := t.fresh, lanes := t.lanes, ai := t.ai } ∧ (l.val < 32 → t.ai = s.ai) ∧
      (burstLane s l = false → (s.lanes[l]).ovl ≤ (t.lanes[l]).ovl ∧ 2 ≤ (t.lanes[l]).ovl) ∧
      (burstLane s l = true → t.lanes[l] = { s.lanes[l] with burstOvl := burstNs s l :: (s.lanes[l]).burstOvl }) ∧ (∀ m : Fin 40, m ≠ l → t.lanes[m] = s.lanes[m]) ∧
      (∀ n : Fin 16, l.val = 2 * n.val → getF t (.rc n) Rc.MODSTAT_OVL_S = 1 ∧ RegsBut [(.rc n, Rc.MODSTAT_OVL_S)] s t) ∧
      (∀ n : Fin 16, l.val = 2 * n.val + 1 →
        getF t (.rc n) Rc.MODSTAT_OVL_C = 1 ∧ RegsBut [(.rc n, Rc.MODSTAT_OVL_C)] s t) ∧
      (∀ k : Fin 8, l.val = 32 + k.val → getF t (.ai k) Ai.STATUS_OVL = 1 ∧ RegsBut [(.ai k, Ai.STATUS_OVL)] s t ∧
        ∀ j : Fin 8, j ≠ k → t.ai[j] = s.ai[j])) ∧
  (∀ (l : Fin 40) (s : State), (laneRuns s l = true ∨ burstLane s l = true) →
    ∃ t, exec (.modulatorStuck l) s = .next t ∧ t = { s with regs := t.regs, fresh := t.fresh, rc := t.rc } ∧
      (∀ n : Fin 16, l.val = 2 * n.val →
        getF t (.rc n) Rc.MODSTAT_STUCK_S = 1 ∧ (t.rc[n]).stuckAt = some s.elapsed ∧
        RegsBut [(.rc n, Rc.MODSTAT_STUCK_S)] s t) ∧
      (∀ n : Fin 16, l.val = 2 * n.val + 1 →
        getF t (.rc n) Rc.MODSTAT_STUCK_C = 1 ∧ (t.rc[n]).stuckAt = some s.elapsed ∧
        RegsBut [(.rc n, Rc.MODSTAT_STUCK_C)] s t) ∧
      (∀ k : Fin 8, l.val = 32 + k.val →
        getF t (.ai k) Ai.STATUS_STUCK = 1 ∧ t.rc = s.rc ∧ RegsBut [(.ai k, Ai.STATUS_STUCK)] s t)) ∧
  (∀ (l : Fin 40) (s : State), (laneRuns s l = true ∨ burstLane s l = true) →
    ∃ u, (∀ n : Fin 16, l.val < 32 → n.val = l.val / 2 →
        exec (.modulatorClockFault l) s = .next (blkMet (.rc n) .cell u) ∧ (u.rc[n]).clkfAt = some s.elapsed ∧
        (l.val % 2 = 0 → getF u (.rc n) Rc.MODSTAT_CLKF_S = 1) ∧ (l.val % 2 = 1 → getF u (.rc n) Rc.MODSTAT_CLKF_C = 1)) ∧
      (∀ k : Fin 8, l.val = 32 + k.val →
        exec (.modulatorClockFault l) s = .next (blkMet (.ai k) .cell u) ∧ getF u (.ai k) Ai.STATUS_CLKF = 1) ∧
      (burstLane s l = false → u.lanes[l] = { s.lanes[l] with clkf := true }) ∧
      (burstLane s l = true → u.lanes[l] = { s.lanes[l] with burstClk := burstNs s l :: (s.lanes[l]).burstClk }) ∧ u = { s with regs := u.regs, fresh := u.fresh, lanes := u.lanes, rc := u.rc })) ∧
  (
  (∀ (streams : List ModStream) (f : FrameRec) (s : State), live s .fe = true → sched s < 4 → feInstant s = some f →
    (s.fe.lastEl ≠ some f.el →
      ∃ u, exec (.feSchedule streams) s = .next (auxSlots u) ∧ u.fe.lastEl = some f.el ∧
        u.fe.auxDue.length = s.fe.auxDue.length + 8 ∧
        (∀ n : Fin 16, (served s n && live s (.rc n)) = false → u.rc[n] = s.rc[n]) ∧
        (∀ n : Fin 16, (served s n && live s (.rc n)) = true → (trkState s n = 1 ∨ trkState s n = 2) →
          ∃ h, (u.rc[n]).hands = (s.rc[n]).hands ++ [h] ∧ h.t = f.t ∧ h.m = feM s)) ∧
    (s.fe.lastEl = some f.el → exec (.feSchedule streams) s = .next s)) ∧
  (∀ (k : Fin 8) (s : State), live s (.ai k) = true → getF s (.ai k) Ai.CTRL_EN = 1 → getF s (.ai k) Ai.CTRL_TSEL ≠ 2 →
    getF s (.ai k) Ai.CTRL_TSEL ≠ 3 → 2 ^ getF s (.ai k) Ai.DET_RMSW ≤ (s.ai[k]).cnt →
    let w : Nat := 2 ^ getF s (.ai k) Ai.DET_RMSW
    let ms := (s.ai[k]).sxx.toNat / w
    ∃ t, exec (.aiRmsWindowEnd k) s = .next t ∧ t = { s with regs := t.regs, ai := t.ai } ∧ RegsBut [(.ai k, Ai.RMS)] s t ∧
      (getF t (.ai k) Ai.RMS = min (2 ^ 24 - 1) (Nat.sqrt ms) ∨ getF t (.ai k) Ai.RMS = min (2 ^ 24 - 1) (Nat.sqrt ms + 1)) ∧
      (Nat.sqrt ms * Nat.sqrt ms * w = (s.ai[k]).sxx.toNat → getF t (.ai k) Ai.RMS = min (2 ^ 24 - 1) (Nat.sqrt ms)) ∧
      (t.ai[k]).sx = 0 ∧ (t.ai[k]).sxx = 0 ∧ (t.ai[k]).cnt = 0 ∧ (t.ai[k]).meanT = (s.ai[k]).rmsT) ∧
  (∀ (ag : Agent) (k : Fin 8) (w : Word) (s : State), Accepts ag (.ai k) 8 w s → fieldOf w Ai.CTRL_EN = 1 →
    getF s (.ai k) Ai.CTRL_EN = 0 →
    ∃ t, exec (.aiEnable ag k w) s = .next t ∧ t = { s with regs := t.regs, ai := t.ai, lanes := t.lanes } ∧
      getF t (.ai k) Ai.CTRL_EN = 1 ∧ (t.lanes[(⟨32 + k.val, by omega⟩ : Fin 40)]).inv = 4 ∧ (t.ai[k]).cnt = 0 ∧
      (t.ai[k]).win = [] ∧ (t.ai[k]).armed = true) ∧
  (∀ (ag : Agent) (k : Fin 8) (w : Word) (s : State), Accepts ag (.ai k) 0xC w s → 0 < (s.ai[k]).cnt →
    ∃ t, exec (.aiRmswWrite ag k w) s = .next t ∧ getF t (.ai k) Ai.STATUS_RMSRST = 1 ∧
      getF t (.ai k) Ai.DET_RMSW = Ai.DET_RMSW.fit (fieldOf w Ai.DET_RMSW) % 2 ^ Ai.DET_RMSW.width ∧
      (t.ai[k]).sx = 0 ∧ (t.ai[k]).sxx = 0 ∧ (t.ai[k]).cnt = 0))

/-- From R93, R94, R122, R420, R421, R423. Rows SENTINEL_WAKE, SENTINEL_BURST_START, SENTINEL_BURST_END and SENTINEL_ANGLE_READY in DORMANT.
A burst drives the generators of every mask that holds a sentinel channel for three carrier cycles from phase 0 and ends when every
one has passed its third; the channel's sums are those of its third cycle. No burst starts on a PLL that has lost its reference or
its lock (R408). From R82, R431: a cause of the safe state holds the bridge of a burst high-impedance.
An angle that comes in becomes the channel's last angle and, the first time, its reference; the change since the last burst
accumulates without wrapping; an angle of two zero sums is a free value (log 65), and how the angle of two sums is rounded is left
open by an opaque choice (logs 51 and 52): these are the model's choices. -/
def Obligations.SentinelRows : Prop :=
  (∀ s : State, dormant s = true → s.pwr.waking = false → s.pwr.phase = 0 → (∃ j : Fin 4, (s.pwr.sent[j]).used = true) →
    sentPeriod s ≤ aonMs (s.aon - s.pwr.wakeAt) →
    exec .sentinelWake s = .next { s with pwr := { s.pwr with wakeAt := s.aon, phase := 1 } }) ∧
  (∀ s : State, s.pwr.pllDead = true → exec .sentinelBurstStart s = .next s) ∧
  (∀ (g : Fin 16) (s : State), (getF s (.exg g) Exg.STATUS_STATE = 0 ∨ 4 ≤ getF s (.exg g) Exg.STATUS_STATE) →
    (exgDrives s g = true ↔ 0 < (s.exg[g]).burst ∧ burstCause s g = false)) ∧
  (∀ s : State, dormant s = true → s.pwr.phase = 1 → s.pwr.pllDead = false →
    ∃ t, exec .sentinelBurstStart s = .next t ∧
      t = { s with regs := t.regs, exg := t.exg, pwr := t.pwr, rc := t.rc, lanes := t.lanes } ∧
      t.pwr.phase = 2 ∧ getF t .pwr Pwr.CLK_PLLLOCK = 1 ∧ getF t .fe Fe.STATUS_SCHED = 4 ∧
      getF t .pwr Pwr.SENT_BURSTS = min (2 ^ 16 - 1) (getF s .pwr Pwr.SENT_BURSTS + 1) ∧
      (∀ j : Fin 4, (s.pwr.sent[j]).used = true → (t.lanes[laneS (fin16 (s.pwr.sent[j]).ch)]).inv = 4 ∧
        (t.lanes[laneC (fin16 (s.pwr.sent[j]).ch)]).inv = 4) ∧
      ∀ g : Fin 16, (g ∈ sentGens s → (t.exg[g]).burst = 3 ∧ (t.exg[g]).burstPh = 0) ∧
        (g ∉ sentGens s → t.exg[g] = s.exg[g])) ∧
  (∀ s : State, bursting s = true → burstDone s = true →
    ∃ t, exec .sentinelBurstEnd s = .next t ∧ t = { s with exg := t.exg, pwr := { s.pwr with phase := 3 } } ∧
      ∀ g : Fin 16, (t.exg[g]).burst = 0) ∧
  (∀ s : State, bursting s = true → burstDone s = false → exec .sentinelBurstEnd s = .next s) ∧
  (∀ (j : Fin 4) (bs bc : List Bool) (clocks : Nat) (s : State), dormant s = true → s.pwr.phase = 3 →
    (s.pwr.sent[j]).used = true → (s.pwr.sent[j]).got = false →
    let r := burstSums (fin16 (s.pwr.sent[j]).ch) (bs.take clocks) (bc.take clocks) s
    let b := r.1
    ∃ t, exec (.sentinelAngleReady j bs bc clocks) s = .next t ∧
      t = { s with regs := t.regs, fresh := t.fresh, pwr := t.pwr, rc := t.rc, lanes := t.lanes, free := t.free } ∧
      (t.pwr.sent[j]).seen = true ∧ (t.pwr.sent[j]).got = true ∧
      (¬ (b.ss = 0 ∧ b.sc = 0) → t.free = r.2.free ∧
        getF t .pwr (Pwr.SENTANG_LAST j) = (roundOpen 20 ((atanTurn b.ss b.sc : Rat) / 2 ^ 32)).toNat % 2 ^ 16) ∧
      (b.ss = 0 → b.sc = 0 → t.free = r.2.free + 1 ∧ getF t .pwr (Pwr.SENTANG_LAST j) = freeVal r.2 % 2 ^ 16) ∧
      ((s.pwr.sent[j]).seen = false →
        getF t .pwr (Pwr.SENTANG_REF j) = getF t .pwr (Pwr.SENTANG_LAST j) ∧ getI t .pwr (Pwr.SENTCHG j) = 0) ∧
      ((s.pwr.sent[j]).seen = true → getF t .pwr (Pwr.SENTANG_REF j) = getF s .pwr (Pwr.SENTANG_REF j)) ∧
      (b.ss ^ 2 + b.sc ^ 2 < ((sentAmin s * 64 * b.cnt : Nat) : Int) ^ 2 →
        (t.pwr.sent[j]).faults = (s.pwr.sent[j]).faults + 1) ∧
      (((sentAmin s * 64 * b.cnt : Nat) : Int) ^ 2 ≤ b.ss ^ 2 + b.sc ^ 2 → (t.pwr.sent[j]).faults = 0))

/-! ### Tracking converters (chapter 5) -/

/-- From R124, R131, R138. Rows CONVERTER_ENABLE, CONVERTER_DISABLE, REACQUIRE, TRK_K1_WRITE, TRK_GAIN_COMMIT and ACQ_COUNT_CLEAR, accepted.
EN written 1 in OFF enters COARSE from OFF: velocity and amplitude 0, the turns those of RCn_TSET, θ that of CPH_SET; EN
written 0 stops the converter; REACQ re-acquires from TRACK and discards the sums of the coarse cycle in COARSE; K1 is
stored and takes effect only with K2's write, which commits the pair. -/
def Obligations.ConverterCommands : Prop :=
  ∀ (ag : Agent) (n : Fin 16) (w : Word) (s : State),
    (Accepts ag (.rc n) 0x20 w s → fieldOf w Rc.TRK_CTRL_EN = 1 → fieldOf w Rc.TRK_CTRL_REACQ = 0 → trkState s n = 0 →
      ∃ t, exec (.converterEnable ag n w) s = .next t ∧ t = { s with regs := t.regs, rc := t.rc } ∧
        getF t (.rc n) Rc.TRK_CTRL_EN = 1 ∧ trkState t n = 1 ∧ getF t (.rc n) Rc.AMP = 0 ∧
        (t.rc[n]).v = 0 ∧ (t.rc[n]).amp = 0 ∧ (t.rc[n]).fromOff = true ∧ (t.rc[n]).phAcq = true ∧
        (t.rc[n]).p = getI s (.rc n) Rc.TSET * 2 ^ 64 + (s.rc[n]).p % 2 ^ 64 ∧
        (t.rc[n]).theta = getF s (.rc n) Rc.CPH_SET * 2 ^ 16 ∧ (∀ m : Fin 16, m ≠ n → t.rc[m] = s.rc[m])) ∧
    (Accepts ag (.rc n) 0x20 w s → fieldOf w Rc.TRK_CTRL_EN = 0 →
      (trkState s n ≠ 0 → ∃ u, exec (.converterDisable ag n w) s = .next (rcSilent n (monAllOff n u)) ∧
        u = { s with regs := u.regs, rc := u.rc, lens := u.lens } ∧ trkState u n = 0 ∧ getF u (.rc n) Rc.TRK_CTRL_EN = 0 ∧
        (u.rc[n]).lock = false ∧ (u.rc[n]).hands = [] ∧ bitAt (getF u (.rc n) Rc.ANGLE_STATUS) 7 = 0 ∧
        getF u (.rc n) Rc.TRK_STATUS_PHVHOLD = 0 ∧ (u.lens[n]).revF = none ∧ (u.lens[n]).revR = none ∧
        ∀ m : Fin 16, m ≠ n → u.rc[m] = s.rc[m] ∧ u.lens[m] = s.lens[m]) ∧
      (trkState s n = 0 → ∃ t, exec (.converterDisable ag n w) s = .next t ∧ t = { s with regs := t.regs } ∧
        getF t (.rc n) Rc.TRK_CTRL_EN = 0 ∧ trkState t n = 0)) ∧
    (Accepts ag (.rc n) 0x20 w s → fieldOf w Rc.TRK_CTRL_EN = 1 → fieldOf w Rc.TRK_CTRL_REACQ = 1 →
      (trkState s n = 2 → ∃ u, exec (.reacquire ag n w) s = .next (raiseF (.rc n) Rc.TRK_STATUS_REACQEV (monIdleTrack n u)) ∧
        (u.rc[n]).reacq = true ∧ (u.rc[n]).fromOff = false ∧ (u.rc[n]).live = false ∧ (u.rc[n]).whole = false ∧
        (u.rc[n]).lockN = 0 ∧ (u.rc[n]).p = (s.rc[n]).p ∧ (u.rc[n]).v = (s.rc[n]).v ∧ (u.rc[n]).theta = (s.rc[n]).theta) ∧
      (trkState s n = 1 → ∃ t, exec (.reacquire ag n w) s = .next t ∧ t = { s with regs := t.regs, rc := t.rc } ∧
        (t.rc[n]).sn = 0 ∧ (t.rc[n]).ss = 0 ∧ (t.rc[n]).sc = 0 ∧ (t.rc[n]).sw = 0 ∧ (t.rc[n]).whole = false ∧
        trkState t n = 1)) ∧
    (Accepts ag (.rc n) 0x24 w s →
      ∃ t, exec (.trkK1Write ag n w) s = .next t ∧ t = { s with regs := t.regs } ∧ RegsBut [(.rc n, Rc.TRK_K1)] s t ∧
        getF t (.rc n) Rc.TRK_K1 = Rc.TRK_K1.fit (fieldOf w Rc.TRK_K1) % 2 ^ Rc.TRK_K1.width) ∧
    (Accepts ag (.rc n) 0x28 w s →
      ∃ t, exec (.trkGainCommit ag n w) s = .next t ∧ t = { s with regs := t.regs, rc := t.rc } ∧
        RegsBut [(.rc n, Rc.TRK_K2)] s t ∧
        (t.rc[n]).kPend = some (getF s (.rc n) Rc.TRK_K1, Rc.TRK_K2.fit (fieldOf w Rc.TRK_K2) % 2 ^ Rc.TRK_K2.width) ∧
        (t.rc[n]).k1 = (s.rc[n]).k1 ∧ (t.rc[n]).k2 = (s.rc[n]).k2) ∧
    (Accepts ag (.rc n) 0x100 w s → fieldOf w Rc.ACQ_CNTCLR = 1 →
      ∃ t, exec (.acqCountClear ag n w) s = .next t ∧ t = { s with regs := t.regs } ∧
        getF t (.rc n) Rc.ACQCNT_SPKCNT = 0 ∧ getF t (.rc n) Rc.ACQCNT_OVLCNT = 0)

/-- From R126 to R130, R136, R138, R140, R142. Rows CONVERTER_UPDATE, LOCK_ACQUIRED and PHASE_ACQ_DONE, each where its event is due. The
update takes the oldest hand-off; on one that is INVALID it predicts only: the position moves by the velocity, neither
the velocity (without feed-forward, and within the clamp of R147) nor the amplitude nor ef changes. After an unfreeze the first
valid hand-off behind the synchronising reset re-acquires first. LOCK_ACQUIRED sets LOCK, in TRACK ending REACQ and marking the result
shown (the model's choice, log 57).
From R127 to R129, R131. A usable hand-off in TRACK corrects the predicted position, velocity, amplitude and lock measure by the sine
of the angle error; the interval of the prediction (log 67), the roundings left open (log 51) and the deviation that R129 allows the
quotient (log 53) are the model's choices. From R143, R146, R147. Each update in TRACK publishes one result set: the position of
PHI and TURNS, TURNS, the velocity, the sample instant, the epoch and the status byte, and ANGLE with the status in RCn_ANGLE. -/
def Obligations.ConverterEvents : Prop :=
  (∀ (n : Fin 16) (h : HandOff) (tl : List HandOff) (s : State), live s (.rc n) = true → live s .fe = true →
    (trkState s n = 1 ∨ trkState s n = 2) → (s.rc[n]).hands = h :: tl → (s.rc[n]).thawed = false →
    ∃ t, exec (.converterUpdate n) s = .next t ∧ t = rcUpdate n h (modRc n (fun x => { x with hands := tl }) s) ∧
      (t.rc[n]).hands = tl ∧ (t.rc[n]).updT = some h.te ∧ (t.rc[n]).kPend = none) ∧
  (∀ (n : Fin 16) (h : HandOff) (tl : List HandOff) (s : State), live s (.rc n) = true → live s .fe = true →
    (s.rc[n]).hands = h :: tl → (s.rc[n]).thawed = true → h.inv = false → getF s .fe Fe.STATUS_SRPEND = 0 →
    let u := modRc n (fun x => { x with thawed := false }) (modRc n (fun x => { x with hands := tl }) s)
    (trkState s n = 1 → exec (.converterUpdate n) s = .next (rcUpdate n h u)) ∧
    (trkState s n = 2 → exec (.converterUpdate n) s = .next (rcUpdate n h (rcReacquire n u)))) ∧
  (∀ (n : Fin 16) (h : HandOff) (tl : List HandOff) (s : State), live s (.rc n) = true → live s .fe = true →
    trkState s n = 1 → (s.rc[n]).hands = h :: tl → h.inv = true → (s.rc[n]).thawed = false →
    getF s (.rc n) Rc.TRK_CTRL_AFFEN = 0 → -vMax ≤ (s.rc[n]).v → (s.rc[n]).v ≤ vMax →
    ∃ t, exec (.converterUpdate n) s = .next t ∧ (t.rc[n]).hands = tl ∧ (t.rc[n]).v = (s.rc[n]).v ∧
      (t.rc[n]).amp = (s.rc[n]).amp ∧ (t.rc[n]).ef = (s.rc[n]).ef ∧ (t.rc[n]).updT = some h.te ∧
      (t.rc[n]).p = toSigned 96 (ofSigned 96
        ((s.rc[n]).p + roundEven ((s.rc[n]).v * (updDt (s.rc[n]) h : Nat)) 320)) ∧ trkState t n = 1) ∧
  (∀ (n : Fin 16) (h : HandOff) (s : State), trkState s n = 2 → h.inv = false → h.noref = false → h.ovlS = false → h.ovlC = false →
    h.r ≠ 0 → 2 * getF s (.rc n) Rc.TRK_WMIN ≤ h.r.natAbs → (s.rc[n]).kPend = none →
    let x := predict s n (updDt (s.rc[n]) h) (s.rc[n])
    aFloor ≤ x.amp →
    let a := (x.p / 2 ^ 16 % 2 ^ 48).toNat
    let sn := trkSine a
    let cs := trkSine (a + 2 ^ 46)
    let q := quotient (((h.ps * cs - h.pc * sn) * 2 ^ 11 : Int) / ((h.r * h.r * x.amp : Int) : Rat))
    let e := roundOpen 7 ((if q < -1 then -1 else if 1 < q then 1 else q) * 2 ^ 30 / pi60)
    let am := roundOpen 8 ((((h.ps * sn + h.pc * cs) * 2 ^ 11 : Int) : Rat) / ((h.r * h.r : Int) : Rat))
    ∃ u, rcUpdate n h s = rcPublish n h u ∧
      (u.rc[n]).p = toSigned 96 (ofSigned 96 (x.p + 2 ^ h.m * x.k1 * e * 2)) ∧
      (u.rc[n]).v = clampI (-vMax) vMax (x.v + roundEven (2 ^ h.m * x.k2 * e) (2 ^ 7)) ∧
      (u.rc[n]).amp = (clampI 0 (2 ^ 24 - 1) ((x.amp : Int) + (am - x.amp) / 2 ^ (10 - h.m))).toNat ∧
      (u.rc[n]).ef = ((x.ef : Int) + ((e.natAbs / 128 : Nat) - (x.ef : Int)) / 2 ^ 8).toNat) ∧
  (∀ (n : Fin 16) (h : HandOff) (s : State), s.ecc = [] →
    let x := s.rc[n]
    let t := rcPublish n h s
    let pos := wrap64 (x.p / 2 ^ 32)
    let vel := roundEven (x.v * 3125000) (2 ^ 48)
    let fast := 0 < rcVlim s n ∧ rcVlim s n < vel.natAbs
    let st := (t.rc[n]).pub.status
    (t.rc[n]).live = true ∧ (t.rc[n]).pub.no = x.pub.no + 1 ∧ (t.rc[n]).pub.pos = pos ∧ (t.rc[n]).pub.turns = pos / 2 ^ 32 ∧
    (t.rc[n]).pub.vel = vel ∧ (t.rc[n]).pub.t = h.t ∧ (t.rc[n]).pub.te = h.te ∧ (t.rc[n]).pub.epoch = timeEpoch s ∧
    getF t (.rc n) Rc.ANGLE_STATUS = st ∧
    (mode s ≠ 3 → getF t (.rc n) Rc.ANGLE_ANGLE = (x.p / 2 ^ 40 % 2 ^ 24).toNat) ∧
    (mode s = 3 → getF t (.rc n) Rc.ANGLE_ANGLE = (x.p / 2 ^ 40 % 2 ^ 24).toNat / 16 * 16) ∧
    bitAt st 7 = bitOf x.lock ∧ bitAt st 6 = bitOf (h.inv || h.noref) ∧ bitAt st 5 = bitOf x.reacq ∧
    (bitAt st 4 = 1 ↔ getF s (.rc n) Rc.INT_ACTIVE ≠ 0) ∧ (bitAt st 3 = 1 ↔ fast) ∧ bitAt st 2 = bitOf x.phAcq ∧
    bitAt st 1 = bitOf h.disc ∧ bitAt st 0 = bitOf (h.ovlS || h.ovlC)) ∧
  (∀ (n : Fin 16) (s : State), live s (.rc n) = true → trkState s n = 2 → 1024 ≤ (s.rc[n]).lockN →
    ((s.rc[n]).lock = false ∨ (s.rc[n]).reacq = true) →
    ∃ t, exec (.lockAcquired n) s = .next t ∧ t = { s with regs := t.regs, rc := t.rc } ∧
      RegsBut [(.rc n, Rc.ANGLE_STATUS)] s t ∧ (t.rc[n]).lock = true ∧ (t.rc[n]).reacq = false ∧
      ((s.rc[n]).live = true →
        bitAt (getF t (.rc n) Rc.ANGLE_STATUS) 7 = 1 ∧ bitAt (getF t (.rc n) Rc.ANGLE_STATUS) 5 = 0) ∧
      ((s.rc[n]).live = false → t.regs = s.regs)) ∧
  (∀ (n : Fin 16) (s : State), live s (.rc n) = true → trkState s n = 1 → 1024 ≤ (s.rc[n]).lockN → (s.rc[n]).lock = false →
    exec (.lockAcquired n) s = .next (modRc n (fun x => { x with lock := true }) s)) ∧
  (∀ (n : Fin 16) (s : State), live s (.rc n) = true → (s.rc[n]).phAcq = true → 1024 ≤ (s.rc[n]).phN →
    ∃ t, exec (.phaseAcqDone n) s = .next t ∧ t = { s with regs := t.regs, rc := t.rc } ∧ (t.rc[n]).phAcq = false ∧
      (getF s (.rc n) Rc.INT_CTRL_PHAUTO = 0 → t.regs = s.regs) ∧
      (getF s (.rc n) Rc.INT_CTRL_PHAUTO = 1 → RegsBut [(.rc n, Rc.INT_PHBASE)] s t))

/-- From R67, R116, R117, R119 to R121. Row SYNCHRONISING_RESET, due: every lane's integrators and combs are cleared and its next four
samples INVALID, the schedule is the mode's, SRPEND ends, SRCNT counts, SRTIME takes the frame boundary and SREPOCH the epoch; where
it brings another frame, the schedules behind it take the instants alone whose decimation ticks follow the boundary;
then the windows in progress are abandoned and the channels join or leave the served set. -/
def Obligations.SynchronisingResetClearsTheLanes : Prop :=
  ∀ s : State, clocked s .acquisition = true → srDue s = true →
    ∃ u, exec .synchronisingReset s = .next (forAll (List.finRange 16)
        (fun n s => if served s n then rcUnpark n s else rcPark n s)
        (forAll (List.finRange 8) (fun k s => if 0 < (s.ai[k]).cnt then rmsAbandon k s else s) u)) ∧
      u = { s with regs := u.regs, lanes := u.lanes, fe := u.fe, time := u.time, ai := u.ai, free := u.free } ∧
      u.fe.gridOff = 0 ∧ u.fe.stepped = false ∧
      (∀ l : Fin 40, (u.lanes[l]).i1 = 0 ∧ (u.lanes[l]).i2 = 0 ∧ (u.lanes[l]).i3 = 0 ∧ (u.lanes[l]).inv = 4 ∧
        (u.lanes[l]).clear = true) ∧
      getF u .fe Fe.STATUS_SRPEND = 0 ∧ getF u .fe Fe.STATUS_SCHED = schedOf (mode s) % 8 ∧
      getF u .fe Fe.STATUS_SRCNT = (getF s .fe Fe.STATUS_SRCNT + 1) % 2 ^ Fe.STATUS_SRCNT.width ∧
      getF u .fe Fe.SRTIME = s.time.now / frameNs s * frameNs s % 2 ^ 32 ∧ getF u .fe Fe.SREPOCH = timeEpoch s ∧
      u.time.srCause = none ∧
      (feFrame u ≠ feFrame s → u.fe.lastEl = none ∧ u.fe.from_ = s.elapsed - timeUnits s % (frameNs s * 2 ^ 28)) ∧
      (feFrame u = feFrame s → u.fe.lastEl = s.fe.lastEl ∧ u.fe.from_ = s.fe.from_) ∧
      u.fe.nextServed = none

/-! ### Lens (chapter 6) -/

/-- From R156, R161, R166. Rows LENS_OFF, LENS_LEARN, LENS_APPLY, LENS_LEARN_APPLY, LENS_RESTART and LENS_COMMIT, accepted. The state
written comes into force with the next publish of the channel (`lensBegin`); a change to or from OFF or APPLY then discards the sums,
the counts and the revolutions in progress, one between
LEARN and LEARN_APPLY keeps them; RESTART discards them at once and clears REJ; COMMIT with a candidate waits for its publish, and
without one sets CMDERR.
From R157, R158, R161. Rows LENS_REVOLUTION_END, LENS_REVOLUTION_PROCESSED and LENS_COMMIT_EFFECT, due: the last at the publish
that a hand-off waiting for the converter in TRACK brings. A revolution no reason
speaks against waits for its processing, another is counted with its reasons; a processed table joins the sums of its
direction, and the check follows; a commit exchanges the two banks, tables and harmonics together, and writes no other
byte of memory. -/
def Obligations.LensRows : Prop :=
  (
  ∀ (ag : Agent) (n : Fin 16) (w : Word) (s : State), Accepts ag (.lens n) 8 w s →
    (∀ (k : Nat) (i : Instr),
      (k, i) ∈ [(0, Instr.lensOff ag n w), (1, .lensLearn ag n w), (2, .lensApply ag n w), (3, .lensLearnApply ag n w)] →
      fieldOf w Lens.CTRL_STATE = k → fieldOf w Lens.CTRL_RESTART = 0 → fieldOf w Lens.CTRL_COMMIT = 0 →
      ∃ t, exec i s = .next t ∧ t = { s with regs := t.regs } ∧ getF t (.lens n) Lens.CTRL_STATE = k ∧
        lensState t n = lensState s n) ∧
    (live s (.lens n) = true → (s.lens[n]).commit = false →
      let k := getF s (.lens n) Lens.CTRL_STATE
      let t := lensBegin n s
      t = { s with regs := t.regs, lens := t.lens } ∧ lensState t n = k ∧
        (lensState s n = k ∨ (lensState s n % 2 = 1 ∧ k % 2 = 1) →
          t.lens = s.lens.set n { s.lens[n] with state := k } ∧ t.regs = s.regs) ∧
        (¬ (lensState s n = k ∨ (lensState s n % 2 = 1 ∧ k % 2 = 1)) →
          (t.lens[n]).accF = [] ∧ (t.lens[n]).accR = [] ∧ (t.lens[n]).nF = 0 ∧ (t.lens[n]).nR = 0 ∧
          (t.lens[n]).revF = none ∧ (t.lens[n]).revR = none ∧ (t.lens[n]).proc = none ∧ (t.lens[n]).last = none ∧
          getF t (.lens n) Lens.COUNT_FWD = 0 ∧ getF t (.lens n) Lens.COUNT_REV = 0)) ∧
    (fieldOf w Lens.CTRL_RESTART = 1 → fieldOf w Lens.CTRL_COMMIT = 0 →
      ∃ t, exec (.lensRestart ag n w) s = .next t ∧ t = { s with regs := t.regs, lens := t.lens } ∧
        (t.lens[n]).nF = 0 ∧ (t.lens[n]).nR = 0 ∧ (t.lens[n]).accF = [] ∧ (t.lens[n]).accR = [] ∧
        (t.lens[n]).revF = none ∧ (t.lens[n]).revR = none ∧ (t.lens[n]).ended = none ∧ (t.lens[n]).proc = none ∧
        getF t (.lens n) Lens.COUNT_REJ = 0 ∧ getF t (.lens n) Lens.COUNT_FWD = 0 ∧
        getF t (.lens n) Lens.COUNT_REV = 0) ∧
    (fieldOf w Lens.CTRL_COMMIT = 1 → fieldOf w Lens.CTRL_RESTART = 0 →
      ∃ t, exec (.lensCommit ag n w) s = .next t ∧
        t = { s with regs := t.regs, fresh := t.fresh, lens := t.lens } ∧
        (getF s (.lens n) Lens.STATUS_CAND = 1 → (t.lens[n]).commit = true ∧
          getF t (.lens n) Lens.STATUS_CMDERR = getF s (.lens n) Lens.STATUS_CMDERR) ∧
        (getF s (.lens n) Lens.STATUS_CAND = 0 → t.lens = s.lens ∧ getF t (.lens n) Lens.STATUS_CMDERR = 1))) ∧
  (
  (∀ (n : Fin 16) (r : Rev) (s : State), (s.lens[n]).ended = some r → live s (.lens n) = true →
    (revVerdict s n r = 0 → ∃ t, exec (.lensRevolutionEnd n) s = .next t ∧ t = { s with lens := t.lens } ∧
      (t.lens[n]).ended = none ∧ (t.lens[n]).proc = some r ∧ ∀ m : Fin 16, m ≠ n → t.lens[m] = s.lens[m]) ∧
    (revVerdict s n r ≠ 0 → ∃ t, exec (.lensRevolutionEnd n) s = .next t ∧
      t = { s with regs := t.regs, fresh := t.fresh, lens := t.lens } ∧ (t.lens[n]).ended = none ∧
      (t.lens[n]).proc = (s.lens[n]).proc ∧ getF t (.lens n) Lens.STATUS_REJEV = 1 ∧
      getF t (.lens n) Lens.COUNT_REJ = min (2 ^ 16 - 1) (getF s (.lens n) Lens.COUNT_REJ + 1) ∧
      getF t (.lens n) Lens.REJ_SPARSE = bitAt (revVerdict s n r) 7 ∧
      getF t (.lens n) Lens.REJ_BUSY = bitAt (revVerdict s n r) 8)) ∧
  (∀ (n : Fin 16) (r : Rev) (s : State), (s.lens[n]).proc = some r → live s (.lens n) = true → lensLearns s n = true →
    ∃ u, exec (.lensRevolutionProcessed n) s = .next (lensCheck n u) ∧ u = { s with regs := u.regs, lens := u.lens } ∧
      (u.lens[n]).proc = none ∧
      (r.fwd = true → (u.lens[n]).nF = (s.lens[n]).nF + 1 ∧ (u.lens[n]).nR = (s.lens[n]).nR ∧
        (u.lens[n]).accF = addLists (s.lens[n]).accF (revTable s n r).1 ∧ (u.lens[n]).accR = (s.lens[n]).accR) ∧
      (r.fwd = false → (u.lens[n]).nR = (s.lens[n]).nR + 1 ∧ (u.lens[n]).nF = (s.lens[n]).nF ∧
        (u.lens[n]).accR = addLists (s.lens[n]).accR (revTable s n r).1 ∧ (u.lens[n]).accF = (s.lens[n]).accF)) ∧
  (∀ (n : Fin 16) (s : State), live s (.lens n) = true → (s.lens[n]).commit = true → live s (.rc n) = true →
    trkState s n = 2 → (s.rc[n]).hands ≠ [] → getF s (.rc n) Rc.INT_ACTIVE = 0 →
    ∃ t, exec (.lensCommitEffect n) s = .next t ∧
      t = { s with regs := t.regs, fresh := t.fresh, mem := t.mem, ecc := t.ecc, lens := t.lens } ∧
      (∀ i, i < 256 → memWord t (lensBase n false + 4 * i) = memWord s (lensBase n true + 4 * i) ∧
        memWord t (lensBase n true + 4 * i) = memWord s (lensBase n false + 4 * i)) ∧
      (∀ a, (a < lensBase n false ∨ lensBase n false + 1024 ≤ a) → (a < lensBase n true ∨ lensBase n true + 1024 ≤ a) →
        memByte t a = memByte s a) ∧
      getF t (.lens n) Lens.H1C = getF s (.lens n) Lens.CH1C ∧ getF t (.lens n) Lens.CH1C = getF s (.lens n) Lens.H1C ∧
      (t.lens[n]).commit = false ∧ getF t (.lens n) Lens.STATUS_COMEV = 1 ∧ getF t (.lens n) Lens.STATUS_CAND = 0))

/-! ### Signal integrity and axes (chapters 7 and 10) -/

/-- From R167, R168, R171, R178, R180. Rows MONITOR_ACTIVE, MONITOR_INACTIVE and STUCK_WINDOW_END, due. A monitor that becomes active sets
its bit of INT_ACTIVE and of INT_EVENT, raises its alarm, whose condition is kept, and its axes show the cause; one that becomes
inactive clears its bit and reports the condition gone. That these rows carry the transitions an update has prepared is the model's
choice (log 57), as is that an axis is evaluated at once where its source stops publishing (log 58). The window of the angle-frozen test passes, fails or keeps its outcome.
From R172, R173, R175, R176. Rows XCHECK_FAULT, XCHECK_CLEAR and HOLDOVER_EXPIRY, due. A fault while a monitor of the primary acts is
put down to it; otherwise to the secondary where it has an active monitor or does not publish, else to the cross-check
itself, and 0x0710 is raised and kept; an axis that uses the primary is evaluated. The end of the fault clears XCHK and not
SECFAIL. Holdover that ends is FB_SAFE; a write of AXn_FB_CFG does not extend it. -/
def Obligations.MonitorsAndHoldover : Prop :=
  (
  (∀ (c : Fin 16) (m : Monitor) (s : State), live s (.rc c) = true → (s.rc[c]).due[monBit m] = true →
    monActive s c m = false →
    ∃ u, exec (.monitorActive c m) s = .next (forAll (channelAxes u c) fbCauses
        (raiseAlarm (0x0701 + (monBit m).val) (blkBase (.rc c)) (monGrade s c m) true u)) ∧
      u = { s with regs := u.regs, fresh := u.fresh, rc := u.rc } ∧
      RegsBut [(.rc c, Rc.INT_ACTIVE), (.rc c, Rc.INT_EVENT)] s u ∧ monActive u c m = true ∧
      bitAt (getF u (.rc c) Rc.INT_EVENT) (monBit m) = 1 ∧ (u.rc[c]).due[monBit m] = false ∧
      (∀ m' : Monitor, m' ≠ m → monActive u c m' = monActive s c m')) ∧
  (∀ (c : Fin 16) (m : Monitor) (s : State), live s (.rc c) = true → (s.rc[c]).due[monBit m] = true →
    monActive s c m = true →
    ∃ u, exec (.monitorInactive c m) s = .next (forAll (channelAxes u c) fbCauses
        (alarmGone (0x0701 + (monBit m).val) (blkBase (.rc c)) u)) ∧
      u = { s with regs := u.regs, rc := u.rc } ∧ RegsBut [(.rc c, Rc.INT_ACTIVE)] s u ∧ monActive u c m = false ∧
      (∀ m' : Monitor, m' ≠ m → monActive u c m' = monActive s c m')) ∧
  (∀ (c : Fin 16) (t0 : Nat) (s : State), (s.rc[c]).winAt = some t0 → live s (.rc c) = true →
    getF s (.rc c) Rc.INT_STK_WIN * 1000000 ≤ sinceNs s t0 →
    ∃ t, exec (.stuckWindowEnd c) s = .next t ∧ t = { s with regs := t.regs, rc := t.rc } ∧
      RegsBut [(.rc c, Rc.INT_CAUSE)] s t ∧
      (t.rc[c]).winAt = some (t0 + getF s (.rc c) Rc.INT_STK_WIN * 1000000 * 2 ^ 28) ∧
      (let moved := (getF s (.rc c) Rc.INT_STK_ANG : Int) < (s.rc[c]).winHi - (s.rc[c]).winLo
       (moved → (t.rc[c]).frozenAng = false) ∧
       (¬ moved → (s.rc[c]).winHeld = true → (t.rc[c]).frozenAng = true) ∧
       (¬ moved → (s.rc[c]).winHeld = false → channelAxes s c = [] → (t.rc[c]).frozenAng = false) ∧
       (¬ moved → (s.rc[c]).winHeld = false → channelAxes s c ≠ [] → (t.rc[c]).frozenAng = (s.rc[c]).frozenAng)) ∧
      bitAt (getF t (.rc c) Rc.INT_CAUSE) 10 = (if (t.rc[c]).frozenAng then 1 else 0))) ∧
  (
  (∀ (n : Fin 16) (s : State), live s (.ax n) = true → getF s (.ax n) Ax.FB_CFG_XCEN = 1 → (s.ax[n]).xcFault = false →
    xcDue s n (s.ax[n]).xcAt = true →
    let u := modAx n (fun x => { x with xcFault := true }) s
    (srcActing s n (axPrim s n) = true → exec (.xcheckFault n) s = .next u) ∧
    (srcActing s n (axPrim s n) = false →
      (srcActiveAny s n (axSec s n) = true ∨ srcPublishes s n (axSec s n) = false) →
      ∃ v, v = raiseAlarm 0x0710 (blkBase (.ax n)) 1 true (setF (.ax n) Ax.FB_STATUS_SECFAIL 1 u) ∧
        (axFb s n = 0 → exec (.xcheckFault n) s = .next (axEval n v)) ∧ (axFb s n ≠ 0 → exec (.xcheckFault n) s = .next v)) ∧
    (srcActing s n (axPrim s n) = false → srcActiveAny s n (axSec s n) = false → srcPublishes s n (axSec s n) = true →
      ∃ v, v = raiseAlarm 0x0710 (blkBase (.ax n)) 1 true (setF (.ax n) Ax.FB_STATUS_XCHK 1 u) ∧
        (axFb s n = 0 → exec (.xcheckFault n) s = .next (axEval n v)) ∧ (axFb s n ≠ 0 → exec (.xcheckFault n) s = .next v))) ∧
  (∀ (n : Fin 16) (s : State), live s (.ax n) = true → (s.ax[n]).xcFault = true → xcDue s n (s.ax[n]).xcClrAt = true →
    exec (.xcheckClear n) s = .next (fbCauses n (alarmGone 0x0710 (blkBase (.ax n))
      (setF (.ax n) Ax.FB_STATUS_XCHK 0 (modAx n (fun x => { x with xcFault := false }) s))))) ∧
  (∀ (n : Fin 16) (s : State), live s (.ax n) = true → axFb s n = 2 →
    2000 * (s.ax[n]).holdT ≤ sinceNs s (s.ax[n]).holdAt →
    exec (.holdoverExpiry n) s = .next (raiseAlarm 0x0722 (blkBase (.ax n)) 2 false (axisSafeCore n false s))) ∧
  (∀ (n : Fin 16) (s : State),
    (axFb s n ≠ 2 ∨ sinceNs s (s.ax[n]).holdAt < 2000 * (s.ax[n]).holdT) → exec (.holdoverExpiry n) s = .next s) ∧
  (∀ (ag : Agent) (addr w : Word) (n : Fin 16) (s : State), target addr.toNat = .reg (.ax n) 0x60 → Accepts ag (.ax n) 0x60 w s →
    ∃ t, exec (.registerWrite ag addr w) s = .next t ∧ t = { s with regs := t.regs, ax := t.ax } ∧
      (t.ax[n]).holdT = min (s.ax[n]).holdT (getF t (.ax n) Ax.FB_CFG_HOLDT) ∧ (t.ax[n]).holdAt = (s.ax[n]).holdAt))

/-- From R176, R179, R181, R225, R226. Rows AXIS_FALLBACK, AXIS_SAFE, AXIS_CLEAR, TEN_ARM, AXIS_SRC_WRITE, AXIS_OFFSET_LO_WRITE and
AXIS_OFFSET_COMMIT, accepted.
From R174, R182, R188, R208, R224, R227. Rows AXIS_DELIVERY, ENCODER_ENABLE, ENCODER_TRANSITION and ENCODER_SAMPLE, due or accepted. A
command that reaches an axis acts after a holdover expiry that is due and, but for SAFE, after the loss of the source (R176). An
axis in NORMAL without cross-check whose primary published takes the publish into its accumulator and delivers it; one quarter
of a cycle moves the encoder's count by one in the sense of DIR, a jump of two edges is its fault, alarm 0x0708; a sample
publishes the count at the frame boundary, with the status of that instant. That the encoder's rows carry levels which two samples
have held, and that its accumulator starts at the first count published, are the model's choices (log 36), as are the evaluation at
an event (log 58), the fresh start at a write of FB_SRC (log 66) and the loops' order in a cycle (log 123). -/
def Obligations.AxisRows : Prop :=
  (
  ∀ (ag : Agent) (n : Fin 16) (w : Word) (s : State),
    (Accepts ag (.ax n) 0x80 w s → fieldOf w Ax.FB_CMD_SAFE = 0 → fieldOf w Ax.FB_CMD_FALLBACK = 1 →
      fieldOf w Ax.FB_CMD_CLEAR = 0 →
      let u := axEval n (holdExpiry n (storeFields (.ax n) 0x80 w s))
      (axFb u n = 2 → secUsable u n = true →
        ∃ v, exec (.axisFallback ag n w) s = .next (raiseAlarm 0x0720 (blkBase (.ax n)) 1 false
            (fbRecord n 1 false (tenUpdate n (loopsResume n v)))) ∧
          v = { u with regs := v.regs, ax := v.ax } ∧ axFb v n = 1 ∧ (v.ax[n]).useSec = true ∧ (v.ax[n]).fbPend = true ∧
          fbOfs v n = wrap64 (advance (u.ax[n]).good.pos (u.ax[n]).good.vel ((u.ax[n]).sec.te - (u.ax[n]).good.te)
            - (u.ax[n]).sec.pos) ∧
          RegsBut [(.ax n, Ax.FB_STATUS_STATE), (.ax n, Ax.FB_OFS_LO), (.ax n, Ax.FB_OFS_HI)] u v) ∧
      (¬ (axFb u n = 2 ∧ secUsable u n = true) → exec (.axisFallback ag n w) s = .next u)) ∧
    (Accepts ag (.ax n) 0x80 w s → fieldOf w Ax.FB_CMD_SAFE = 1 → fieldOf w Ax.FB_CMD_FALLBACK = 0 →
      fieldOf w Ax.FB_CMD_CLEAR = 0 →
      let u := holdExpiry n (storeFields (.ax n) 0x80 w s)
      (axFb u n = 1 ∨ axFb u n = 2 → exec (.axisSafe ag n w) s
        = .next (axEval n (raiseAlarm 0x0722 (blkBase (.ax n)) 2 false (axisSafeCore n false u)))) ∧
      (axFb u n = 0 ∨ axFb u n = 3 → exec (.axisSafe ag n w) s = .next (axEval n u))) ∧
    (Accepts ag (.ax n) 0x80 w s → fieldOf w Ax.FB_CMD_SAFE = 0 → fieldOf w Ax.FB_CMD_FALLBACK = 0 →
      fieldOf w Ax.FB_CMD_CLEAR = 1 →
      ∃ v, exec (.axisClear ag n w) s = .next v ∧
      (let u := fbCauses n (axEval n (holdExpiry n (storeFields (.ax n) 0x80 w s)))
       let may := axFb u n ≠ 2 ∧ primLost u n = false ∧ (axLoops u n).any (lpClosed u) = false
       (may → getF v (.ax n) Ax.FB_STATUS_SECFAIL = 0 ∧ axFb v n = 0 ∧ v = { u with regs := v.regs, ax := v.ax } ∧
         (axFb u n ≠ 0 → (v.ax[n]).useSec = false ∧ fbOfs v n = 0)) ∧
       (¬ may → v = raiseF (.ax n) Ax.FB_STATUS_CLRREJ u))) ∧
    (Accepts ag (.ax n) 0x7C w s → fieldOf w Ax.TEN_ARM = 1 →
      ∃ t, exec (.tenArm ag n w) s = .next t ∧ t = { s with regs := t.regs, ax := t.ax } ∧ (t.ax[n]).armed = true ∧
        getF t (.ax n) Ax.TEN_ASSERTED = (if getF t (.ax n) Ax.TEN_EN = 1 ∧ axFb s n ≠ 3 then 1 else 0)) ∧
    (Accepts ag (.ax n) 8 w s →
      ∃ u, exec (.axisSrcWrite ag n w) s = .next (axEval n u) ∧ u = { s with regs := u.regs, ax := u.ax } ∧
        (u.ax[n]).prim.init = false ∧ (u.ax[n]).sec.init = false ∧ (u.ax[n]).prim.pos = 0) ∧
    (Accepts ag (.ax n) 0xC w s →
      ∃ t, exec (.axisOffsetLoWrite ag n w) s = .next t ∧ t = { s with regs := t.regs } ∧
        RegsBut [(.ax n, Ax.POS_OFS_LO)] s t ∧ getF t (.ax n) Ax.POS_OFS_LO = w.toNat) ∧
    (Accepts ag (.ax n) 0x10 w s →
      ∃ t, exec (.axisOffsetCommit ag n w) s = .next t ∧ t = { s with regs := t.regs, ax := t.ax } ∧
        RegsBut [(.ax n, Ax.POS_OFS_HI)] s t ∧ (t.ax[n]).ofs = (s.ax[n]).ofs ∧
        (t.ax[n]).ofsPend = some (toSigned 64 (getF s (.ax n) Ax.POS_OFS_LO + 2 ^ 32 * w.toNat)))) ∧
  (
  (∀ (n : Fin 16) (s : State), live s (.ax n) = true → srcNew s n (axPrim s n) (s.ax[n]).prim = true → axSec s n = 0xFF →
    (s.ax[n]).prim.init = true → getF s (.ax n) Ax.FB_CFG_XCEN = 0 → axFb s n = 0 → srcActing s n (axPrim s n) = false →
    getF s (.ax n) Ax.FB_STATUS_XCHK = 0 →
    let ofs := (s.ax[n]).ofsPend.getD (s.ax[n]).ofs
    let p := accTake s n false (axPrim s n) ofs (s.ax[n]).prim
    ∃ u, exec (.axisDelivery n) s = .next (forAll (List.finRange 16) (rsReceive n (srcDelivery p 0)) u) ∧
      u = { s with regs := u.regs, ax := u.ax } ∧ (u.ax[n]).prim = p ∧ (u.ax[n]).ofs = ofs ∧ (u.ax[n]).ofsPend = none ∧
      (u.ax[n]).del = { srcDelivery p 0 with at_ := s.elapsed } ∧
      (u.ax[n]).hist = ((s.ax[n]).del :: (s.ax[n]).hist).take 7 ∧ (u.ax[n]).del.vel = p.vel ∧ (u.ax[n]).del.validity = 0 ∧
      RegsBut [(.ax n, Ax.FB_STATUS_MON), (.ax n, Ax.FB_STATUS_SRC)] s u) ∧
  (∀ (ag : Agent) (n : Fin 16) (w : Word) (s : State), Accepts ag (.ax n) 0x34 w s → fieldOf w Ax.ENC_CFG_EN = 1 →
    getF s (.ax n) Ax.ENC_CFG_EN = 0 →
    ∃ u, exec (.encoderEnable ag n w) s = .next (alarmGone 0x0708 (blkBase (.ax n)) u) ∧
      u = { s with regs := u.regs, ax := u.ax } ∧ getF u (.ax n) Ax.ENC_COUNT = 0 ∧ getF u (.ax n) Ax.ENC_STATUS = 0 ∧
      (u.ax[n]).enc.c = 0 ∧ (u.ax[n]).enc.edges = [] ∧ (u.ax[n]).enc.no = (s.ax[n]).enc.no) ∧
  (∀ (n : Fin 16) (a b : Bool) (s : State),
    let pa := fin64 (getF s (.ax n) Ax.ENC_CFG_PTA)
    let pb := fin64 (getF s (.ax n) Ax.ENC_CFG_PTB)
    let dir := getF s (.ax n) Ax.ENC_CFG_DIR == 1
    let e := (s.ax[n]).enc
    let step := (quadIndex a b + 4 - quadIndex e.a e.b) % 4
    live s (.ax n) = true → getF s (.ax n) Ax.ENC_CFG_EN = 1 → pa ≠ pb → cellDrive s pa = none → cellDrive s pb = none →
    (step = 1 ∨ step = 3 → ∃ t, exec (.encoderTransition n a b) s = .next t ∧
      t = { s with regs := t.regs, ax := t.ax, pt := t.pt } ∧ RegsBut [(.ax n, Ax.ENC_COUNT)] s t ∧
      (t.ax[n]).enc.c = (if (step == 1) != dir then e.c + 1 else e.c - 1) ∧
      getF t (.ax n) Ax.ENC_COUNT = ofSigned 32 (t.ax[n]).enc.c ∧ (t.ax[n]).enc.a = a ∧ (t.ax[n]).enc.b = b) ∧
    (step = 2 → ∃ u, exec (.encoderTransition n a b) s = .next (fbCauses n (raiseAlarm 0x0708 (blkBase (.ax n)) 1 true u)) ∧
      getF u (.ax n) Ax.ENC_STATUS = 1 ∧ (u.ax[n]).enc.c = e.c)) ∧
  (∀ (n : Fin 16) (s : State), live s (.ax n) = true → getF s (.ax n) Ax.ENC_CFG_EN = 1 →
    ((s.ax[n]).enc.no = 0 ∨ (s.ax[n]).enc.pubT ≠ s.time.now / frameNs s * frameNs s) →
    ∃ t, exec (.encoderSample n) s = .next t ∧ t = { s with ax := t.ax, free := t.free } ∧
      (t.ax[n]).enc.no = (s.ax[n]).enc.no + 1 ∧ (t.ax[n]).enc.pubC = (s.ax[n]).enc.c ∧
      (t.ax[n]).enc.pubSt = (1 - getF s (.ax n) Ax.ENC_STATUS) * 0x80 + 2 * getF s .time Time.STATUS_DISC ∧
      (t.ax[n]).enc.pubT = s.time.now / frameNs s * frameNs s ∧ (t.ax[n]).enc.c = (s.ax[n]).enc.c))

/-! ### The ports: emulators, SSI, latches, sectors (chapter 8) -/

/-- From R185 to R187, R190 to R193. Rows EM_ENABLE, EM_DISABLE, EM_EDGE_EMIT, SSI_CLOCK_FALL, SSI_CLOCK_RISE and
SSI_MONOFLOP_EXPIRY, accepted or due; in BEACON a write starts no emulator, nor does a write that leaves EN as it is (R463). An emulator that runs and owes at most 65,536 edges emits one in the sense
of its debt at the first of the two instants of 2.5 ns of the fabric cycle that asks for one, and none where neither does; counts owed beyond these are dropped and counted. An edge
of the SSI clock reaches the input of a cell that does not drive; after the last bit the line is low and the word can be read
again from the next falling edge on. An edge that is emitted reaches the inputs that name the emulator's cells at its sample.
That the lines move with the edges emitted alone is the model's choice (log 141), as are the course of an SSI transfer (log 68)
and what a latch takes an edge's age and time to be (log 69). Clock edges less than 50 ns apart in a word make the word in progress a free value: no clause constrains it.
From R195 to R199, R204. Rows LATCH_EDGE, LATCH_RECORD_POST, LATCH_SWTRIG, LATCH_ARM, LATCH_ENABLE and SECTOR_WINDOW_COMMIT, accepted or
due. An edge that an armed unit takes from a cell that does not drive, FILT samples after it or one more, waits with the time, the
epoch and DISC at its first sample; a fifth is lost. The record of the oldest edge is posted once its
position can be formed. A window commits whole with its last word, and is in use from the next delivery.
From R19, R179, R184, R201, R459. What drives PTn_P of a cell, in the order of the ranks: the boundary register and HIGHZ before all;
nothing in the safe state, under reset, isolated, in DORMANT or frozen; the sectors, with the torque enables that name the cell; the
lowest-numbered emulator (the model's choice, log 62) or 1 PPS; a program's write with OE; else nothing. -/
def Obligations.PortRows : Prop :=
  (
  (∀ (ag : Agent) (n : Fin 16) (w : Word) (s : State), Accepts ag (.em n) 8 w s → fieldOf w Em.CTRL_EN = 1 →
    getF s (.em n) Em.CTRL_EN = 0 → emState s n = 0 →
    (mode s ≠ 3 → ∃ t, exec (.emEnable ag n w) s = .next t ∧ t = { s with regs := t.regs, em := t.em } ∧ emState t n = 1 ∧
      getF t (.em n) Em.DROP = 0 ∧ getF t (.em n) Em.DEBTMAX = 0 ∧ getF t (.em n) Em.STATUS_LOST = 0 ∧
      (t.em[n]).e = 0 ∧ ∀ m : Fin 16, m ≠ n → t.em[m] = s.em[m]) ∧
    (mode s = 3 → ∃ t, exec (.emEnable ag n w) s = .next t ∧ t = { s with regs := t.regs } ∧ emState t n = 0)) ∧
  (∀ (ag : Agent) (n : Fin 16) (w : Word) (s : State), Accepts ag (.em n) 8 w s → fieldOf w Em.CTRL_EN = getF s (.em n) Em.CTRL_EN →
    (∃ t, exec (.emEnable ag n w) s = .next t ∧ t = { s with regs := t.regs } ∧ emState t n = emState s n) ∧
    (∃ t, exec (.emDisable ag n w) s = .next t ∧ t = { s with regs := t.regs } ∧ emState t n = emState s n)) ∧
  (∀ (ag : Agent) (n : Fin 16) (w : Word) (s : State), Accepts ag (.em n) 8 w s → fieldOf w Em.CTRL_EN = 0 →
    getF s (.em n) Em.CTRL_EN = 1 →
    ∃ t, exec (.emDisable ag n w) s = .next t ∧ t = { s with regs := t.regs, em := t.em } ∧ emState t n = 0 ∧
      (t.em[n]).e = (s.em[n]).e ∧ (emState s n ≠ 0 → (t.em[n]).run = false)) ∧
  (∀ (n : Fin 16) (h : Nat) (up : Bool) (s : State), emRuns s n = true → (emDebt s n 0).natAbs ≤ 65536 →
    let u := emTick n s
    ((h = 1 ∧ emDue u n 1 = some up) ∨ (h = 0 ∧ emDue u n 1 = none ∧ emDue u n 0 = some up)) →
    ∃ t, exec (.emEdgeEmit n) s = .next (emSeen n 0 (if h = 1 then emSeen n 1 t else t)) ∧
      t = { s with regs := t.regs, fresh := t.fresh, em := t.em, occ := t.occ } ∧
      (t.em[n]).e = (if up then (s.em[n]).e + 1 else (s.em[n]).e - 1) ∧
      (t.em[n]).q = (if up then (s.em[n]).q + 1 else (s.em[n]).q - 1) ∧ (t.em[n]).tLast = grid s - h ∧
      (t.em[n]).pulse = true ∧ getF t (.em n) Em.COUNT = ofSigned 32 (t.em[n]).e ∧
      RegsBut [(.em n, Em.COUNT), (.em n, Em.STATUS_MASKED), (.em n, Em.STATUS_DEBTEV), (.em n, Em.DEBTMAX)] s t) ∧
  (∀ (n : Fin 16) (s : State), emRuns s n = true → (emDebt s n 0).natAbs ≤ 65536 →
    emDue (emTick n s) n 1 = none → emDue (emTick n s) n 0 = none →
    ∃ t, exec (.emEdgeEmit n) s = .next t ∧ t = { s with regs := t.regs, fresh := t.fresh, em := t.em } ∧
      (t.em[n]).e = (s.em[n]).e ∧ (t.em[n]).tLast = (s.em[n]).tLast) ∧
  (∀ (n : Fin 16) (s : State), emRuns s n = true → 65536 < (emDebt s n 0).natAbs →
    ∃ t, exec (.emEdgeEmit n) s = .next t ∧ getF t (.em n) Em.STATUS_LOST = 1 ∧
      getF t (.em n) Em.DROP = min (2 ^ 32 - 1) (getF s (.em n) Em.DROP + ((emDebt s n 0).natAbs - 65536))) ∧
  (∀ (n : Fin 16) (s : State), emRuns s n = false → exec (.emEdgeEmit n) s = .next s) ∧
  (∀ (n : Fin 16) (s : State), ssiServes s n = true → (s.em[n]).mono = none → (s.em[n]).run = false →
    cellDrive s (fin64 (getF s (.em n) Em.PORT_PTA)) = none →
    ∃ t, exec (.ssiClockFall n) s = .next t ∧ t = { s with em := t.em, pt := t.pt } ∧ (t.em[n]).word = (ssiWord s n).1 ∧
      (t.em[n]).wbits = (ssiWord s n).2 ∧ (t.em[n]).left = (ssiWord s n).2 ∧ (t.em[n]).run = true ∧
      (t.em[n]).clk = false ∧ (t.em[n]).lastEdge = s.elapsed) ∧
  (∀ (n : Fin 16) (s : State), ssiServes s n = true → (s.em[n]).run = true → 50 ≤ sinceNs s (s.em[n]).lastEdge →
    cellDrive s (fin64 (getF s (.em n) Em.PORT_PTA)) = none →
    ∃ t, exec (.ssiClockRise n) s = .next t ∧ t = { s with em := t.em, pt := t.pt } ∧ (t.em[n]).word = (s.em[n]).word ∧
      (t.em[n]).clk = true ∧
      (0 < (s.em[n]).left → (t.em[n]).data = (bitAt (s.em[n]).word ((s.em[n]).left - 1) == 1) ∧
        (t.em[n]).left = (s.em[n]).left - 1) ∧
      ((s.em[n]).left = 0 → (t.em[n]).mono = some s.elapsed ∧ (t.em[n]).data = false ∧ (t.em[n]).low = true)) ∧
  (∀ (n : Fin 16) (t1 : Nat) (s : State), ssiServes s n = true → (s.em[n]).mono = some t1 →
    ((s.em[n]).run = false ∨ 50 ≤ sinceNs s (s.em[n]).lastEdge) →
    cellDrive s (fin64 (getF s (.em n) Em.PORT_PTA)) = none →
    ∃ t, exec (.ssiClockFall n) s = .next t ∧ t = { s with em := t.em, pt := t.pt } ∧ (t.em[n]).mono = some s.elapsed ∧
      (t.em[n]).word = (s.em[n]).word ∧ (t.em[n]).low = false ∧
      ((s.em[n]).low = true → (t.em[n]).left = (s.em[n]).wbits) ∧ ((s.em[n]).low = false → (t.em[n]).left = (s.em[n]).left)) ∧
  (∀ (n : Fin 16) (s : State), ssiServes s n = true → (s.em[n]).run = true → sinceNs s (s.em[n]).lastEdge < 50 →
    cellDrive s (fin64 (getF s (.em n) Em.PORT_PTA)) = none →
    ∃ t, exec (.ssiClockRise n) s = .next t ∧ t.free = s.free + 1 ∧ getF t (.em n) Em.STATUS_SSIOVR = 1 ∧
      RegsBut [(.em n, Em.STATUS_SSIOVR)] s t) ∧
  (∀ (n : Fin 16) (s : State), (cellDrive s (fin64 (getF s (.em n) Em.PORT_PTA))).isSome = true →
    (∃ t, exec (.ssiClockFall n) s = .next t ∧ t = { s with pt := t.pt }) ∧
    (∃ t, exec (.ssiClockRise n) s = .next t ∧ t = { s with pt := t.pt })) ∧
  (∀ (n : Fin 16) (t0 : Nat) (s : State), (s.em[n]).mono = some t0 → live s (.em n) = true →
    1000 * getF s (.em n) Em.SSI_TM ≤ sinceNs s t0 →
    ∃ t, exec (.ssiMonoflopExpiry n) s = .next t ∧ t = { s with em := t.em } ∧ (t.em[n]).mono = none ∧
      (t.em[n]).run = false ∧ (t.em[n]).left = 0 ∧ (t.em[n]).data = true)) ∧
  (
  (∀ (n : Fin 32) (rising : Bool) (age : Nat) (s : State), portRuns s (.lu n) = true → getF s (.lu n) Lu.CFG_EN = 1 →
    getF s (.lu n) Lu.STATUS_ARMED = 1 → cellDrive s (luCell s n) = none → luFiltered s n age = true →
    (getF s (.lu n) Lu.CFG_EDGE = 3 ∨ getF s (.lu n) Lu.CFG_EDGE = (if rising then 1 else 2)) →
    ((s.lu[n]).edges.length < 4 →
      ∃ t, exec (.latchEdge n rising age) s = .next t ∧ t = { s with regs := t.regs, lu := t.lu, pt := t.pt } ∧
        RegsBut [(.lu n, Lu.STATUS_ARMED)] s t ∧
        getF t (.lu n) Lu.STATUS_ARMED = (if getF s (.lu n) Lu.CFG_ONESHOT = 1 then 0 else 1) ∧
        (let b := timeBack s ((s.elapsed : Int) - (5 * age * 2 ^ 27 : Nat))
         ∃ p : PendEdge, (t.lu[n]).edges = (s.lu[n]).edges ++ [p] ∧
          p.te2 = 2 * (s.time.now : Int) - 5 * age - b.1 / 2 ^ 27 ∧ p.el2 = 2 * (elapsedNs s : Int) - 5 * age ∧
          p.edge = rising ∧ p.epoch = b.2.1 ∧ p.disc = b.2.2 ∧
          (s.time.marks = [] → p.te2 = 2 * (s.time.now : Int) - 5 * age ∧ p.epoch = timeEpoch s))) ∧
    (4 ≤ (s.lu[n]).edges.length → (s.lu[n]).alarmed = true →
      ∃ t, exec (.latchEdge n rising age) s = .next t ∧ t = { s with regs := t.regs, fresh := t.fresh, lu := t.lu, pt := t.pt } ∧
        getF t (.lu n) Lu.STATUS_OVF = 1 ∧ (t.lu[n]).lost = true ∧ (t.lu[n]).edges = (s.lu[n]).edges)) ∧
  (∀ (n : Fin 32) (rising : Bool) (age : Nat) (s : State),
    ((cellDrive s (luCell s n)).isSome = true ∨ luFiltered s n age = false) →
    ∃ t, exec (.latchEdge n rising age) s = .next t ∧ t = { s with pt := t.pt }) ∧
  (∀ (n : Fin 32) (e : PendEdge) (rest : List PendEdge) (p : Int) (x held : Bool) (s : State),
    portRuns s (.lu n) = true → getF s (.lu n) Lu.CFG_EN = 1 → (s.lu[n]).edges = e :: rest →
    edgeResult s n e = some (p, x, held) →
    ∃ t, exec (.latchRecordPost n) s = .next t ∧ (t.lu[n]).edges = rest ∧ (t.lu[n]).lost = false ∧
      (t.lu[n]).recPos = ofSigned 64 p ∧ getF t (.lu n) Lu.STATUS_RECEV = 1 ∧
      getF t (.lu n) Lu.TIME = ((e.te2 / 2) % (timeMod : Int)).toNat % 2 ^ 32 ∧
      getF t (.lu n) Lu.STATUS_RECCNT = (getF s (.lu n) Lu.STATUS_RECCNT + 1) % 2 ^ 16) ∧
  (∀ (ag : Agent) (n : Fin 32) (w : Word) (s : State), Accepts ag (.lu n) 8 w s →
    (getF s (.lu n) Lu.CFG_EN = 0 → fieldOf w Lu.CFG_EN = 1 → fieldOf w Lu.CFG_SWTRIG = 0 →
      ∃ t, exec (.latchEnable ag n w) s = .next t ∧ t = { s with regs := t.regs, lu := t.lu } ∧
        getF t (.lu n) Lu.STATUS_ARMED = 1 ∧ (t.lu[n]).edges = [] ∧ (t.lu[n]).lost = false) ∧
    (getF s (.lu n) Lu.CFG_EN = 1 → fieldOf w Lu.CFG_EN = 1 → fieldOf w Lu.CFG_SWTRIG = 0 → fieldOf w Lu.CFG_ARM = 1 →
      ∃ t, exec (.latchArm ag n w) s = .next t ∧ t = { s with regs := t.regs } ∧ getF t (.lu n) Lu.STATUS_ARMED = 1) ∧
    (getF s (.lu n) Lu.CFG_EN = 1 → fieldOf w Lu.CFG_EN = 1 → fieldOf w Lu.CFG_SWTRIG = 1 → fieldOf w Lu.CFG_ARM = 0 →
      portRuns s (.lu n) = true → (s.lu[n]).edges.length < 4 →
      ∃ t, exec (.latchSwtrig ag n w) s = .next t ∧ t = { s with regs := t.regs, lu := t.lu } ∧
        getF t (.lu n) Lu.STATUS_ARMED = getF s (.lu n) Lu.STATUS_ARMED ∧
        ∃ p : PendEdge, (t.lu[n]).edges = (s.lu[n]).edges ++ [p] ∧
          ((∀ m ∈ s.time.marks, m.at_ ≤ s.elapsed) → p.te2 = 2 * (s.time.now : Int)))) ∧
  (∀ (ag : Agent) (n : Fin 64) (w : Word) (s : State), Accepts ag (.sec n) 0x18 w s →
    ∃ t, exec (.sectorWindowCommit ag n w) s = .next t ∧ t = { s with regs := t.regs, sec := t.sec } ∧
      RegsBut [(.sec n, Sec.HI_H)] s t ∧ secLo t n = secLo s n ∧ secHi t n = secHi s n ∧
      (t.sec[n]).commit = some (getF s (.sec n) Sec.LO_L, getF s (.sec n) Sec.LO_H, getF s (.sec n) Sec.HI_L, w.toNat))) ∧
  (
  ∀ (c : Fin 64) (s : State),
    let safe := chipSafe s = true ∨ regionReset s .port = true ∨ isolated s (.pt c) = true ∨ dormant s = true ∨ frozen s = true
    let secs := (List.finRange 64).filter (fun n => secClaims s n c && !isolated s (.sec n))
    let tens := (List.finRange 16).filter (fun a => tenClaims s a c && !isolated s (.ax a) && !regionReset s .control)
    let ems := (List.finRange 16).filter (fun n => (emLevel s n c).isSome && !isolated s (.em n))
    (s.ec.jtagIr = 5 → cellDrive s c = none) ∧
    (s.ec.jtagIr ≠ 5 → boundaryDrives s = true → cellDrive s c = boundaryDrive s (.ptP c)) ∧
    (s.ec.jtagIr ≠ 5 → boundaryDrives s = false →
      (safe → cellDrive s c = none) ∧
      (¬ safe → tens = [] → secs ≠ [] → cellDrive s c = some (secs.any (secLevel s))) ∧
      (¬ safe → ∀ a l, tens = a :: l →
        let on := tens.all (fun a => getF s (.ax a) Ax.TEN_ASSERTED == 1) &&
          (secs.isEmpty || secs.any (secLevel s) != (getF s (.ax a) Ax.TEN_POL == 1))
        cellDrive s c = some (on != (getF s (.ax a) Ax.TEN_POL == 1))) ∧
      (¬ safe → tens = [] → secs = [] →
        (∀ n l, ems = n :: l → cellDrive s c = emLevel s n c) ∧
        (ems = [] → ppsClaims s c = true → cellDrive s c = some s.time.ppsOut) ∧
        (ems = [] → ppsClaims s c = false → getF s (.pt c) Pt.OUT_OE = 1 → cellDrive s c = some (getF s (.pt c) Pt.OUT_P == 1)) ∧
        (ems = [] → ppsClaims s c = false → getF s (.pt c) Pt.OUT_OE = 0 → cellDrive s c = none))))

/-- From R174, R182, R185, R199. Rows PORT_DELIVERY and HELD_DELIVERY, due: a delivery reaches every emulator of its axis, in ascending
order, then every comparator; at a frame without a publish an axis in FB_SAFE or isolated delivers HELD, and one in FB_HOLDOVER whose
source is silent delivers EXTRAP (in FB_SAFE every delivery is HELD, R182): which frames these are is the model's choice (log 61).
From R205 to R207, R209, R213 to R216. Row SERVO_INSTANT, due, of a lane that has a delivery: the lane is in RUN, TSERVO is the
instant, and the output counts; while the newest delivery is HELD the velocity is 0 and HELDEV and SHORTEV are set. From R242, R244: a
rate group locked to the lane comes to the end of its batch at this instant (`rgJudge`). -/
def Obligations.DeliveriesAndServoInstants : Prop :=
  (
  (∀ (a : Fin 16) (s : State), clocked s .port = true → (s.ax[a]).toPort = true →
    let u := modAx a (fun x => { x with toPort := false }) s
    let v := forAll ((List.finRange 16).filter (fun n => getF u (.em n) Em.CTRL_AXIS == a.val)) (emDeliver (s.ax[a]).del) u
    ∃ t, exec (.portDelivery a) s = .next t ∧
      t = forAll ((List.finRange 64).filter (fun n => getF v (.sec n) Sec.CFG_AXIS == a.val)) (secDeliver (s.ax[a]).del) v ∧
      (t.ax[a]).toPort = false ∧ (t.ax[a]).del = (s.ax[a]).del) ∧
  (∀ (a : Fin 16) (s : State), clocked s .port = false ∨ (s.ax[a]).toPort = false → exec (.portDelivery a) s = .next s) ∧
  (∀ (a : Fin 16) (s : State), clocked s .control = true → (s.ax[a]).del.t ≠ s.time.now / frameNs s * frameNs s →
    (axFb s a = 3 ∨ isolated s (.ax a) = true) →
    ∃ d : Delivery, exec (.heldDelivery a) s = .next (portDeliver a (axDeliver a d s)) ∧
      d.pos = (s.ax[a]).del.pos ∧ d.vel = 0 ∧ d.validity = 2 ∧ d.t = s.time.now / frameNs s * frameNs s) ∧
  (∀ (a : Fin 16) (s : State), clocked s .control = true → (s.ax[a]).del.t ≠ s.time.now / frameNs s * frameNs s →
    axFb s a = 2 → isolated s (.ax a) = false → regionReset s .control = false →
    srcPublishes s a (if (s.ax[a]).useSec then axSec s a else axPrim s a) = false →
    ∃ d : Delivery, exec (.heldDelivery a) s = .next (portDeliver a (axDeliver a d s)) ∧
      d.pos = wrap64 (advance (s.ax[a]).good.pos (s.ax[a]).good.vel (d.te - (s.ax[a]).good.te)) ∧ d.vel = (s.ax[a]).good.vel ∧
      d.validity = 1 ∧ d.t = s.time.now / frameNs s * frameNs s ∧ d.te = (elapsedNs s : Int) - (s.time.now - d.t : Nat)) ∧
  (∀ (a : Fin 16) (s : State), axFb s a < 2 → isolated s (.ax a) = false → regionReset s .control = false →
    exec (.heldDelivery a) s = .next s)) ∧
  (
  ∀ (n : Fin 16) (ts : Nat) (s : State), live s (.rs n) = true → (rsState s n = 1 ∨ rsState s n = 2) →
    servoDue s n = some ts → (s.rs[n]).win ≠ [] → getF s (.rs n) Rs.CFG_REC = 0 →
    ∃ t, exec (.servoInstant n) s = .next (rgJudge n t) ∧ t = { s with regs := t.regs, fresh := t.fresh, rs := t.rs } ∧
      ((∀ k : Fin 4, ¬ (getF s .lpe (Lpe.RG_CFG_EN k) = 1 ∧ getF s .lpe (Lpe.RG_CFG_LOCK k) = 1 ∧
        getF s .lpe (Lpe.RG_CFG_LANE k) = n.val)) → rgJudge n t = t) ∧
      rsState t n = 2 ∧ getF t (.rs n) Rs.TSERVO = ts % 2 ^ 32 ∧ getF t (.rs n) Rs.STATUS_RECEV = 1 ∧
      getF t (.rs n) Rs.STATUS_RECCNT = (getF s (.rs n) Rs.STATUS_RECCNT + 1) % 2 ^ 16 ∧ (t.rs[n]).lastTs = ts ∧
      (rsState s n = 1 → getF t (.rs n) Rs.STATUS_GBEV = 1) ∧
      (((s.rs[n]).win.headD {}).validity = 2 → (t.rs[n]).velOut = 0 ∧ getF t (.rs n) Rs.STATUS_HELDEV = 1 ∧
        getF t (.rs n) Rs.STATUS_SHORTEV = 1))

/-! ### Resampler lanes (chapter 9) -/

/-- From R206, R207, R214 to R216, R219 to R222. Rows RS_ENABLE, RS_DISABLE, SHAPE_ENABLE, SHAPE_DISABLE, SHAPE_COEF_WRITE, SHAPE_REQUEST and
FADE_COMPLETE, accepted or due. A coefficient is written only in the bank that is not active while no fade runs; a request for
the active bank is NOP, one during a fade waits; one in the fabric cycle in which a fade has ended is taken as made during that
fade (log 123). The bank that a fade goes to becomes active at its end. -/
def Obligations.ResamplerCommands : Prop :=
  (∀ (ag : Agent) (n : Fin 16) (w : Word) (s : State), Accepts ag (.rs n) 8 w s →
    (fieldOf w Rs.CFG_EN = 1 → getF s (.rs n) Rs.CFG_EN = 0 →
      ∃ t, exec (.rsEnable ag n w) s = .next t ∧ t = { s with regs := t.regs, rs := t.rs } ∧ rsState t n = 1 ∧
        (t.rs[n]).win = [] ∧ (t.rs[n]).gb = true ∧
        getF t (.rs n) Rs.PHASE = getF s (.rs n) Rs.PHASE % getF s (.rs n) Rs.PERIOD) ∧
    (fieldOf w Rs.CFG_EN = 0 → getF s (.rs n) Rs.CFG_EN = 1 →
      ∃ t, exec (.rsDisable ag n w) s = .next t ∧ t = { s with regs := t.regs } ∧ rsState t n = 0)) ∧
  (∀ (ag : Agent) (n : Fin 16) (w : Word) (s : State), Accepts ag (.rs n) 0x38 w s →
    (fieldOf w Rs.SH_CTRL_SHEN = 1 → getF s (.rs n) Rs.SH_CTRL_SHEN = 0 →
      ∃ t, exec (.shapeEnable ag n w) s = .next t ∧ t = { s with regs := t.regs, rs := t.rs } ∧ (t.rs[n]).seed = true ∧
        getF t (.rs n) Rs.SH_CTRL_SHEN = 1) ∧
    (fieldOf w Rs.SH_CTRL_SHEN = 0 → getF s (.rs n) Rs.SH_CTRL_SHEN = 1 →
      ∃ t, exec (.shapeDisable ag n w) s = .next t ∧ t = { s with regs := t.regs, fresh := t.fresh, rs := t.rs } ∧
        getF t (.rs n) Rs.SH_STATUS_FADING = 0 ∧
        (getF s (.rs n) Rs.SH_STATUS_FADING = 0 → shActive t n = shActive s n) ∧
        (getF s (.rs n) Rs.SH_STATUS_FADING = 1 → getF t (.rs n) Rs.SH_STATUS_ACTIVE = (s.rs[n]).fadeTgt % 2 ∧
          getF t (.rs n) Rs.SH_STATUS_FADEEV = 1 ∧ (t.rs[n]).fadeJ = 0 ∧
          (t.rs[n]).reqDue = flag s (.rs n) Rs.SH_STATUS_REQPEND))) ∧
  (∀ (n : Fin 16) (s : State), (s.rs[n]).reqDue = true → (s.rs[n]).switchTo = none → getF s (.rs n) Rs.SH_STATUS_REQTGT ≠ (shActive s n).val →
    let t := shWaiting n s
    shActive t n = fin2 (getF s (.rs n) Rs.SH_STATUS_REQTGT) ∧ getF t (.rs n) Rs.SH_STATUS_REQPEND = 0 ∧
      getF t (.rs n) Rs.SH_STATUS_FADING = getF s (.rs n) Rs.SH_STATUS_FADING) ∧
  (∀ (ag : Agent) (n : Fin 16) (b : Fin 2) (c : Fin 20) (w : Word) (s : State),
    Accepts ag (.rs n) ((if b = 0 then 0x60 else 0xB0) + 4 * c.val) w s →
    let f := if b = 0 then Rs.SHCOEF_A c.val else Rs.SHCOEF_B c.val
    ∃ t, exec (.shapeCoefWrite ag n b c w) s = .next t ∧ t = { s with regs := t.regs, fresh := t.fresh } ∧
      (b ≠ shActive s n → getF s (.rs n) Rs.SH_STATUS_FADING = 0 → getF t (.rs n) f = w.toNat ∧ RegsBut [(.rs n, f)] s t) ∧
      (b = shActive s n ∨ getF s (.rs n) Rs.SH_STATUS_FADING = 1 →
        getF t (.rs n) Rs.SH_STATUS_WREJ = 1 ∧ RegsBut [(.rs n, Rs.SH_STATUS_WREJ)] s t)) ∧
  (∀ (ag : Agent) (n : Fin 16) (w : Word) (s : State), Accepts ag (.rs n) 0x3C w s → fieldOf w Rs.SH_CMD_REQ = 1 →
    fadeEnded s n = none →
    ∃ t, exec (.shapeRequest ag n w) s = .next t ∧ t = { s with regs := t.regs, fresh := t.fresh, rs := t.rs } ∧
      (getF s (.rs n) Rs.SH_STATUS_FADING = 1 →
        getF t (.rs n) Rs.SH_STATUS_REQPEND = 1 ∧ getF t (.rs n) Rs.SH_STATUS_REQTGT = fieldOf w Rs.SH_CMD_TGT ∧
        (getF s (.rs n) Rs.SH_STATUS_REQPEND = 1 → getF t (.rs n) Rs.SH_STATUS_REQREPL = 1)) ∧
      (getF s (.rs n) Rs.SH_STATUS_FADING = 0 → fieldOf w Rs.SH_CMD_TGT = (shActive s n).val →
        getF t (.rs n) Rs.SH_STATUS_NOP = 1 ∧ t.rs = s.rs) ∧
      (getF s (.rs n) Rs.SH_STATUS_FADING = 0 → fieldOf w Rs.SH_CMD_TGT ≠ (shActive s n).val →
        (getF s (.rs n) Rs.SH_CTRL_SHEN = 1 → getF t (.rs n) Rs.SH_STATUS_FADING = 1 ∧ (t.rs[n]).startFade = true) ∧
        (getF s (.rs n) Rs.SH_CTRL_SHEN = 0 → getF t (.rs n) Rs.SH_STATUS_FADING = 0 ∧ 
          (t.rs[n]).switchTo = some (fieldOf w Rs.SH_CMD_TGT)))) ∧
  (∀ (ag : Agent) (n : Fin 16) (w : Word) (pend : Bool) (nop : Nat) (s : State), Accepts ag (.rs n) 0x3C w s →
    fieldOf w Rs.SH_CMD_REQ = 1 → fadeEnded s n = some (pend, nop) →
    ∃ t, exec (.shapeRequest ag n w) s = .next t ∧ t = { s with regs := t.regs, fresh := t.fresh, rs := t.rs } ∧
      getF t (.rs n) Rs.SH_STATUS_REQTGT = fieldOf w Rs.SH_CMD_TGT ∧
      (pend = true → getF t (.rs n) Rs.SH_STATUS_REQREPL = 1) ∧
      (fieldOf w Rs.SH_CMD_TGT = (shActive s n).val → getF t (.rs n) Rs.SH_STATUS_NOP = 1 ∧
        getF t (.rs n) Rs.SH_STATUS_FADING = 0 ∧ (t.rs[n]).startFade = false) ∧
      (fieldOf w Rs.SH_CMD_TGT ≠ (shActive s n).val → getF t (.rs n) Rs.SH_STATUS_FADING = 1 ∧
        (t.rs[n]).startFade = true ∧ (t.rs[n]).fadeTgt = fieldOf w Rs.SH_CMD_TGT)) ∧
  (∀ (n : Fin 16) (s : State), live s (.rs n) = true → getF s (.rs n) Rs.SH_STATUS_FADING = 1 →
    (s.rs[n]).startFade = false → (s.rs[n]).fadeF ≤ (s.rs[n]).fadeJ →
    ∃ t, exec (.fadeComplete n) s = .next t ∧ t = { s with regs := t.regs, fresh := t.fresh, rs := t.rs } ∧
      getF t (.rs n) Rs.SH_STATUS_ACTIVE = (s.rs[n]).fadeTgt % 2 ∧ getF t (.rs n) Rs.SH_STATUS_FADEEV = 1 ∧
      getF t (.rs n) Rs.SH_STATUS_REQPEND = 0 ∧
      (getF s (.rs n) Rs.SH_STATUS_REQPEND = 0 → getF t (.rs n) Rs.SH_STATUS_FADING = 0) ∧
      (getF s (.rs n) Rs.SH_STATUS_REQPEND = 1 →
        (getF s (.rs n) Rs.SH_STATUS_REQTGT ≠ (s.rs[n]).fadeTgt →
          getF t (.rs n) Rs.SH_STATUS_FADING = 1 ∧ (t.rs[n]).startFade = true ∧
          (t.rs[n]).fadeTgt = getF s (.rs n) Rs.SH_STATUS_REQTGT) ∧
        (getF s (.rs n) Rs.SH_STATUS_REQTGT = (s.rs[n]).fadeTgt →
          getF t (.rs n) Rs.SH_STATUS_FADING = 0 ∧ getF t (.rs n) Rs.SH_STATUS_NOP = 1)))

/-! ### Loops (chapter 10) -/

/-- From R229, R230, R237, R238, R240, R247. Rows LOOP_OPEN, LOOP_TRACK, LOOP_CLOSE, LOOP_OFF, LOOP_TARGET_COMMIT and LOOP_ISET,
accepted. A command in the fabric cycle in which a ramp has ended comes before that end. A command that the table of R237 does not
list is refused with CMDREJ: the model's choice (log 44); the queue gives the order of a cycle's commands: the model's choice (log
123). -/
def Obligations.LoopCommands : Prop :=
  ∀ (ag : Agent) (n : Fin 64) (w : Word) (s : State),
    let taken : State → Prop := fun t => t.lp = s.lp.set n { s.lp[n] with cmd := (t.lp[n]).cmd }
    let plain := rampEnded s n = none
    (Accepts ag (.lp n) 0x10 w s → fieldOf w Lp.CMD = 1 → plain →
      ∃ t, exec (.loopOpen ag n w) s = .next t ∧ t = { s with regs := t.regs, fresh := t.fresh, lp := t.lp, inj := t.inj } ∧
        (lpState s n = 0 → roleOk s n = true → axFb s (lpAxis s n) ≠ 3 →
          lpState t n = 1 ∧ (t.lp[n]).i = 0 ∧ (t.lp[n]).d = 0 ∧ (t.lp[n]).loadHist = true) ∧
        (lpState s n = 0 → roleOk s n = true → axFb s (lpAxis s n) = 3 →
          lpState t n = 6 ∧ getF t (.lp n) Lp.STATUS_SAFEEV = 1 ∧
          getF t (.lp n) Lp.U = getF s (.ax (lpAxis s n)) Ax.SAFE_CMD) ∧
        (lpState s n = 0 → roleOk s n = false → lpState t n = 0 ∧ getF t (.lp n) Lp.STATUS_CMDREJ = 1) ∧
        (2 ≤ lpState s n → lpState s n ≤ 5 → lpState t n = 1 ∧ getF t (.lp n) Lp.UMAN = getF s (.lp n) Lp.U ∧ taken t)) ∧
    (Accepts ag (.lp n) 0x10 w s → fieldOf w Lp.CMD = 2 → plain →
      ∃ t, exec (.loopTrack ag n w) s = .next t ∧ t = { s with regs := t.regs, fresh := t.fresh, lp := t.lp, inj := t.inj } ∧
        (lpState s n = 0 → roleOk s n = true → axFb s (lpAxis s n) ≠ 3 → lpState t n = 2) ∧
        (lpState s n = 1 ∨ lpState s n = 3 ∨ lpState s n = 4 → lpState t n = 2 ∧ taken t) ∧
        (lpState s n = 5 ∨ lpState s n = 6 →
          lpState t n = lpState s n ∧ getF t (.lp n) Lp.STATUS_CMDREJ = 1)) ∧
    (Accepts ag (.lp n) 0x10 w s → fieldOf w Lp.CMD = 3 → plain → (lpState s n = 1 ∨ lpState s n = 2) →
      ∃ t, exec (.loopClose ag n w) s = .next t ∧ t = { s with regs := t.regs, fresh := t.fresh, lp := t.lp } ∧
        (closeOk s n = true → lpState t n = 3 ∧ (t.lp[n]).r = (s.lp[n]).y ∧ (t.lp[n]).yc = (s.lp[n]).y ∧
          (t.lp[n]).i = (clampInt s n (s.lp[n]).i).1 ∧ (getF s (.lp n) Lp.CTRL_RVINIT = 0 → (t.lp[n]).q = 0)) ∧
        (closeOk s n = false → lpState t n = lpState s n ∧ taken t ∧ getF t (.lp n) Lp.STATUS_CMDREJ = 1)) ∧
    (Accepts ag (.lp n) 0x10 w s → fieldOf w Lp.CMD = 4 → plain →
      ∃ t, exec (.loopOff ag n w) s = .next t ∧ t = { s with regs := t.regs, fresh := t.fresh, lp := t.lp, inj := t.inj } ∧
        lpState t n = 0 ∧ taken t) ∧
    (∀ ev, Accepts ag (.lp n) 0x10 w s → rampEnded s n = some ev →
      (fieldOf w Lp.CMD = 1 → ∃ t, exec (.loopOpen ag n w) s = .next t ∧ lpState t n = 1 ∧
        getF t (.lp n) Lp.UMAN = getF s (.lp n) Lp.U ∧ getF t (.lp n) Lp.STATUS_CLOSEDEV = ev % 2) ∧
      (fieldOf w Lp.CMD = 2 → ∃ t, exec (.loopTrack ag n w) s = .next t ∧ lpState t n = 2 ∧
        getF t (.lp n) Lp.STATUS_CLOSEDEV = ev % 2) ∧
      (fieldOf w Lp.CMD = 3 → ∃ t, exec (.loopClose ag n w) s = .next t ∧ lpState t n = 4 ∧
        getF t (.lp n) Lp.STATUS_CLOSEDEV = 1) ∧
      (fieldOf w Lp.CMD = 4 → ∃ t, exec (.loopOff ag n w) s = .next t ∧ lpState t n = 0 ∧
        getF t (.lp n) Lp.STATUS_CLOSEDEV = ev % 2)) ∧
    (Accepts ag (.lp n) 0x1C w s →
      ∃ t, exec (.loopTargetCommit ag n w) s = .next t ∧ t = { s with regs := t.regs, fresh := t.fresh, lp := t.lp } ∧
        (t.lp[n]).target = toSigned 64 (getF s (.lp n) Lp.TARGET_LO + 2 ^ 32 * w.toNat) ∧
        (lpState s n ≠ 4 → lpState t n = lpState s n) ∧
        (lpState s n = 4 → getF s (.lp n) Lp.CTRL_RLIM = 1 → lpMeas s n = 0 →
          (t.lp[n]).target ≠ (s.lp[n]).seenTarget → lpState t n = 3)) ∧
    (Accepts ag (.lp n) 0x3C w s →
      (running s (.lp n) = true → exec (.loopIset ag n w) s = .next s) ∧
      (running s (.lp n) = false → ∃ t, exec (.loopIset ag n w) s = .next t ∧ t = { s with lp := t.lp } ∧
        (t.lp[n]).i = (clampInt s n (toSigned 32 w.toNat * 2 ^ 24)).1))

/-- From R232, R233, R241 to R243, R250, R252. Rows RATE_GROUP_INSTANT and LOOP_EVALUATION, due. An instant whose last batch has ended
makes the batch of the group's loops that are neither OFF nor held in HOLDOVER, in ascending order, after the injections of the
instant; an idle engine starts on the head of the first batch that is not empty and takes its measured value, its bank and what is
injected at its instant; an evaluation that has started in this fabric cycle gives way to a lower group; an
evaluation that has taken its time completes: the loop is evaluated, its output respects the limits of that bank, and, unless it is
a FEED loop, its axis's output is selected; the next one starts. The model's choices: the rounding of what is held (log 41, 51),
FEED in TRACK without a follower (log 48), the count of batches (log 49), the batch place of a loop in SAFE (log 152), the value
shown of an injection of +2^31 (log 128), and the order of a cycle's commands (log 123). -/
def Obligations.RateGroups : Prop :=
  (∀ (k : Fin 4) (ts : Nat) (s : State), lpeRuns s = true → getF s .lpe (Lpe.RG_CFG_EN k) = 1 →
    groupInstant s k = some ts → (s.rg[k]).batch = [] → (∀ v, s.lpEval = some v → v.grp ≠ k ∨ v.old = true) →
    let s0 := { s with lpEval := s.lpEval.map (fun v => if v.grp = k then { v with old := true } else v) }
    let u := rgInject k ts (groupEl s k ts) (if (s.rg[k]).overrun then capGroup k true s0 else s0)
    let b := ((List.finRange 64).filter (fun n => lpGroup u n == k && lpEvaluated u n)).map Fin.val
    ∃ v, exec (.rateGroupInstant k) s = .next (lpNext lpAll (if b.isEmpty then rgDone k v else lpYield k v)) ∧
      v = { u with rg := v.rg, regs := v.regs, occ := v.occ } ∧ (v.rg[k]).batch = b ∧ (v.rg[k]).inst = ts ∧
      (v.rg[k]).overrun = false ∧ (v.rg[k]).lastAt = some (groupEl s k ts) ∧ getF v .lpe (Lpe.RG_T k) = ts % 2 ^ 32 ∧
      RegsBut [(.lpe, Lpe.RG_T k)] u v ∧ ∀ j : Fin 4, j ≠ k → v.rg[j] = u.rg[j]) ∧
  (∀ (k : Fin 4) (v : LpEval) (s : State), s.lpEval = some v →
    (v.start = s.elapsed → k < v.grp → v.old = false → ∃ t, lpYield k s = t ∧ t.lpEval = none ∧
      (t.rg[v.grp]).batch = v.loop.val :: (s.rg[v.grp]).batch ∧ t = { s with lpEval := none, rg := t.rg } ∧
      ∀ j : Fin 4, j ≠ v.grp → t.rg[j] = s.rg[j]) ∧
    (v.start ≠ s.elapsed ∨ v.grp ≤ k ∨ v.old = true → lpYield k s = s)) ∧
  (∀ (k : Fin 4) (ts u : Nat) (s : State), (∀ i : Fin 4, lpGroup s (fin64 (getF s (.inj i) Inj.CFG_LOOP)) = k →
      u + s.time.inc ≤ (s.inj[i]).startAt) → rgInject k ts u s = s) ∧
  (∀ (k : Fin 4) (n : Fin 64) (rest : List Nat) (s : State), s.lpEval = none → lpeRuns s = true →
    (∀ j : Fin 4, j < k → (s.rg[j]).batch = []) → (s.rg[k]).batch = n.val :: rest → lpEvaluated s n = true →
    let t := lpNext lpAll s
    t = { s with rg := t.rg, lpEval := t.lpEval } ∧ (t.rg[k]).batch = rest ∧
      ∃ v, t.lpEval = some v ∧ v.grp = k ∧ v.loop = n ∧ v.start = s.elapsed ∧ v.ns = evalNs s ∧
        v.inst = (s.rg[k]).inst ∧ v.y = (measure s n).1 ∧ v.co = coefs s n ∧ v.inj = injOuts s ∧ v.old = false) ∧
  (∀ (v : LpEval) (s : State), s.lpEval = some v → lpeRuns s = true → v.ns ≤ sinceNs s v.start →
    let u := lpFinish v { s with lpEval := none }
    exec (.loopEvaluation v.loop) s
      = .next (lpNext lpAll (if !v.old && (u.rg[v.grp]).batch.isEmpty then rgDone v.grp u else u))) ∧
  (∀ (v : LpEval) (s : State), live s (.lp v.loop) = true → 1 ≤ lpState s v.loop → lpState s v.loop ≤ 4 →
    let w := evaluate v s
    lpFinish v s = (if lpRole w v.loop = 3 then w else axisSelect (lpAxis w v.loop) (v.inst % 2 ^ 32) w) ∧
    (w.lp[v.loop]).y = v.y ∧ (w.lp[v.loop]).inst = v.inst % 2 ^ 32 ∧
    ((∀ c, -(2 ^ 31) ≤ v.co.getD c 0 ∧ v.co.getD c 0 < 2 ^ 31) → lpState s v.loop ≠ 1 → v.co.getD 11 0 ≤ v.co.getD 12 0 →
      v.co.getD 11 0 ≤ getI w (.lp v.loop) Lp.U ∧ getI w (.lp v.loop) Lp.U ≤ v.co.getD 12 0)) ∧
  (∀ (n : Fin 64) (s : State), s.lpEval = none → exec (.loopEvaluation n) s = .next s)

/-- From R233, R245. The output selected for an axis that is not in FB_SAFE respects the limits: it is not below the output of any FLOOR
loop that participates, and not above the output of a CEIL loop that participates unless a FLOOR loop demands more. -/
def Obligations.SelectionRespectsTheLimits : Prop :=
  ∀ (a : Fin 16) (inst : Nat) (s : State), axFb s a ≠ 3 →
    let t := axisSelect a inst s
    (∀ (n : Fin 64) (x : Int), n ∈ axLoops s a → lpRole s n = 2 → lpOutput s n = some x → x ≤ getI t (.ax a) Ax.U) ∧
    (∀ (n : Fin 64) (x : Int), n ∈ axLoops s a → lpRole s n = 1 → lpOutput s n = some x →
      (∀ (m : Fin 64) (y : Int), m ∈ axLoops s a → lpRole s m = 2 → lpOutput s m = some y → y ≤ x) →
      getI t (.ax a) Ax.U ≤ x)

/-! ### Injection (chapter 11) -/

/-- From R249, R252, R254, R256. Rows INJ_ARM, INJ_START, INJ_STOP, INJ_TAPER_START and INJ_DONE, accepted or due.
From R257 to R262, R264, R265. Rows CAP_ARM, CAP_STOP, CAP_TRIG, CAP_LEN_WRITE, CAPTURE_SAMPLE, CAPTURE_COMPLETE and CAP_LEN_COMMIT,
accepted or due. A sample stores each channel's word at the write index of its buffer; the unit pushes a read index on that the write
index has reached, and wraps it at the shorter of the two lengths of its pass. The model's choices: the factor of a taper (log 45),
the order of the bits of CAP_CMD and the fate of a staged length (log 71), the undefined contents of the memory (log 70) and the count
of what a pushed read index skips (log 166). -/
def Obligations.InjectionAndCaptureRows : Prop :=
  (
  (∀ (ag : Agent) (k : Fin 4) (w : Word) (s : State), Accepts ag (.inj k) 0x1C w s →
    (fieldOf w Inj.CMD_ARM = 1 → fieldOf w Inj.CMD_STOP = 0 → fieldOf w Inj.CMD_START = 0 →
      (injState s k = 0 ∨ injState s k = 4 ∨ injState s k = 5) →
      ∃ t, exec (.injArm ag k w) s = .next t ∧ t = { s with regs := t.regs, fresh := t.fresh, inj := t.inj } ∧
        (injOwnerOk s k = true → getF s (.inj k) Inj.CFG_POINT ≠ 3 → injState t k = 1 ∧ getI t (.inj k) Inj.OUT = 0 ∧
          getF t (.inj k) Inj.UNDERCNT = 0 ∧ (t.inj[k]).j = 0 ∧ (t.inj[k]).lfsr ≠ 0) ∧
        (injOwnerOk s k = false ∨ getF s (.inj k) Inj.CFG_POINT = 3 →
          injState t k = injState s k ∧ getF t (.inj k) Inj.STATUS_REFUSED = 1)) ∧
    (fieldOf w Inj.CMD_START = 1 → fieldOf w Inj.CMD_STOP = 0 → fieldOf w Inj.CMD_ARM = 0 → injState s k = 1 →
      ∃ t, exec (.injStart ag k w) s = .next t ∧ t = { s with regs := t.regs, inj := t.inj } ∧ injState t k = 2 ∧
        (t.inj[k]).j = 0 ∧ (t.inj[k]).startAt = s.elapsed ∧ (t.inj[k]).firstInst = none ∧ RegsBut [(.inj k, Inj.STATUS_STATE)] s t) ∧
    (fieldOf w Inj.CMD_STOP = 1 → fieldOf w Inj.CMD_ARM = 0 →
      ∃ t, exec (.injStop ag k w) s = .next t ∧ t = { s with regs := t.regs, inj := t.inj } ∧
        RegsBut [(.inj k, Inj.STATUS_STATE)] s t ∧ (injState s k = 2 → injState t k = 3 ∧ (t.inj[k]).taper = 0) ∧
        (injState s k = 1 → injState t k = 0) ∧ (injState s k ≠ 1 → injState s k ≠ 2 → t = s))) ∧
  (∀ (k : Fin 4) (s : State), live s (.inj k) = true → injState s k = 2 → getF s (.inj k) Inj.N ≠ 0 →
    getF s (.inj k) Inj.N ≤ (s.inj[k]).j + getF s (.inj k) Inj.CFG_TAPER →
    ∃ t, exec (.injTaperStart k) s = .next t ∧ t = { s with regs := t.regs, inj := t.inj } ∧ injState t k = 3 ∧
      (t.inj[k]).taper = 0 ∧ (t.inj[k]).j = (s.inj[k]).j ∧ RegsBut [(.inj k, Inj.STATUS_STATE)] s t) ∧
  (∀ (k : Fin 4) (s : State), live s (.inj k) = true → injState s k = 3 →
    getF s (.inj k) Inj.CFG_TAPER ≤ (s.inj[k]).taper →
    ∃ t, exec (.injDone k) s = .next t ∧ t = { s with regs := t.regs, fresh := t.fresh, inj := t.inj } ∧ injState t k = 4 ∧
      (t.inj[k]).out = 0 ∧ (∀ j : Fin 4, j ≠ k → t.inj[j] = s.inj[j]) ∧
      getF t (.inj k) Inj.OUT = 0 ∧ getF t (.inj k) Inj.STATUS_DONEEV = 1 ∧
      RegsBut [(.inj k, Inj.STATUS_STATE), (.inj k, Inj.OUT), (.inj k, Inj.STATUS_DONEEV)] s t)) ∧
  (
  (∀ (ag : Agent) (w : Word) (s : State), Accepts ag .cap 0x1C w s →
    (fieldOf w Cap.CMD_STOP = 0 → fieldOf w Cap.CMD_ARM = 1 → fieldOf w Cap.CMD_TRIG = 0 →
      (capState s = 0 ∨ capState s = 3) →
      ∃ t, exec (.capArm ag w) s = .next t ∧ t = { s with regs := t.regs, cap := t.cap } ∧
        capState t = (if getF s .cap Cap.CFG_ROLL = 1 then 4 else 1) ∧ getF t .cap Cap.WP = 0 ∧ t.cap.taken = 0 ∧
        t.cap.mem = s.cap.mem ∧ t.cap.rp = (if getF s .cap Cap.CFG_ROLL = 1 then 0 else s.cap.rp) ∧ t.cap.rpLen = none ∧
        (getF s .cap Cap.CFG_ROLL = 0 →
          getF t .cap Cap.STATUS_TRIGEV = 0 ∧ getF t .cap Cap.STATUS_DONEEV = 0 ∧ t.cap.ovr = 0)) ∧
    (fieldOf w Cap.CMD_STOP = 1 →
      (capState s = 4 → ∃ t, exec (.capStop ag w) s = .next t ∧ t = { s with regs := t.regs } ∧ capState t = 3) ∧
      (capState s = 1 → ∃ t, exec (.capStop ag w) s = .next t ∧ t = { s with regs := t.regs, fresh := t.fresh } ∧
        capState t = 3 ∧ getF t .cap Cap.STATUS_CUT = 1) ∧
      (capState s = 2 → exec (.capStop ag w) s
        = .next (capRecord true (raiseF .cap Cap.STATUS_CUT (setF .cap Cap.STATUS_STATE 3 s)))) ∧
      (capState s = 0 ∨ capState s = 3 → exec (.capStop ag w) s = .next s)) ∧
    (fieldOf w Cap.CMD_STOP = 0 → fieldOf w Cap.CMD_ARM = 0 → fieldOf w Cap.CMD_TRIG = 1 → capState s = 1 →
      getF s .cap Cap.TRIG_MODE = 4 →
      exec (.capTrig ag w) s = .next { s with cap := { s.cap with trigReq := true } })) ∧
  (∀ (ag : Agent) (w : Word) (s : State), awake s = true → underReset s .cap = false → isolated s .cap = false →
    ag.code = owner s .cap →
    (running s .cap = false →
      ∃ t, exec (.capLenWrite ag w) s = .next t ∧ t = { s with regs := t.regs } ∧
        getF t .cap Cap.LEN_LEN = (capFit s w).1 % 2 ^ 15 ∧ getF t .cap Cap.LEN_PRE = (capFit s w).2 % 2 ^ 15) ∧
    (capState s = 4 → let u := capCommit s
      exec (.capLenWrite ag w) s = .next { u with cap := { u.cap with staged := some (capFit u w) } } ∧
      (s.cap.commitDue = false → u = s))) ∧
  (∀ (inst : Nat) (mk : Option Nat) (s : State), live s .cap = true → running s .cap = true → capFull s = false →
    capDue s = some (inst, false, mk) → s.cap.staged = none → s.cap.gbDue = false → getF s .cap Cap.WP < capC s →
    ∃ t, exec .captureSample s = .next t ∧ t.cap.taken = s.cap.taken + 1 ∧
      (∀ c, c < 2 ^ getF s .cap Cap.CFG_NCH →
        capWord t (c * capC s + getF s .cap Cap.WP) = wordOf (capChannel s c)) ∧
      getF t .cap Cap.WP = (if capLen s ≤ getF s .cap Cap.WP + 1 then 0 else getF s .cap Cap.WP + 1) ∧
      (∀ p ∈ t.ecc, p ∈ s.ecc) ∧ t = { s with regs := t.regs, fresh := t.fresh, cap := t.cap, ecc := t.ecc }) ∧
  (∀ s : State, live s .cap = true → capFull s = true →
    exec .captureComplete s
      = .next (raiseF .cap Cap.STATUS_DONEEV (capRecord false (setF .cap Cap.STATUS_STATE 3 s)))) ∧
  (∀ (len pre : Nat) (s : State), live s .cap = true → s.cap.staged = some (len, pre) → s.cap.commitDue = true →
    capState s = 4 →
    ∃ t, exec .capLenCommit s = .next t ∧ t = { s with regs := t.regs, cap := t.cap } ∧ t.cap.staged = none ∧
      getF t .cap Cap.LEN_LEN = len % 2 ^ 15 ∧ getF t .cap Cap.LEN_PRE = pre % 2 ^ 15 ∧
      (s.cap.rp = getF s .cap Cap.WP → t.cap.rp = s.cap.rp ∧ t.cap.rpLen = s.cap.rpLen ∧
        getF t .cap Cap.RPSKIP = getF s .cap Cap.RPSKIP) ∧
      (s.cap.rp ≠ getF s .cap Cap.WP → s.cap.rp < len → t.cap.rp = s.cap.rp ∧ t.cap.rpLen = some (capLen s) ∧
        getF t .cap Cap.RPSKIP = getF s .cap Cap.RPSKIP) ∧
      (s.cap.rp ≠ getF s .cap Cap.WP → len ≤ s.cap.rp → t.cap.rp = 0 ∧ getF t .cap Cap.RPSKIP
        = (getF s .cap Cap.RPSKIP + (capLen s - s.cap.rp)) % 2 ^ Cap.RPSKIP.width)) ∧
  (∀ (len : Nat) (s : State), let t := capPushRp len s
    let old := s.cap.rpLen.getD len
    t = { s with regs := t.regs, cap := { s.cap with rp := t.cap.rp, rpLen := t.cap.rpLen, ovr := t.cap.ovr } } ∧
    t.cap.ovr = (s.cap.ovr + 1) % 2 ^ 32 ∧
    (s.cap.rp + 1 < old → s.cap.rp + 1 < len → t.cap.rp = s.cap.rp + 1 ∧ t.cap.rpLen = s.cap.rpLen ∧
      getF t .cap Cap.RPSKIP = getF s .cap Cap.RPSKIP % 2 ^ Cap.RPSKIP.width) ∧
    (old ≤ s.cap.rp + 1 ∨ len ≤ s.cap.rp + 1 → t.cap.rp = 0 ∧ t.cap.rpLen = none ∧
      getF t .cap Cap.RPSKIP = (getF s .cap Cap.RPSKIP + (old - (s.cap.rp + 1))) % 2 ^ Cap.RPSKIP.width)))

/-! ### Capture (chapter 11) -/

/-! ### Jarharus (chapter 13) -/

/-- From R281 to R283, R303. What `retired` means. The results of the instruction before last are visible first; `now` is seen by the
next instruction, `later` (here flags) by the second; the PC goes on to the next instruction, to a loop's start, or, after the
second delay slot, to the target, where a transfer that is no call ends the loops it leaves; the cycle counter counts in RUN. -/
def Obligations.ResultsAreSeenInTheirTurn : Prop :=
  ∀ (k : Fin 8) (d : Fin 32) (v : Word) (m f : BitVec 6) (s : State), LeOn s k → (s.le[k]).stopHeld = false →
    let u := settle k s
    let t := retired k [.g d.val v] [.flags m f] s
    t = { u with regs := t.regs, le := t.le } ∧ RegsBut [(.le k, Le.PC)] u t ∧
    (∀ i : Fin 32, rd t k i = (if i = 0 then 0 else if i = d then v else rd u k i)) ∧
    rdSt t k = rdSt u k ∧ rdSt (settle k t) k = ((rdSt u k &&& ~~~m) ||| (f &&& m)) ∧
    (t.le[k]).cyc = (s.le[k]).cyc + (if leState s k = 1 then 1 else 0) ∧ (t.le[k]).stepLeft = (s.le[k]).stepLeft - 1 ∧
    (t.le[k]).p = (u.le[k]).p ∧ (t.le[k]).a = (u.le[k]).a ∧
    (∀ j : Fin 8, j ≠ k → t.le[j] = s.le[j]) ∧
    (∀ tgt, (s.le[k]).slots = 1 → (s.le[k]).target = some tgt →
      lePc t k = tgt % 2 ^ Le.PC.width ∧ (t.le[k]).slots = 0 ∧ (t.le[k]).target = none ∧
      ((s.le[k]).leaves = false → (t.le[k]).loops = (s.le[k]).loops) ∧
      ∀ l, (s.le[k]).leaves = true → (s.le[k]).loops = [l] → l.lv = leLevel s k → l.start ≤ lePc s k - 2 → lePc s k - 2 ≤ l.fin →
        (t.le[k]).loops = (if l.start ≤ tgt ∧ tgt ≤ l.fin then [l] else [])) ∧
    ((s.le[k]).slots = 0 → (s.le[k]).loops = [] → lePc t k = lePc s k + 1 ∧ (t.le[k]).loops = []) ∧
    (∀ l rest, (s.le[k]).slots = 0 → (s.le[k]).loops = l :: rest → l.fin = lePc s k → l.lv = leLevel s k → 1 < l.count →
      lePc t k = l.start % 2 ^ Le.PC.width ∧ (t.le[k]).loops = { l with count := l.count - 1 } :: rest) ∧
    (∀ l rest, (s.le[k]).slots = 0 → (s.le[k]).loops = l :: rest → l.lv ≠ leLevel s k →
      lePc t k = lePc s k + 1 ∧ (t.le[k]).loops = l :: rest)

/-- From R300, R301. Rows ADD, ADDC, SUB, SUBC, AND, OR, XOR, ANDN, SHL, SHR, ASR, ROR, MIN, MAX, MINU, MAXU, ADDS and SUBS: the result of each
in Gd, and the flags it writes.
From R300 to R302, R304, R313. Rows ABS, NEG, CLZ, CMP, TCMP, ADDI, ANDI, ORI, XORI, SHI, CMPI, MOVI, MOVHI, MUL, MULH, MULHU, MULR, MVP,
MVL, MVK, MPV, MLV, MKV, TNOW, TNOWE, CLRF and NOP: the results of each that the next instruction sees, and those that
only the second sees. -/
def Obligations.ArithmeticResults : Prop :=
  (
  ∀ (k : Fin 8) (d a b : Fin 32) (s : State), LeOn s k →
    let x := rd s k a
    let y := rd s k b
    let c := (rdSt s k).getLsbD 2
    let cn : Nat := if c then 1 else 0
    let bn : Nat := if c then 0 else 1
    let n := y.toNat % 64
    let sum := x.toInt + y.toInt
    let dif := x.toInt - y.toInt
    let sat := fun (i : Int) => max (-(2 ^ 31)) (min (2 ^ 31 - 1) i)
    let add := x + y
    let addc := x + y + BitVec.ofNat 32 cn
    let sub := x - y
    let subc := x - y - BitVec.ofNat 32 bn
    let last := fun (i : Nat) => if n = 0 then none else some (decide (n ≤ 32) && x.getLsbD i)
    let rows : List (Instr × Word × (Word → EWrite)) := [
      (.add_ k d a b, add, fun r => flagsZNCV r (decide (2 ^ 32 ≤ x.toNat + y.toNat)) (r.toInt != sum)),
      (.addc k d a b, addc, fun r => flagsZNCV r (decide (2 ^ 32 ≤ x.toNat + y.toNat + cn)) (r.toInt != sum + cn)),
      (.sub_ k d a b, sub, fun r => flagsZNCV r (decide (y.toNat ≤ x.toNat)) (r.toInt != dif)),
      (.subc k d a b, subc, fun r => flagsZNCV r (decide (y.toNat + bn ≤ x.toNat)) (r.toInt != dif - bn)),
      (.and_ k d a b, x &&& y, flagsZN), (.or_ k d a b, x ||| y, flagsZN), (.xor_ k d a b, x ^^^ y, flagsZN),
      (.andn k d a b, x &&& ~~~y, flagsZN),
      (.shl k d a b, x <<< n, fun r => flagsZNC r (last (32 - n))),
      (.shr k d a b, x >>> n, fun r => flagsZNC r (last (n - 1))),
      (.asr k d a b, x.sshiftRight n,
        fun r => flagsZNC r (if n = 0 then none else some (if n ≤ 32 then x.getLsbD (n - 1) else x.msb))),
      (.ror k d a b, x.rotateRight (y.toNat % 32), flagsZN),
      (.min_ k d a b, if x.toInt ≤ y.toInt then x else y, flagsZN),
      (.max_ k d a b, if x.toInt ≤ y.toInt then y else x, flagsZN),
      (.minu k d a b, if x.toNat ≤ y.toNat then x else y, flagsZN),
      (.maxu k d a b, if x.toNat ≤ y.toNat then y else x, flagsZN),
      (.adds k d a b, BitVec.ofInt 32 (sat sum), fun r => flagsZNV r (sat sum != sum)),
      (.subs k d a b, BitVec.ofInt 32 (sat dif), fun r => flagsZNV r (sat dif != dif))]
    ∀ p ∈ rows, exec p.1 s = .next (retired k [.g d.val p.2.1] [p.2.2 p.2.1] s)) ∧
  (
  ∀ (k : Fin 8) (d a b : Fin 32) (pd pa : Fin 8) (imm : BitVec 16) (amt : Fin 32) (mask : BitVec 6) (s : State), LeOn s k →
    let x := rd s k a
    let y := rd s k b
    let e := s.le[k]
    let lv := leLevel s k
    let si : Word := imm.signExtend 32
    let zi : Word := imm.setWidth 32
    let sat := fun (i : Int) => max (-(2 ^ 31)) (min (2 ^ 31 - 1) i)
    let lastBit := fun (i : Nat) => if amt.val = 0 then none else some (x.getLsbD i)
    let prod := x.toInt * y.toInt
    let hi : Word := BitVec.ofInt 32 (prod / 2 ^ 32)
    let hiu : Word := BitVec.ofNat 32 (x.toNat * y.toNat / 2 ^ 32)
    let q := roundEven prod (2 ^ 31)
    let mr : Word := BitVec.ofInt 32 (sat q)
    let rows : List (Instr × List EWrite × List EWrite) := [
      (.abs_ k d a, [.g d.val (BitVec.ofInt 32 (sat |x.toInt|))],
        [flagsZNV (BitVec.ofInt 32 (sat |x.toInt|)) (sat |x.toInt| != |x.toInt|)]),
      (.neg_ k d a, [.g d.val (BitVec.ofInt 32 (sat (-x.toInt)))],
        [flagsZNV (BitVec.ofInt 32 (sat (-x.toInt))) (sat (-x.toInt) != -x.toInt)]),
      (.clz k d a, [.g d.val (BitVec.ofNat 32 (leadingZeros x))], [flagsZN (BitVec.ofNat 32 (leadingZeros x))]),
      (.cmp k a b, [], [flagsZNCV (x - y) (decide (y.toNat ≤ x.toNat)) ((x - y).toInt != x.toInt - y.toInt)]),
      (.tcmp k a b, [], [flagsZNCV (x - y) false false]),
      (.addi k d a imm, [.g d.val (x + si)],
        [flagsZNCV (x + si) (decide (2 ^ 32 ≤ x.toNat + si.toNat)) ((x + si).toInt != x.toInt + si.toInt)]),
      (.andi k d a imm, [.g d.val (x &&& zi)], [flagsZN (x &&& zi)]),
      (.ori k d a imm, [.g d.val (x ||| zi)], [flagsZN (x ||| zi)]),
      (.xori k d a imm, [.g d.val (x ^^^ zi)], [flagsZN (x ^^^ zi)]),
      (.shi k d a .shl amt, [.g d.val (x <<< amt.val)], [flagsZNC (x <<< amt.val) (lastBit (32 - amt.val))]),
      (.shi k d a .shr amt, [.g d.val (x >>> amt.val)], [flagsZNC (x >>> amt.val) (lastBit (amt.val - 1))]),
      (.shi k d a .asr amt, [.g d.val (x.sshiftRight amt.val)], [flagsZNC (x.sshiftRight amt.val) (lastBit (amt.val - 1))]),
      (.shi k d a .ror amt, [.g d.val (x.rotateRight amt.val)], [flagsZN (x.rotateRight amt.val)]),
      (.cmpi k a imm, [], [flagsZNCV (x - si) (decide (si.toNat ≤ x.toNat)) ((x - si).toInt != x.toInt - si.toInt)]),
      (.movi k d imm, [.g d.val si], []),
      (.movhi k d imm, [.g d.val (imm ++ (rd s k d).setWidth 16 : BitVec 32)], []),
      (.mul_ k d a b, [], [.g d.val (x * y), flagsZN (x * y)]),
      (.mulh k d a b, [], [.g d.val hi, flagsZN hi]),
      (.mulhu k d a b, [], [.g d.val hiu, flagsZN hiu]),
      (.mulr k d a b, [], .g d.val mr :: flagsLV (mr == 0) mr.msb (sat q != q)),
      (.mvp k pd a, [], [.p pd.val x]), (.mvl k pd a, [], [.l pd.val (x.setWidth 20)]),
      (.mvk k pd a, [], [.k pd.val (x.setWidth 20)]),
      (.mpv k d pa, [.g d.val (pReg e lv pa)], []), (.mlv k d pa, [.g d.val ((lReg e lv pa).setWidth 32)], []),
      (.mkv k d pa, [.g d.val ((kReg e lv pa).signExtend 32)], []),
      (.tnow k d, [.g d.val (BitVec.ofNat 32 (s.time.now % 2 ^ 32))], []),
      (.tnowe k d, [.g d.val (BitVec.ofNat 32 (s.time.epoch % 2 ^ 16 + getF s .time Time.STATUS_DISC * 2 ^ 16
        + getF s .time Time.STATUS_HOLDOVER * 2 ^ 17))], []),
      (.clrf k mask, [], [.flags mask 0]), (.nop k, [], [])]
    ∀ p ∈ rows, exec p.1 s = .next (retired k p.2.1 p.2.2 s))

/-- From R270, R304. Rows MVS and MSV. Each special register reads as it stands; one that is not readable, and an MSV that is no
instruction, fault with ILLOP. A read of S10 captures the high word of the cycle counter in S11. S2 and S3 clear the bits
written as 1, S4 and S5 are written at level 1 only, S9 restarts the watchdog.
From R271, R272, R281, R305 to R308. Rows MPY, MAC, MSU, MACD, ACLR, ALD, AADD, ASUB, RND, MVR, MVT and MVA. Accumulations add exact
products modulo 2^72, the wraps counted in NW; an accumulating operand sees what the instruction before it computed;
operands out of the ranges of the instruction set fault with ILLOP, pointers of MACD with ALIGN or DRANGE, and a word of its
operands with an uncorrectable error with DECC (R280). -/
def Obligations.SpecialAndAccumulatorRows : Prop :=
  (
  ∀ (k : Fin 8) (d a sr : Fin 32) (s : State), LeOn s k →
    let e := s.le[k]
    let v := rd s k a
    (∀ p ∈ [((0 : Fin 32), (e.st.setWidth 32 : Word)),
        (1, wordOf (getF s (.le k) Le.IEN_GIE * 2 ^ 31 + getF s (.le k) Le.IEN_IEN)), (2, wordOf (leIpend s k)),
        (3, wordOf (getF s (.le k) Le.FBAXES)), (4, wordOf e.ilr), (5, e.ist.setWidth 32),
        (6, wordOf (loopEntry e 0).count), (7, wordOf (loopEntry e 1).count), (8, wordOf k.val), (11, e.s11)],
      exec (.mvs k d p.1) s = .next (retired k [.g d.val p.2] [] s)) ∧
    exec (.mvs k d 10) s = .next (retired k [.g d.val (wordOf e.cyc)] []
      (modLe k (fun e => { e with s11 := wordOf (e.cyc / 2 ^ 32) }) s)) ∧
    ((sr = 9 ∨ 12 ≤ sr.val) → exec (.mvs k d sr) s = .next (leFault k 1 (lePc s k) s)) ∧
    exec (.msv k 0 a) s = .next (retired k [] [.flags 0b111111 (v.setWidth 6)] s) ∧
    exec (.msv k 1 a) s = .next (retired k [] [.ien (v.toNat / 2 ^ 31) (v.toNat % 32)] s) ∧
    exec (.msv k 2 a) s = .next (retired k [] [] (clearW1c (.le k) Le.IPEND v s)) ∧
    exec (.msv k 3 a) s = .next (retired k [] [] (clearW1c (.le k) Le.FBAXES v s)) ∧
    exec (.msv k 9 a) s = .next (retired k [] [] (modLe k (fun e => { e with wdogRun := 0 }) s)) ∧
    (leLevel s k = true →
      exec (.msv k 4 a) s = .next (retired k [] [] (modLe k (fun e => { e with ilr := v.toNat % 2 ^ 14 }) s)) ∧
      exec (.msv k 5 a) s = .next (retired k [] [] (modLe k (fun e => { e with ist := v.setWidth 6 }) s))) ∧
    (leLevel s k = false → exec (.msv k 4 a) s = .next (leFault k 1 (lePc s k) s) ∧
      exec (.msv k 5 a) s = .next (leFault k 1 (lePc s k) s)) ∧
    ((sr = 6 ∨ sr = 7 ∨ sr = 8 ∨ 10 ≤ sr.val) → exec (.msv k sr a) s = .next (leFault k 1 (lePc s k) s))) ∧
  (
  ∀ (k : Fin 8) (acc acb : Fin 4) (d a b : Fin 32) (sh : Fin 64) (pi pj : Fin 8) (mi mj sub : Bool) (mode : MulMode)
    (s : State), LeOn s k →
    let e := s.le[k]
    let lv := leLevel s k
    let x := rd s k a
    let y := rd s k b
    let prod : Int := match mode with
      | .ss => x.toInt * y.toInt
      | .su => x.toInt * (y.toNat : Int)
      | .uu => (x.toNat : Int) * (y.toNat : Int)
    let old := accOperand e lv acc
    let plus := fun (i : Int) => ({ moveNw old (if 2 ^ 71 - 1 < old.v.toInt + i then 1
      else if old.v.toInt + i < -(2 ^ 71) then -1 else 0) with v := old.v + BitVec.ofInt 72 i } : Accum)
    let wraps := fun (i : Int) => decide (2 ^ 71 - 1 < old.v.toInt + i) || decide (old.v.toInt + i < -(2 ^ 71))
    let res := fun (r : Accum) (w : Bool) => (EWrite.acc acc.val r :: flagsGV w)
    let src := aReg e lv acc
    exec (.mpy k acc a b mode) s = .next (retired k [] (res { v := BitVec.ofInt 72 prod, nw := 0, lost := false } false) s) ∧
    exec (.mac k acc a b mode) s = .next (retired k [] (res (plus prod) (wraps prod)) s) ∧
    exec (.msu k acc a b mode) s = .next (retired k [] (res (plus (-prod)) (wraps (-prod))) s) ∧
    (let ai := (pReg e lv pi).toNat
     let aj := (pReg e lv pj).toNat
     let m := mulProduct mode (dWord s k ai) (dWord s k aj)
     let im := if sub then -m else m
     let clean := fun (x : Nat) => eccAt s (dramBase k + x) = none
     (ai % 4 = 0 → ai < 0x8000 → aj % 4 = 0 → aj < 0x8000 → pi ≠ pj → clean ai → clean aj →
       exec (.macd k acc pi pj mi mj sub mode) s = .next (retired k
         (postWrite e lv mi pi ++ postWrite e lv mj pj) (res (plus im) (wraps im)) s)) ∧
     (ai % 4 = 0 → ai < 0x8000 → aj % 4 = 0 → aj < 0x8000 → eccAt s (dramBase k + ai) = some true →
       exec (.macd k acc pi pj mi mj sub mode) s = .next (leFault k 9 (lePc s k) s)) ∧
     (ai % 4 = 0 → ai < 0x8000 → clean ai →
       exec (.macd k acc pi pi mi mj sub mode) s = .next (retired k (postWrite e lv (mi || mj) pi)
         (let i := mulProduct mode (dWord s k ai) (dWord s k ai)
          res (plus (if sub then -i else i)) (wraps (if sub then -i else i))) s)) ∧
     (ai % 4 ≠ 0 → exec (.macd k acc pi pj mi mj sub mode) s = .next (leFault k 6 (lePc s k) s)) ∧
     (ai % 4 = 0 → 0x8000 ≤ ai → exec (.macd k acc pi pj mi mj sub mode) s = .next (leFault k 5 (lePc s k) s))) ∧
    exec (.aclr k acc) s = .next (retired k [] (res { v := 0, nw := 0, lost := false } false) s) ∧
    (sh.val ≤ 40 → exec (.ald k acc a sh) s
      = .next (retired k [] (res { v := BitVec.ofInt 72 (x.toInt * 2 ^ sh.val), nw := 0, lost := false } false) s)) ∧
    (40 < sh.val → exec (.ald k acc a sh) s = .next (leFault k 1 (lePc s k) s)) ∧
    exec (.aadd k acc acb) s
      = .next (retired k [] (res (accCombine old (aReg e lv acb) false).1 (accCombine old (aReg e lv acb) false).2) s) ∧
    exec (.asub k acc acb) s
      = .next (retired k [] (res (accCombine old (aReg e lv acb) true).1 (accCombine old (aReg e lv acb) true).2) s) ∧
    (sh ≠ 0 → ∃ r : Accum, ∃ sat : Bool,
      exec (.rnd k acc sh) s = .next (retired k [] (.acc acc.val r :: flagsLV (r.v == 0) r.v.msb sat) s) ∧
      (src.nw = 0 → roundEven src.v.toInt (2 ^ sh.val) * 2 ^ sh.val ≤ 2 ^ 71 - 1 →
        r.v = BitVec.ofInt 72 (roundEven src.v.toInt (2 ^ sh.val) * 2 ^ sh.val) ∧ r.nw = 0 ∧ sat = false) ∧
      (src.nw ≠ 0 → sat = true ∧ r.nw = 0)) ∧
    (sh = 0 → exec (.rnd k acc sh) s = .next (leFault k 1 (lePc s k) s)) ∧
    (let cl := fun (i : Int) => max (-(2 ^ 31)) (min (2 ^ 31 - 1) i)
     let mv := fun (i : Int) => (if src.nw = 0 then BitVec.ofInt 32 (cl i) else if 0 < src.nw then 0x7FFFFFFF else 0x80000000
       : Word)
     let st := fun (i : Int) => src.nw != 0 || cl i != i
     let rn := roundEven src.v.toInt (2 ^ sh.val)
     let tr := src.v.toInt / 2 ^ sh.val
     exec (.mvr k acc d sh) s = .next (retired k [.g d.val (mv rn)] (flagsLV (mv rn == 0) (mv rn).msb (st rn)) s) ∧
     exec (.mvt k acc d sh) s = .next (retired k [.g d.val (mv tr)] (flagsLV (mv tr == 0) (mv tr).msb (st tr)) s)) ∧
    exec (.mva k acc d 0) s = .next (retired k [.g d.val (src.v.extractLsb' 0 32)] [] s) ∧
    exec (.mva k acc d 1) s = .next (retired k [.g d.val (src.v.extractLsb' 32 32)] [] s) ∧
    exec (.mva k acc d 2) s = .next (retired k [.g d.val ((src.v.extractLsb' 64 8).signExtend 32)] [] s) ∧
    exec (.mva k acc d 3) s
      = .next (retired k [.g d.val (wordOf (ofSigned 8 src.nw + (if src.lost then 1 else 0) * 2 ^ 8))] [] s) ∧
    (4 ≤ sh.val → exec (.mva k acc d sh) s = .next (leFault k 1 (lePc s k) s)))

/-- From R275 to R278, R281, R309, R310. Rows LD, ST, LDP, STP, LDA, STA, CRB and CWB. The address is Pn, judged for alignment and then for the range
of its space; a data-RAM load or store acts on the engine's own RAM; a load from pool or control space stalls, and a store to
them enters the write buffer, where one of its four places is free, as one entry in ascending order, or stalls. A word of the
data RAM with a corrected error reads as it was written and the error is reported; an uncorrectable one faults with DECC
(R280). -/
def Obligations.LoadsAndStores : Prop :=
  ∀ (k : Fin 8) (r : Fin 32) (p : Fin 8) (n : Fin 4) (post : Bool) (s : State), LeOn s k →
    let e := s.le[k]
    let lv := leLevel s k
    let a := (pReg e lv p).toNat
    let pm := postWrite e lv post p
    let low := dWord s k a
    let high := dWord s k (a + 4)
    let r1 := rd s k r
    let r2 := rd s k (fin32 (r.val + 1))
    let ac := aReg e lv (fin4 r.val)
    let stalls := fun (x : Stall) => modLe k (fun e => { e with stall := some x }) (leResults k pm [] s)
    let posts := fun (c : Bool) (ws : List (Nat × Word)) =>
      if e.wbuf.length < 4 then
        leAdvance k 1 (modLe k (fun e => { e with wbuf := e.wbuf ++ [{ cspace := c, writes := ws }] }) (leResults k pm [] s))
      else stalls (.store { cspace := c, writes := ws })
    let d0 := eccAt s (dramBase k + a)
    let d1 := eccAt s (dramBase k + a + 4)
    (a % 4 = 0 → a < 0x8000 →
      (d0 = none → exec (.ld k r p .d post) s = .next (retired k pm [.g r.val low] s)) ∧
      (d0 = some false → exec (.ld k r p .d post) s
        = .next (leAdvance k 1 (eccMeet (.le k) (dramBase k + a) (leResults k pm [.g r.val low] s)))) ∧
      (d0 = some true → exec (.ld k r p .d post) s = .next (leFault k 9 (lePc s k) s)) ∧
      exec (.st k r p .d post) s = .next (retired k pm [.dmem a r1] s)) ∧
    (a % 8 = 0 → a < 0x8000 →
      (r.val % 2 = 0 → (d0 = none → d1 = none →
          exec (.ldp k r p .d post) s = .next (retired k pm [.g r.val low, .g (r.val + 1) high] s)) ∧
        (d0 = some true ∨ d1 = some true → exec (.ldp k r p .d post) s = .next (leFault k 9 (lePc s k) s)) ∧
        exec (.stp k r p .d post) s = .next (retired k pm [.dmem a r1, .dmem (a + 4) r2] s)) ∧
      (r.val < 4 → (d0 = none → d1 = none → exec (.lda k r p .d post) s
          = .next (retired k pm [.accLd r.val { v := BitVec.ofInt 72 (high ++ low : BitVec 64).toInt, nw := 0, lost := false }] s)) ∧
        (d0 = some true ∨ d1 = some true → exec (.lda k r p .d post) s = .next (leFault k 9 (lePc s k) s)) ∧
        exec (.sta k r p .d post) s
          = .next (retired k pm [.dmem a (ac.v.extractLsb' 0 32), .dmem (a + 4) (ac.v.extractLsb' 32 32)] s))) ∧
    (a % 4 = 0 → a < 0x80000 → exec (.ld k r p .x post) s = .next (stalls (.load false a 1 r.val false)) ∧
      exec (.st k r p .x post) s = .next (posts false [(a, r1)])) ∧
    (a % 4 = 0 → exec (.ld k r p .c post) s = .next (stalls (.load true a 1 r.val false)) ∧
      exec (.st k r p .c post) s = .next (posts true [(a, r1)])) ∧
    (a % 8 = 0 → a < 0x80000 →
      (r.val % 2 = 0 → exec (.ldp k r p .x post) s = .next (stalls (.load false a 2 r.val false)) ∧
        exec (.stp k r p .x post) s = .next (posts false [(a, r1), (a + 4, r2)])) ∧
      (r.val < 4 → exec (.lda k r p .x post) s = .next (stalls (.load false a 2 r.val true)) ∧
        exec (.sta k r p .x post) s
          = .next (posts false [(a, ac.v.extractLsb' 0 32), (a + 4, ac.v.extractLsb' 32 32)]))) ∧
    (a % 8 = 0 → r.val % 2 = 0 → exec (.ldp k r p .c post) s = .next (stalls (.load true a 2 r.val false)) ∧
      exec (.stp k r p .c post) s = .next (posts true [(a, r1), (a + 4, r2)])) ∧
    (a % 4 = 0 → r.val + n.val ≤ 31 →
      exec (.crb k r p n post) s = .next (stalls (.load true a (n.val + 1) r.val false)) ∧
      exec (.cwb k r p n post) s = .next (posts true ((List.range (n.val + 1)).map
        (fun i => ((a + 4 * i) % 2 ^ 32, rd s k (fin32 (r.val + i))))))) ∧
    (a % 4 ≠ 0 → ∀ sp, exec (.ld k r p sp post) s = .next (leFault k 6 (lePc s k) s) ∧
      exec (.st k r p sp post) s = .next (leFault k 6 (lePc s k) s)) ∧
    (a % 8 ≠ 0 → ∀ sp, (r.val % 2 = 0 → exec (.ldp k r p sp post) s = .next (leFault k 6 (lePc s k) s) ∧
        exec (.stp k r p sp post) s = .next (leFault k 6 (lePc s k) s)) ∧
      (r.val < 4 → exec (.lda k r p sp post) s = .next (leFault k 6 (lePc s k) s) ∧
        exec (.sta k r p sp post) s = .next (leFault k 6 (lePc s k) s))) ∧
    (a % 4 ≠ 0 → r.val + n.val ≤ 31 → exec (.crb k r p n post) s = .next (leFault k 6 (lePc s k) s) ∧
      exec (.cwb k r p n post) s = .next (leFault k 6 (lePc s k) s)) ∧
    (a % 4 = 0 → 0x8000 ≤ a → exec (.ld k r p .d post) s = .next (leFault k 5 (lePc s k) s) ∧
      exec (.st k r p .d post) s = .next (leFault k 5 (lePc s k) s)) ∧
    (a % 4 = 0 → 0x80000 ≤ a → exec (.ld k r p .x post) s = .next (leFault k 7 (lePc s k) s) ∧
      exec (.st k r p .x post) s = .next (leFault k 7 (lePc s k) s)) ∧
    (a % 8 = 0 → ∀ q ∈ [(Space.d, 0x8000, 5), (.x, 0x80000, 7)], q.2.1 ≤ a →
      (r.val % 2 = 0 → exec (.ldp k r p q.1 post) s = .next (leFault k q.2.2 (lePc s k) s) ∧
        exec (.stp k r p q.1 post) s = .next (leFault k q.2.2 (lePc s k) s)) ∧
      (r.val < 4 → exec (.lda k r p q.1 post) s = .next (leFault k q.2.2 (lePc s k) s) ∧
        exec (.sta k r p q.1 post) s = .next (leFault k q.2.2 (lePc s k) s))) ∧
    (∀ sp, (r.val % 2 = 1 → exec (.ldp k r p sp post) s = .next (leFault k 1 (lePc s k) s) ∧
        exec (.stp k r p sp post) s = .next (leFault k 1 (lePc s k) s)) ∧
      (4 ≤ r.val → exec (.lda k r p sp post) s = .next (leFault k 1 (lePc s k) s) ∧
        exec (.sta k r p sp post) s = .next (leFault k 1 (lePc s k) s))) ∧
    (31 < r.val + n.val → exec (.crb k r p n post) s = .next (leFault k 1 (lePc s k) s) ∧
      exec (.cwb k r p n post) s = .next (leFault k 1 (lePc s k) s))

/-- From R282, R283, R299, R311, R312. Rows B, BR, CALL, CALLR, RET, LOOP and LOOP with a register count, outside delay slots and loop
tails: a branch whose condition holds has two delay slots and its target; CALL and CALLR write PC + 3 to G31 if taken; LOOP
starts a body, skips it with the count 0, and faults on a third nested loop; its end must lie behind it. -/
def Obligations.BranchesAndLoops : Prop :=
  ∀ (k : Fin 8) (c : Fin 16) (tg : Fin 16384) (a : Fin 32) (s : State), LeOn s k → LeFree s k →
    let pc := lePc s k
    let holds := condHolds c (rdSt s k)
    let reg := (rd s k a).toNat % 2 ^ 14
    (∀ p ∈ [(Instr.b_ k c tg, tg.val, false), (.br k c a, reg, false), (.call k c tg, tg.val, true),
        (.callr k c a, reg, true), (.ret k c, (rd s k 31).toNat % 2 ^ 14, false)],
      ∃ t, exec p.1 s = .next t ∧ (t.le[k]).slots = 2 ∧
        (t.le[k]).target = (if holds then some p.2.1 else none) ∧ lePc t k = (loopNext (leLevel s k) pc (s.le[k]).loops).1 % 2 ^ Le.PC.width ∧
        (t.le[k]).loops = (s.le[k]).loops ∧ (t.le[k]).leaves = (!p.2.2 || !holds) ∧
        (t.le[k]).cyc = (s.le[k]).cyc + (if leState s k = 1 then 1 else 0) ∧ (t.le[k]).pend = [] ∧
        (p.2.2 = true → holds = true → rd t k 31 = wordOf (pc + 3)) ∧
        (¬ (p.2.2 = true ∧ holds = true) → ∀ i : Fin 32, rd t k i = rd (settle k s) k i) ∧
        t = { settle k s with regs := t.regs, le := t.le } ∧ RegsBut [(.le k, Le.PC)] (settle k s) t) ∧
    (∀ (i : Instr) (n : Nat), ((∃ cnt : Fin 4096, i = .loop_ k tg cnt ∧ n = cnt.val) ∨
        (∃ x : Fin 32, i = .loopReg k tg x ∧ n = (rd s k x).toNat)) →
      (tg.val ≤ pc → exec i s = .next (leFault k 1 pc s)) ∧
      (pc < tg.val → 2 ≤ (s.le[k]).loops.length → exec i s = .next (leFault k 3 pc (leResults k [] [] s))) ∧
      (pc < tg.val → (s.le[k]).loops.length < 2 →
        ∃ t, exec i s = .next t ∧ t = { settle k s with regs := t.regs, le := t.le } ∧
          RegsBut [(.le k, Le.PC), (.le k, Le.STATUS_STATE)] (settle k s) t ∧
          (∀ i : Fin 32, rd t k i = rd (settle k s) k i) ∧
          leState t k = (if leState s k = 1 ∧ (s.le[k]).stopHeld = true then 3 else leState s k) ∧
          (n = 0 → lePc t k = (tg.val + 1) % 2 ^ Le.PC.width ∧ (t.le[k]).loops = (s.le[k]).loops) ∧
          (n ≠ 0 → lePc t k = (pc + 1) % 2 ^ Le.PC.width ∧
            (t.le[k]).loops = { start := pc + 1, fin := tg.val, count := n, lv := leLevel s k } :: (s.le[k]).loops)))

/-- From R282, R283, R286, R290, R295, R318, R319. Rows RTF, WAIT, HALT and the words that are no instruction. An instruction that R282 bars from a
delay slot or a loop tail faults there with DELAY; beyond the RAM every instruction faults with IRANGE. A fault stops the engine at
its PC with the cause written, what older instructions computed visible and nothing else of the engine changed. -/
def Obligations.EngineControlRows : Prop :=
  (∀ (k : Fin 8) (s : State), LeOn s k → LeFree s k →
    let u := settle k s
    (leLevel s k = true → ∃ t, exec (.rtf k) s = .next t ∧ lePc t k = (s.le[k]).ilr % 2 ^ Le.PC.width ∧
      leLevel t k = false ∧ rdSt t k = (s.le[k]).ist ∧ (t.le[k]).g = (u.le[k]).g ∧ (t.le[k]).pend = [] ∧
      (t.le[k]).loops = (s.le[k]).loops.filter (fun l => !l.lv) ∧
      (t.le[k]).cyc = (s.le[k]).cyc + (if leState s k = 1 then 7 else 0) ∧
      leState t k = (if leState s k = 1 ∧ (s.le[k]).stopHeld = true then 3 else leState s k) ∧
      t = { u with regs := t.regs, le := t.le } ∧
      RegsBut [(.le k, Le.PC), (.le k, Le.STATUS_STATE), (.le k, Le.STATUS_LEVEL)] u t) ∧
    (leLevel s k = false → exec (.rtf k) s = .next (leFault k 11 (lePc s k) s)) ∧
    (∃ t, exec (.halt k) s = .next t ∧ leState t k = 4 ∧ lePc t k = lePc s k + 1 ∧ getF t (.le k) Le.STATUS_HALTEV = 1 ∧
      (t.le[k]).pend = [] ∧ (t.le[k]).stopHeld = false ∧ (∀ i : Fin 32, rd t k i = rd u k i) ∧ rdSt t k = rdSt u k ∧
      t = { u with regs := t.regs, le := t.le, fresh := t.fresh } ∧
      RegsBut [(.le k, Le.PC), (.le k, Le.STATUS_STATE), (.le k, Le.STATUS_HALTEV)] u t)) ∧
  (∀ (k : Fin 8) (mask : BitVec 4) (tr d : Fin 32) (q level : Fin 16) (s : State), LeOn s k → LeFree s k →
    let w : WaitSt := { t := mask.getLsbD 3, w := mask.getLsbD 2, q := mask.getLsbD 1, i := mask.getLsbD 0,
                        target := (rd s k tr).toNat, d := d.val, queue := q.val, level := level.val + 1 }
    let u := leResults k [] [] s
    let held := leState s k = 1 ∧ (s.le[k]).stopHeld = true
    (mask = 0 → exec (.wait_ k mask tr d q level) s = .next (leFault k 1 (lePc s k) s)) ∧
    (mask ≠ 0 → waitHolds u k w ≠ 0 → ∃ t, exec (.wait_ k mask tr d q level) s = .next t ∧
      (∀ i : Fin 32, rd t k i = (if i = 0 then 0 else if i = d then wordOf (waitHolds u k w) else rd u k i)) ∧
      (t.le[k]).wk = ((u.le[k]).wk && !w.w) ∧ (t.le[k]).wait = none ∧ rdSt t k = rdSt u k ∧
      lePc t k = (loopNext (leLevel s k) (lePc s k) (s.le[k]).loops).1 % 2 ^ Le.PC.width ∧ leState t k = (if held then 3 else leState s k) ∧
      t = { u with regs := t.regs, le := t.le } ∧ RegsBut [(.le k, Le.PC), (.le k, Le.STATUS_STATE)] u t) ∧
    (mask ≠ 0 → waitHolds u k w = 0 → ∃ t, exec (.wait_ k mask tr d q level) s = .next t ∧
      t = { u with regs := t.regs, le := t.le } ∧ RegsBut [(.le k, Le.STATUS_STATE)] u t ∧ lePc t k = lePc s k ∧
      leState t k = (if leState s k = 3 ∨ held then 3 else 2) ∧
      (leState s k = 1 → (s.le[k]).stopHeld = false → (t.le[k]).wait = some w) ∧
      (leState s k = 3 → (t.le[k]).stepLeft = 0) ∧ ∀ i : Fin 32, rd t k i = rd u k i)) ∧
  (∀ (k : Fin 8) (word : Word) (s : State), LeOn s k →
    ∃ t, exec (.illop k word) s = .next t ∧ t = leFault k 1 (lePc s k) s) ∧
  (∀ (k : Fin 8) (c : Fin 16) (tg : Fin 16384) (s : State), LeOn s k → ¬ LeFree s k →
    exec (.b_ k c tg) s = .next (leFault k 2 (lePc s k) s) ∧ exec (.halt k) s = .next (leFault k 2 (lePc s k) s) ∧
    exec (.rtf k) s = .next (leFault k 2 (lePc s k) s)) ∧
  (∀ (k : Fin 8) (s : State), leReady s k = true → 12287 < lePc s k →
    exec (.nop k) s = .next (leFault k 4 (lePc s k) s)) ∧
  (∀ (k : Fin 8) (cause : Nat) (s : State), cause < 16 → lePc s k ≤ 12287 →
    let u := settle k s
    let t := leFault k cause (lePc s k) s
    leState t k = 5 ∧ getF t (.le k) Le.FAULT_CAUSE = cause ∧ getF t (.le k) Le.FAULT_PC = lePc s k ∧ lePc t k = lePc s k ∧
    getF t (.le k) Le.STATUS_FAULTEV = 1 ∧ (t.le[k]).pend = [] ∧ (t.le[k]).stall = none ∧ (t.le[k]).wait = none ∧
    (t.le[k]).stopHeld = false ∧ (t.le[k]).wbuf = (s.le[k]).wbuf ∧ (t.le[k]).loops = (s.le[k]).loops ∧
    (∀ i : Fin 32, rd t k i = rd u k i) ∧ rdSt t k = rdSt u k ∧ ∀ j : Fin 8, j ≠ k → t.le[j] = s.le[j])

/-- From R281, R314, R316, R317. Rows TARM, TDIS, QW, QR, QL and FENCE. TARM and TDIS are one write-buffer entry of control-space writes;
QW, QR, QL and FENCE stall until the queue controller answers, a QW with the registers as it read them, and with nothing left in the write buffer the answer that
LOAD_DATA_RETURN brings ends them. The controller meets a QW with the end of a fabric cycle: it answers with C where it has made the
write, with V where it refuses it, and not at all while it holds it back. When answers arrive is the model's choice (log 105), as
is an isolated controller that makes none (log 154). -/
def Obligations.TimedAndQueueRows : Prop :=
  ∀ (k : Fin 8) (slot : Fin 64) (q : Fin 16) (quad : Fin 8) (d a b : Fin 32) (s : State), LeOn s k →
    let u := leResults k [] [] s
    let g := fun (i : Nat) => rd s k (fin32 (4 * quad.val + i))
    let e : QEntry := { w0 := g 0, w1 := g 1, w2 := g 2, w3 := g 3 }
    ((s.le[k]).wbuf.length < 4 →
      exec (.tarm k slot d) s = .next (leAdvance k 1 (modLe k (fun e => { e with wbuf := e.wbuf ++ [{ cspace := true, writes :=
        [(blkBase (.slot slot) + Slot.TARGET.off, rd s k d),
         (blkBase (.slot slot) + Slot.CMD_ARM.off, wordOf (2 ^ Slot.CMD_ARM.lo))] }] }) u)) ∧
      exec (.tdis k slot) s = .next (leAdvance k 1 (modLe k (fun e => { e with wbuf := e.wbuf ++ [{ cspace := true, writes :=
        [(blkBase (.slot slot) + Slot.CMD_DISARM.off, wordOf (2 ^ Slot.CMD_DISARM.lo))] }] }) u))) ∧
    (∀ p ∈ [(Instr.qw k q quad, Stall.qw q.val e), (.qr k q quad, .qr q.val quad.val), (.ql k q d, .ql q.val d.val),
        (.fence k a b, .fence (rd s k a) (rd s k b))],
      exec p.1 s = .next (modLe k (fun e => { e with stall := some p.2 }) u) ∧
      ((s.le[k]).wbuf = [] →
        exec (.loadDataReturn k) (modLe k (fun e => { e with stall := some p.2 }) u)
          = .next (stallAnswer k p.2 (modLe k (fun e => { e with stall := some p.2 }) u)))) ∧
    (∀ v : State, v = modLe k (fun e => { e with stall := some (.ql q.val d.val) }) u →
      stallAnswer k (.ql q.val d.val) v = stallEnd k [.g d.val (wordOf (qLevel v q))] [] v) ∧
    (∀ v : State,
      ((v.le[k]).qwDone = none → stallAnswer k (.qw q.val e) v = leStopPoint k v) ∧
      (∀ c r, (v.le[k]).qwDone = some (c, r) → stallAnswer k (.qw q.val e) v
        = stallEnd k [] (if c then [.flags 0b000100 0b000100] else [.flags 0b001100 (if r then 0b001000 else 0)])
            (modLe k (fun x => { x with qwDone := none }) v)) ∧
      (let r := qwRec v k q e
       (pushRefused (.le k) q e v = true → qwMade k r v
          = modLe k (fun x => { x with qwDone := some (false, true) }) (pushRefuse q v)) ∧
       (pushRefused (.le k) q e v = false → qwBlocked q r v = true → qwMade k r v = v) ∧
       (pushRefused (.le k) q e v = false → qwBlocked q r v = false → inbufHeld v < 32 →
          qwMade k r v = modLe k (fun x => { x with qwDone := some ((writeRecord q [e] v).1, false) })
            (writeRecord q [e] v).2.2)))

/-! ### The engines on the bus, and their commands (chapters 12 and 13) -/

/-- From R278, R288, R309, R310, R316, R317. Rows LOAD_DATA_RETURN and POSTED_STORE_COMPLETE. With the write buffer empty the answer
arrives: a word of pool or control space in its register, G or accumulator; an uncorrectable error in a word of the pool is a
fault with XERR (R280). The oldest store of the buffer is made,
and a store that waited for a place then enters it; with no such wait, a store to the pool outside the rings of enabled queues
writes its word and no other byte. -/
def Obligations.EngineBusRows : Prop :=
  (∀ (k : Fin 8) (a : Nat) (r : Fin 32) (s : State), leStalled s k = true → (s.le[k]).wbuf = [] →
    ((s.le[k]).stall = some (.load false a 1 r.val false) →
      (eccAt s (poolBase + a) = none → (s.le[k]).lostRd = none →
        exec (.loadDataReturn k) s = .next (stallEnd k [.g r.val (memWord s (poolBase + a))] [] s)) ∧
      (eccAt s (poolBase + a) = none → (s.le[k]).lostRd = some (poolBase + a) →
        exec (.loadDataReturn k) s = .next (stallEnd k [.g r.val 0] [] (modLe k (fun e => { e with lostRd := none }) s))) ∧
      (eccAt s (poolBase + a) = some true →
        exec (.loadDataReturn k) s = .next (leFault k 7 (lePc s k)
          (let u := blkMet (.le k) .eccU s
           blkMet (poolBlk u a) .cell u)))) ∧
    ((s.le[k]).stall = some (.load false a 2 r.val true) → (s.le[k]).lostRd = none → eccAt s (poolBase + a) = none → eccAt s (poolBase + a + 4) = none →
      exec (.loadDataReturn k) s = .next (stallEnd k
        [.acc r.val (accLoad (memWord s (poolBase + a)) (memWord s (poolBase + (a + 4))))] [] s)) ∧
    ((s.le[k]).stall = some (.load true a 1 r.val false) → (s.le[k]).lostRd = none →
      exec (.loadDataReturn k) s = .next (stallEnd k [.g r.val (busWord (.le k) (a % 2 ^ 32) s)] []
        (modLe k (fun e => { e with lostRd := none }) { busRead (.le k) (a % 2 ^ 32) s with answer := s.answer })))) ∧
  (∀ (k : Fin 8) (q : Fin 16) (quad : Nat) (s : State), leStalled s k = true → (s.le[k]).wbuf = [] →
    (s.le[k]).stall = some (.qr q.val quad) →
    (isolated s .qc = true → exec (.loadDataReturn k) s = .next s) ∧
    (isolated s .qc = false → owner s (.q q) ≠ k.val + 1 ∨ isolated s (.q q) = true →
      exec (.loadDataReturn k) s = .next (stallEnd k [] [.flags 0b001100 0b001000] s)) ∧
    (isolated s .qc = false → owner s (.q q) = k.val + 1 → isolated s (.q q) = false → s.qCommit[q] = false →
      qLevel s q ≠ 0 → s.ecc = [] →
      let e := oldest s q
      exec (.loadDataReturn k) s = .next (stallEnd k
        [.g (4 * quad) e.w0, .g (4 * quad + 1) e.w1, .g (4 * quad + 2) e.w2, .g (4 * quad + 3) e.w3]
        [.flags 0b000100 0b000100] (dropOldest q s)))) ∧
  (∀ (k : Fin 8) (e : StoreEnt) (rest : List StoreEnt) (s : State), clocked s .control = true →
    underReset s (.le k) = false → leClock (mode s) k = true → (s.le[k]).wbuf = e :: rest →
    exec (.postedStoreComplete k) s =
      .next (leStopPoint k (storeRetry k (storeDo k e (modLe k (fun x => { x with wbuf := rest }) s)))) ∧
    (∀ (a : Nat) (w : Word), (s.le[k]).stall = none → (s.le[k]).stopHeld = false →
      e = { cspace := false, writes := [(a, w)] } → ringAt s a = none → regionReset s .control = false →
      ∃ t, exec (.postedStoreComplete k) s = .next t ∧ t = { s with mem := t.mem, le := t.le, ecc := t.ecc } ∧
        (t.le[k]).wbuf = rest ∧ (∀ p ∈ t.ecc, p ∈ s.ecc) ∧
        memWord t (poolBase + a) = w ∧
        ∀ b, (b < poolBase + a ∨ poolBase + a + 4 ≤ b) → memByte t b = memByte s b))

/-- From R268, R281, R289, R293. Rows LE_RUN, LE_STOP, LE_STEP, LE_RESUME, LE_RESET and LE_SWI, accepted: a command outside the states of
R289 only sets CMDREJ. RUN starts at LE_ENTRY with an empty loop stack, in PAUSED where the mode gives the engine no clock;
STOP acts at the next point where an interrupt could enter; RESET clears the registers and keeps the write buffer.
From R284, R285, R287, R290, R291, R318. Rows INTERRUPT_ENTRY, WATCHDOG_EXPIRY and WAIT_COMPLETE, due. The handler starts at LE_IVEC at
level 1 with the PC and the flags saved; a watchdog that has run out is a fault with cause 10; a WAIT whose condition holds
completes with the conditions in its register. -/
def Obligations.EngineControl : Prop :=
  (
  ∀ (ag : Agent) (k : Fin 8) (w : Word) (s : State), Accepts ag (.le k) 8 w s →
    let rejected := raiseF (.le k) Le.STATUS_CMDREJ s
    let st := leState s k
    (fieldOf w Le.CMD_CMD = 1 → fieldOf w Le.CMD_SWI = 0 →
      (st = 0 ∨ st = 3 ∨ st = 4 ∨ st = 5 → ∃ t, exec (.leRun ag k w) s = .next t ∧
        t = { s with regs := t.regs, le := t.le } ∧ leState t k = (if leClock (mode s) k then 1 else 6) ∧
        lePc t k = getF s (.le k) Le.ENTRY ∧ leLevel t k = false ∧ (t.le[k]).loops = [] ∧ (t.le[k]).slots = 0 ∧
        (t.le[k]).g = (s.le[k]).g ∧ (t.le[k]).wbuf = (s.le[k]).wbuf) ∧
      (st = 1 ∨ st = 2 ∨ st = 6 → exec (.leRun ag k w) s = .next rejected)) ∧
    (fieldOf w Le.CMD_CMD = 2 → fieldOf w Le.CMD_SWI = 0 →
      (st = 2 ∨ (st = 1 ∧ entryPoint s k = true) → ∃ t, exec (.leStop ag k w) s = .next t ∧ leState t k = 3 ∧
        lePc t k = lePc s k ∧ (t.le[k]).pend = [] ∧ (t.le[k]).stall = none ∧ (t.le[k]).wait = none) ∧
      ((st = 1 ∧ entryPoint s k = false) ∨ st = 6 → ∃ t, exec (.leStop ag k w) s = .next t ∧ t = { s with le := t.le } ∧
        (t.le[k]).stopHeld = true) ∧
      (st = 0 ∨ st = 3 ∨ st = 4 ∨ st = 5 → exec (.leStop ag k w) s = .next rejected)) ∧
    (fieldOf w Le.CMD_CMD = 3 → fieldOf w Le.CMD_SWI = 0 →
      (st = 3 → exec (.leStep ag k w) s
        = .next (leCycle k (leCycle k (leCycle k (modLe k (fun e => { e with stepLeft := 1 }) s)))) ∧
        (clocked s .control = true → leClock (mode s) k = true → (s.le[k]).stall = none → lePc s k ≤ 12287 →
          (s.le[k]).slots = 0 → (s.le[k]).loops = [] → eccAt s (iramBase k + 4 * lePc s k) = none → (s.le[k]).pend = [] →
          leFetch s k = .nop k →
          ∃ t, exec (.leStep ag k w) s = .next t ∧ t = { s with regs := t.regs, le := t.le } ∧ lePc t k = lePc s k + 1 ∧
            leState t k = 3 ∧ (t.le[k]).stepLeft = 0 ∧ RegsBut [(.le k, Le.PC)] s t)) ∧
      (st ≠ 3 → exec (.leStep ag k w) s = .next rejected)) ∧
    (fieldOf w Le.CMD_CMD = 4 → fieldOf w Le.CMD_SWI = 0 →
      (st = 3 → ∃ t, exec (.leResume ag k w) s = .next t ∧ t = { s with regs := t.regs, le := t.le } ∧
        leState t k = (if leClock (mode s) k then 1 else 6) ∧ lePc t k = lePc s k ∧ (t.le[k]).wdogRun = 0 ∧
        (t.le[k]).g = (s.le[k]).g ∧ (t.le[k]).loops = (s.le[k]).loops) ∧
      (st ≠ 3 → exec (.leResume ag k w) s = .next rejected)) ∧
    (fieldOf w Le.CMD_CMD = 5 → fieldOf w Le.CMD_SWI = 0 →
      ∃ t, exec (.leReset ag k w) s = .next t ∧ t = { s with regs := t.regs, le := t.le } ∧ leState t k = 0 ∧
        leLevel t k = false ∧ (∀ i : Fin 32, rd t k i = 0) ∧ (∀ i : Fin 8, (t.le[k]).p[i] = 0) ∧ rdSt t k = 0 ∧
        getF t (.le k) Le.IPEND = 0 ∧ (t.le[k]).wbuf = (s.le[k]).wbuf ∧ (t.le[k]).cyc = (s.le[k]).cyc) ∧
    (fieldOf w Le.CMD_CMD = 0 → fieldOf w Le.CMD_SWI = 1 →
      ∃ t, exec (.leSwi ag k w) s = .next t ∧ t = { s with regs := t.regs, fresh := t.fresh } ∧
        bitAt (getF t (.le k) Le.IPEND) 4 = 1 ∧ RegsBut [(.le k, Le.IPEND)] s t)) ∧
  (
  (∀ (k : Fin 8) (s : State), live s (.le k) = true → leClock (mode s) k = true → (leState s k = 1 ∨ leState s k = 2) →
    leLevel s k = false → getF s (.le k) Le.IEN_GIE = 1 → leSource s k = true → (s.le[k]).slots = 0 →
    (s.le[k]).stall = none → (s.le[k]).stopHeld = false → (s.le[k]).pend = [] →
    ∃ t, exec (.interruptEntry k) s = .next t ∧ t = { s with regs := t.regs, le := t.le } ∧
      RegsBut [(.le k, Le.PC), (.le k, Le.STATUS_LEVEL), (.le k, Le.STATUS_STATE)] s t ∧
      leLevel t k = true ∧ leState t k = 1 ∧ lePc t k = getF s (.le k) Le.IVEC ∧ (t.le[k]).ilr = lePc s k ∧
      (t.le[k]).ist = (s.le[k]).st ∧ (t.le[k]).st = (s.le[k]).st ∧ (t.le[k]).wait = none ∧
      (t.le[k]).cyc = (s.le[k]).cyc + 4 ∧ (t.le[k]).g = (s.le[k]).g) ∧
  (∀ (k : Fin 8) (s : State), live s (.le k) = true → (leState s k = 1 ∨ leState s k = 2) → getF s (.le k) Le.WDOG ≠ 0 →
    getF s (.le k) Le.WDOG * 1000 * 2 ^ 28 ≤ (s.le[k]).wdogRun →
    ∃ u, exec (.watchdogExpiry k) s = .next (raiseAlarm 0x0C02 (blkBase (.le k)) 2 false u) ∧ leState u k = 5 ∧
      getF u (.le k) Le.FAULT_CAUSE = 10 ∧ getF u (.le k) Le.FAULT_PC = lePc s k ∧
      getF u (.le k) Le.STATUS_FAULTEV = 1 ∧ getF u (.le k) Le.STATUS_WDOGEV = 1 ∧ (u.le[k]).pend = []) ∧
  (∀ (k : Fin 8) (w : WaitSt) (s : State), live s (.le k) = true → leClock (mode s) k = true → leState s k = 2 →
    (s.le[k]).wait = some w → waitHolds s k w ≠ 0 → (s.le[k]).stopHeld = false →
    ∃ t, exec (.waitComplete k) s = .next t ∧ t = { s with regs := t.regs, le := t.le } ∧ leState t k = 1 ∧
      (t.le[k]).wait = none ∧ ((s.le[k]).slots = 0 → (s.le[k]).loops = [] → lePc s k ≤ 12287 → lePc t k = lePc s k + 1) ∧
      (w.d % 32 ≠ 0 → rd t k (fin32 w.d) = wordOf (waitHolds s k w)) ∧
      (w.w = true → (t.le[k]).wk = false)))

/-! ### Queues (chapter 14) -/

/-- From R322, R324, R326 to R328, R330 to R332. Rows QUEUE_ENABLE, QUEUE_PUSH, QUEUE_POP, QUEUE_LEN_WRITE, QUEUE_LEN_COMMIT, QUEUE_FLUSH and
QUEUE_COUNT_CLEAR. An accepted entry stands at the write index, and no byte of memory outside it changes; the entry popped is the
oldest, and only the owner's read removes it.
A write is made with the end of its fabric cycle, after the removals, by ascending source (R329), and takes no queue above its capacity;
in a read pass that still wraps at an old length that capacity is the shorter of the two lengths, for posted and staged writes alike:
the model's choice (log 26).
From R328, R339, R340, R347. Rows RECORD_POST, FENCE_CMD and FENCE_PLACE, due. The oldest record of the controller's input buffer goes to
its queue; a fence request waits behind the records of the sources it masks; the first one with none left before it, its cycle over, is
placed in every target queue. An isolated controller takes nothing and places nothing: the model's choice (log 154), as are the staging
words (log 99), a request without a place (log 27) and the order of a cycle's commands (log 123). -/
def Obligations.QueueRows : Prop :=
  (
  (∀ (ag : Agent) (q : Fin 16) (w : Word) (s : State), Accepts ag (.q q) 8 w s → fieldOf w Q.CFG_EN = 1 →
    getF s (.q q) Q.CFG_EN = 0 →
    (ringBad s q (qLen s q) = false → ∃ t, exec (.queueEnable ag q w) s = .next t ∧
      t = { s with regs := t.regs, qs := t.qs } ∧ getF t (.q q) Q.CFG_EN = 1 ∧ qLevel t q = 0 ∧
      getF t (.q q) Q.PTR_WP = 0 ∧ getF t (.q q) Q.PTR_RP = 0 ∧ getF t (.q q) Q.STATUS_EMPTY = 1) ∧
    (ringBad s q (qLen s q) = true → ∃ t, exec (.queueEnable ag q w) s = .next t ∧
      t = { s with regs := t.regs, fresh := t.fresh } ∧ getF t (.q q) Q.CFG_EN = 0 ∧ getF t (.q q) Q.STATUS_CFGERR = 1)) ∧
  (∀ (ag : Agent) (q : Fin 16) (w : Word) (s : State), awake s = true → underReset s (.q q) = false →
    isolated s (.q q) = false →
    let e : QEntry := { s.staging[agentIx ag] with w3 := w }
    (qEnabled s q = true → bitAt (getF s (.q q) Q.CFG_WRMASK) ag.code = 1 → softType e.w0 = true → inbufHeld s < 32 →
      (isolated s .qc = false →
        ∃ t, exec (.queuePush ag q w) s = .next t ∧ t = { s with staging := t.staging, qWait := t.qWait } ∧
          t.qWait = waitInsert { queue := q, src := 32 + ag.code, entries := [e], cyc := s.cycle } s.qWait) ∧
      (isolated s .qc = true → ∃ t, exec (.queuePush ag q w) s = .next t ∧ t = { s with staging := t.staging })) ∧
    ((qEnabled s q = false ∨ bitAt (getF s (.q q) Q.CFG_WRMASK) ag.code = 0 ∨ softType e.w0 = false) →
      ∃ t, exec (.queuePush ag q w) s = .next t ∧ getF t (.q q) Q.STATUS_WREFUSED = 1 ∧ t.mem = s.mem ∧
        RegsBut [(.q q, Q.STATUS_WREFUSED)] s t)) ∧
  (∀ (r : InRec) (l : List InRec),
    (∀ x ∈ l, r.src < x.src) → waitInsert r l = r :: l) ∧
  (∀ (r x : InRec) (l : List InRec), x.src ≤ r.src → waitInsert r (x :: l) = x :: waitInsert r l) ∧
  (∀ (q : Fin 16) (r : InRec) (e : QEntry) (s : State), r.entries = [e] → isolated s (.q q) = false →
    regionReset s .control = false → qEnabled s q = true → s.qCommit[q] = false → gapPending s q = false →
    (if r.src = 0 then qLevel s q < qCap s q else qLevel s q + 1 ≤ qCap s q - 1) →
    let at_ := entryAddr s q (getF s (.q q) Q.PTR_WP)
    let t := writeNow q r s
    t = { s with regs := t.regs, fresh := t.fresh, mem := t.mem, ecc := t.ecc, qCommit := t.qCommit } ∧
      memWord t at_ = e.w0 ∧ memWord t (at_ + 4) = e.w1 ∧ memWord t (at_ + 8) = e.w2 ∧ memWord t (at_ + 12) = e.w3 ∧
      qLevel t q = qLevel s q + 1 ∧
      ∀ a, (a < at_ ∨ at_ + 16 ≤ a) → memByte t a = memByte s a) ∧
  (∀ (q : Fin 16) (r : InRec) (s : State), (r.src = 0 → r.entries.length = 1) →
    let t := writeNow q r s
    qLevel t q ≤ max (qLevel s q) (qCap t q)) ∧
  (∀ (ag : Agent) (q : Fin 16) (s : State), Readable s (.q q) → isolated s .qc = false → s.qCommit[q] = false →
    qLevel s q ≠ 0 → s.ecc = [] →
    ∃ t, exec (.queuePop ag q) s = .next t ∧
      t = { s with regs := t.regs, qs := t.qs, qCommit := t.qCommit, answer := (oldest s q).w0 } ∧
      getF t (.q q) Q.POPW1 = (oldest s q).w1.toNat ∧ getF t (.q q) Q.POPW2 = (oldest s q).w2.toNat ∧
      getF t (.q q) Q.POPW3 = (oldest s q).w3.toNat ∧
      (ag.code = owner s (.q q) → qLevel t q = qLevel s q - 1) ∧
      (ag.code ≠ owner s (.q q) → qLevel t q = qLevel s q ∧ getF t (.q q) Q.PTR_RP = getF s (.q q) Q.PTR_RP)) ∧
  (∀ (ag : Agent) (q : Fin 16) (w : Word) (s : State), Accepts ag (.q q) 0x10 w s →
    let n := Q.LEN.fit (fieldOf w Q.LEN)
    let u := lenCommit q s
    ∃ t, exec (.queueLenWrite ag q w) s = .next t ∧ t.mem = s.mem ∧ (s.qCommit[q] = false → u = s) ∧
      (qEnabled s q = false → qLen t q = n % 2 ^ 15 ∧ getF t (.q q) Q.STATUS_LENPEND = 0) ∧
      (qEnabled s q = true → ringBad u q n = true → t = raiseF (.q q) Q.STATUS_CFGERR u) ∧
      (qEnabled s q = true → ringBad u q n = false → qLevel u q ≠ 0 → getF t (.q q) Q.STATUS_LENPEND = 1 ∧
        getF t (.q q) Q.LENSTG = n % 2 ^ 15 ∧ qLen t q = qLen u q) ∧
      (qEnabled s q = true → ringBad u q n = false → qLevel u q = 0 → qLen t q = n % 2 ^ 15 ∧
        getF t (.q q) Q.PTR_WP = 0 ∧ getF t (.q q) Q.PTR_RP = 0)) ∧
  (∀ (q : Fin 16) (s : State), live s (.q q) = true → s.qCommit[q] = true → getF s (.q q) Q.STATUS_LENPEND = 1 →
    ∃ t, exec (.queueLenCommit q) s = .next t ∧ qLen t q = getF s (.q q) Q.LENSTG ∧
      getF t (.q q) Q.STATUS_LENPEND = 0 ∧ t.mem = s.mem ∧
      (getF s (.q q) Q.LENSTG ≤ getF s (.q q) Q.PTR_RP → getF t (.q q) Q.PTR_RP = 0 ∧
        getF t (.q q) Q.STATUS_SKIPEV = 1) ∧
      (getF s (.q q) Q.PTR_RP < getF s (.q q) Q.LENSTG → getF t (.q q) Q.PTR_RP = getF s (.q q) Q.PTR_RP ∧
        qLevel t q = qLevel s q)) ∧
  (∀ (ag : Agent) (q : Fin 16) (w : Word) (s : State), Accepts ag (.q q) 0x28 w s →
    let u := lenCommit q s
    let frame := fun (t : State) => t = { s with regs := t.regs, fresh := t.fresh, qs := t.qs, qCommit := t.qCommit }
    (fieldOf w Q.CMD_FLUSH = 1 → fieldOf w Q.CMD_CNTCLR = 0 →
      ∃ t, exec (.queueFlush ag q w) s = .next t ∧ frame t ∧
        qLevel t q = 0 ∧ getF t (.q q) Q.PTR_RP = getF s (.q q) Q.PTR_WP ∧ getF t (.q q) Q.STATUS_SKIPEV = 1 ∧
        (s.fresh.contains (clearKey (.q q)) = false →
          getF t (.q q) Q.SKIPCNT = min (2 ^ 32 - 1) (getF u (.q q) Q.SKIPCNT + qLevel u q)) ∧
        (s.fresh.contains (clearKey (.q q)) = true → qLevel u q ≠ 0 → getF t (.q q) Q.SKIPCNT = 1)) ∧
    (fieldOf w Q.CMD_CNTCLR = 1 → fieldOf w Q.CMD_FLUSH = 0 →
      ∃ t, exec (.queueCountClear ag q w) s = .next t ∧ frame t ∧
        getF t (.q q) Q.LEVEL_HIGH = qLevel u q ∧ t.fresh.contains (clearKey (.q q)) = true ∧
        (∀ f ∈ [Q.DROPCNT, Q.OWRCNT, Q.SKIPCNT],
          getF t (.q q) f = if u.fresh.contains (fkey (.q q) f) then 1 else 0)))) ∧
  (
  (∀ (r : InRec) (rest : List InRec) (s : State), live s .qc = true → s.inbuf = r :: rest →
    exec .recordPost s = .next { s with
      inbuf := rest, qWait := waitInsert r s.qWait
      fences := s.fences.map (fun f => if f.mask / 2 ^ r.src % 2 = 1 then { f with before := f.before - 1 } else f) }) ∧
  (∀ (ag : Agent) (w : Word) (s : State), Readable s .qc → inbufHeld s < 32 →
    ∃ (t : State) (f : FenceRec), exec (.fenceCmd ag w) s = .next t ∧ t = { s with fences := s.fences ++ [f], seqs := t.seqs } ∧
      f.req = ag.code ∧ f.time = timeNs s ∧ f.mask = (s.fenceSrc[agentIx ag]).toNat ∧
      f.cyc = s.cycle ∧ f.id = fieldOf w Qc.FENCE_CMD_ID ∧ f.targets = fieldOf w Qc.FENCE_CMD_TARGETS ∧
      f.before = (s.inbuf.filter (fun r => f.mask % 2 ^ 19 / 2 ^ r.src % 2 == 1)).length) ∧
  (∀ (f : FenceRec) (s : State), live s .qc = true → s.fences.find? (fenceReady s) = some f →
    ∃ t, exec .fencePlace s = .next t ∧ t.fences = s.fences.erase f ∧
      t = forAll (List.finRange 16)
        (fun q s => if f.targets / 2 ^ q.val % 2 = 1 then fenceInto f q s else s) { s with fences := s.fences.erase f } ∧
      f.cyc ≠ s.cycle ∧ f.before = 0 ∧
      t = { s with fences := t.fences, qWait := t.qWait } ∧
      ∀ q : Fin 16, f.targets = 2 ^ q.val → t.qWait
        = waitInsert { queue := q, src := 0, entries := [fenceEntry f], cyc := s.cycle } s.qWait))

/-! ### Alarms (chapter 14) -/

/-- From R341 to R345, R349, R430. Rows ALARM_RAISE, ALARM_CONDITION_GONE, ALARM_ACK, AT_RAISE, AT_RAISE_SRC_WRITE and INCIDENT_CLOSE. A raise
joins those of its fabric cycle, by ascending source and code, and acts on the table with the cycle's end, and at once where no fabric
cycle runs. A raise of a key that no valid entry holds takes the lowest-numbered free entry; one whose key is held counts in that
entry, makes it unacknowledged and keeps the higher grade; one that finds no free entry takes the overflow entry of its grade. FATAL
latches. A condition that has gone frees an acknowledged entry; an acknowledgement frees an entry without a condition; an entry freed in
a fabric cycle is kept by a raise of its key in that cycle, and its CLEARED record else follows with the cycle's end. AT_RAISE is
limited for every agent but the Keeper. An incident closes 10 s after its last record. The grade in a record (log 39) and the clock of
those 10 s (log 124) are the model's choice. -/
def Obligations.AlarmTable : Prop :=
  (∀ (code : BitVec 16) (src : Word) (grade : Fin 4) (kept : Bool) (s : State), dormant s = false → frozen s = false →
    ∃ u, exec (.alarmRaise code src grade kept) s
        = .next (if grade = 3 then fatalLatch code.toNat src.toNat u else u) ∧
      (let r : AlarmRaise := { code := code.toNat, src := src.toNat, grade := grade.val, keep := kept }
       (clocked s .system = true → u = { s with alarmRaises := raiseInsert r s.alarmRaises }) ∧
       (clocked s .system = false → u = raiseNow r s))) ∧
  (∀ (r x : AlarmRaise) (l : List AlarmRaise),
    (r.src < x.src ∨ (r.src = x.src ∧ r.code < x.code) → raiseInsert r (x :: l) = r :: x :: l) ∧
    (¬ (r.src < x.src ∨ (r.src = x.src ∧ r.code < x.code)) → raiseInsert r (x :: l) = x :: raiseInsert r l)) ∧
  (∀ (r : AlarmRaise) (s : State), s.alarmEnds = [] →
    let u := raiseNow r s
    let new : AlarmEntry := { valid := true, cond := r.keep, grade := r.grade, code := r.code, src := r.src,
                              first := timeNs s, last := timeNs s, count := 1, firstEp := timeEpoch s,
                              lastEp := timeEpoch s }
    (∀ i, findAlarm s r.code r.src = some i → let e := s.alarms[i]
       u.alarms = s.alarms.set i { e with acked := false, cond := e.cond || r.keep, grade := max e.grade r.grade,
                                          last := timeNs s, lastEp := timeEpoch s,
                                          count := min (2 ^ 32 - 1) (e.count + 1) }) ∧
    (findAlarm s r.code r.src = none → ∀ i, freeAlarm s = some i → u.alarms = s.alarms.set i new) ∧
    (findAlarm s r.code r.src = none → freeAlarm s = none → ∀ i : Fin 132, i.val = 128 + r.grade % 4 →
       let e := s.alarms[i]
       (e.valid = false → u.alarms = s.alarms.set i { new with cond := false }) ∧
       (e.valid = true → u.alarms = s.alarms.set i { e with code := r.code, src := r.src, last := timeNs s,
                                                            lastEp := timeEpoch s,
                                                            count := min (2 ^ 32 - 1) (e.count + 1) }))) ∧
  (∀ (r : AlarmRaise) (i : Fin 132) (e : AlarmEntry) (s : State),
    s.alarmEnds = [(i.val, e)] → i.val < 128 → e.valid = true → e.code = r.code → e.src = r.src →
    findAlarm s r.code r.src = none →
    let u := raiseNow r s
    u.alarmEnds = [] ∧
      u.alarms = s.alarms.set i { e with acked := false, cond := e.cond || r.keep, grade := max e.grade r.grade,
                                         last := timeNs s, lastEp := timeEpoch s,
                                         count := min (2 ^ 32 - 1) (e.count + 1) }) ∧
  (∀ (r : AlarmRaise) (s : State), (s.alarmRaises = [r] → s.alarmEnds = [] → alarmTick s = raiseNow r { s with alarmRaises := [] }) ∧
    (s.alarmRaises = [] → s.alarmEnds = [] → alarmTick s = s)) ∧
  (∀ (i : Fin 132) (e : AlarmEntry) (s : State), s.alarmRaises = [] → s.alarmEnds = [(i.val, e)] →
    alarmTick s = alarmRecord 2 i e { s with alarmEnds := [] }) ∧
  (∀ (code : BitVec 16) (src : Word) (i : Fin 132) (s : State), awake s = true →
    findAlarm s code.toNat src.toNat = some i →
    ((s.alarms[i]).acked = false → exec (.alarmConditionGone code src) s
      = .next { s with alarms := s.alarms.set i { s.alarms[i] with cond := false } }) ∧
    ((s.alarms[i]).acked = true → exec (.alarmConditionGone code src) s
      = .next { s with alarms := s.alarms.set i {},
                       alarmEnds := s.alarmEnds ++ [(i.val, { s.alarms[i] with cond := false })] })) ∧
  (∀ (ag : Agent) (w : Word) (i : Fin 132) (s : State), Accepts ag .ec 0x804 w s → fieldOf w Ec.AT_ACK_ALL = 0 →
    fieldOf w Ec.AT_ACK_INDEX = i.val → let e := s.alarms[i]
    (e.valid = false → exec (.alarmAck ag w) s = .next s) ∧
    (e.valid = true → e.cond = true → ∃ t, exec (.alarmAck ag w) s = .next t ∧ t = { s with alarms := t.alarms, fresh := t.fresh } ∧
      t.alarms = s.alarms.set i { e with acked := true } ∧
      (e.acked = false → t.fresh.contains (ackKey i) = true) ∧ (e.acked = true → t.fresh = s.fresh)) ∧
    (e.valid = true → e.cond = false →
      exec (.alarmAck ag w) s
        = .next { s with alarms := s.alarms.set i {}, alarmEnds := s.alarmEnds ++ [(i.val, e)] })) ∧
  (∀ (ag : Agent) (w : Word) (s : State), Accepts ag .ec 0x804 w s → fieldOf w Ec.AT_ACK_ALL = 1 →
    ∃ t, exec (.alarmAck ag w) s = .next t ∧ t = { s with alarms := t.alarms, alarmEnds := t.alarmEnds, fresh := t.fresh } ∧
      ∀ i : Fin 132, let e := s.alarms[i]
        t.alarms[i] = if e.valid = false then e
          else if e.cond then { e with acked := true } else {}) ∧
  (∀ (ag : Agent) (w : Word) (s : State), awake s = true →
    let code := fieldOf w Ec.AT_RAISE_CODE
    let g := fieldOf w Ec.AT_RAISE_GRADE
    (ag = .keeper → exec (.atRaise ag w) s = .next (raiseAlarm code (getF s .ec Ec.AT_RAISE_SRC) g false s)) ∧
    (ag ≠ .keeper → 0xF000 ≤ code → g ≤ 2 → exec (.atRaise ag w) s = .next (raiseAlarm code (agentSrc ag) g false s)) ∧
    (ag ≠ .keeper → (code < 0xF000 ∨ g = 3) → exec (.atRaise ag w) s = .next s) ∧
    (ag ≠ .keeper → exec (.atRaiseSrcWrite ag w) s = .next (blkErr .ec .own ag.code 0x808 s)) ∧
    (ag = .keeper → ∃ t, exec (.atRaiseSrcWrite ag w) s = .next t ∧ t = { s with regs := t.regs } ∧
      getF t .ec Ec.AT_RAISE_SRC = w.toNat ∧ RegsBut [(.ec, Ec.AT_RAISE_SRC)] s t)) ∧
  (∀ s : State, awake s = true → s.incident.opened = true → 10000000000 ≤ sinceNs s s.incident.lastAt →
    ∃ t, exec .incidentClose s = .next t ∧ t = { s with flash := t.flash, incident := {} })

/-! ### The host port (chapter 15) -/

/-- From R350 to R359, R363. Rows QSPI_PING, QSPI_READ, QSPI_WRITE, QSPI_WRITEP, QSPI_FENCE, QSPI_REPEAT, QSPI_ABORT, HOST_POSTED_DRAIN and
HOST_SWI. A frame with a wrong CRC, an unknown command or a length not permitted executes nothing and is answered with its
code. PING answers OK; READ and WRITE first empty the posted buffer and access their words in ascending order; WRITEP is taken
whole or refused with FULL; FENCE places a fence request; REPEAT sends the response kept, or NORESP. A port that does not answer
sends wait bytes, or drives nothing; a frame in which a reset of the System region begins gets no response. A posted word
that names no register sets UNMAPPED, and BLK_ERR of the block in whose range it lies (which bit: the model's choice, log 145). The
response is driven on IO1, or on the lanes of the request in dual and quad width, and followed by 0xFF until CS_N rises. The model's
choices: what a wrong length does (log 101), wait bytes from stage 1 on, which stands for stages 1 and 2 (log 114, 155), and the lanes
of the width code 3 (log 158). -/
def Obligations.HostPortFrames : Prop :=
  (∀ (f : Frame) (s : State), hostReady s = true → frameRefusal f = none →
    let shown : HpOut := if s.ec.jtagIr = 5 then .undriven else .response
    let s1 : State := { s with hp := { s.hp with width := frameWidth f } }
    (frameOp f = 0 → ∃ t, exec (.qspiPing f) s = .next t ∧ t = { s with hp := t.hp } ∧ t.hp.sent = response 0x80 [] ∧
      t.hp.out = shown ∧ t.hp.kept = some (response 0x80 []) ∧ t.hp.posted = s.hp.posted ∧ t.hp.width = frameWidth f) ∧
    (frameOp f = 1 →
      (let r := readWords (frameAddrs f.addr.toNat f.len.toNat) (drainAll s1)
       exec (.qspiRead f) s = .next (if regionReset r.2.2 .system then hostSilent r.2.2
         else respond (accessStatus r.1) (if accessStatus r.1 = 0x86 then [] else r.2.1) r.2.2)) ∧
      (∀ off, f.len = 1 → s.hp.posted = [] → target (f.addr.toNat % 2 ^ 32) = .pool off → s.ecc = [] →
        regionReset s .control = false →
        ∃ t, exec (.qspiRead f) s = .next t ∧ t = { s with hp := t.hp } ∧ t.hp.out = shown ∧
          t.hp.sent = response 0x80 [memWord s (poolBase + off)])) ∧
    (frameOp f = 2 →
      (let r := writeWords ((frameAddrs f.addr.toNat f.len.toNat).zip f.data) (drainAll s1)
       exec (.qspiWrite f) s = .next (if regionReset r.2 .system then hostSilent r.2 else respond (accessStatus r.1) [] r.2)) ∧
      (∀ off w, f.len = 1 → f.data = [w] → s.hp.posted = [] → target (f.addr.toNat % 2 ^ 32) = .pool off →
        ringAt s off = none → regionReset s .control = false →
        ∃ t, exec (.qspiWrite f) s = .next t ∧ t = { s with hp := t.hp, mem := t.mem, ecc := t.ecc } ∧ t.hp.out = shown ∧
          memWord t (poolBase + off) = w ∧ t.hp.sent = response 0x80 [])) ∧
    (frameOp f = 3 → s.hp.posted.length + f.len.toNat ≤ 256 →
      ∃ t, exec (.qspiWritep f) s = .next t ∧ t = { s with hp := t.hp } ∧ t.hp.out = shown ∧
        t.hp.posted = s.hp.posted ++ (frameAddrs f.addr.toNat f.len.toNat).zip f.data ∧ t.hp.sent = response 0x80 []) ∧
    (frameOp f = 3 → 256 < s.hp.posted.length + f.len.toNat →
      ∃ t, exec (.qspiWritep f) s = .next t ∧ t = { s with hp := t.hp, regs := t.regs, fresh := t.fresh } ∧
        t.hp.posted = s.hp.posted ∧ t.hp.sent = response 0x84 [] ∧ getF t .hp Hp.STATUS_FULL = 1) ∧
    (frameOp f = 4 →
      let w := (f.data.headD 0).toNat
      let u := drainAll s1
      exec (.qspiFence f) s = .next (if regionReset u .system then hostSilent u
        else respond 0x80 [] (fenceRequest 0 f.addr.toNat (w / 2 ^ 16) (w % 2 ^ 16) u)) ∧
      (s.hp.posted = [] → inbufHeld s < 32 → ∃ t r, exec (.qspiFence f) s = .next t ∧
        t = { s with hp := t.hp, fences := s.fences ++ [r], seqs := t.seqs } ∧ t.hp.sent = response 0x80 [] ∧
        r.req = 0 ∧ r.mask = f.addr.toNat ∧ r.id = w / 2 ^ 16 ∧ r.targets = w % 2 ^ 16 ∧ r.time = timeNs s)) ∧
    (frameOp f = 5 → (∀ r, s.hp.kept = some r →
        exec (.qspiRepeat f) s = .next { s with hp := { s.hp with sent := r, out := shown, width := frameWidth f } }) ∧
      (s.hp.kept = none → exec (.qspiRepeat f) s = .next (respond 0x88 [] s1)))) ∧
  (∀ (f : Frame) (s : State), hostReady s = false →
    let out : HpOut := if awake s = true ∧ s.ec.jtagIr ≠ 5 ∧ s.pwr.vinOk = true ∧ s.pwr.resetLow = false then .waits else .undriven
    ∀ i ∈ [Instr.qspiPing f, .qspiRead f, .qspiWrite f, .qspiWritep f, .qspiFence f, .qspiRepeat f],
      exec i s = .next { s with hp := { s.hp with sent := [], out := out, width := frameWidth f } }) ∧
  (∀ (i : Nat) (s : State),
    (s.hp.out = .response → hostByte s i = some (if h : i < s.hp.sent.length then s.hp.sent[i] else 0xFF)) ∧
    (s.hp.out = .waits → hostByte s i = some 0) ∧ (s.hp.out = .undriven → hostByte s i = none ∧ hostLanes s = []) ∧
    (s.hp.out ≠ .undriven → hostLanes s = if s.hp.width = 1 then [0, 1] else if s.hp.width = 2 then [0, 1, 2, 3] else [1])) ∧
  (∀ (f : Frame) (st : Nat) (s : State), hostReady s = true → frameRefusal f = some st →
    ∀ i ∈ [Instr.qspiPing f, .qspiRead f, .qspiWrite f, .qspiWritep f, .qspiFence f, .qspiRepeat f],
      ∃ t, exec i s = .next t ∧ t = { s with hp := t.hp, regs := t.regs, fresh := t.fresh } ∧
        t.hp.sent = response st [] ∧ t.hp.kept = some (response st []) ∧ t.hp.posted = s.hp.posted ∧
        (st = 0x81 → getF t .hp Hp.STATUS_CRC = 1 ∧
          getF t .hp Hp.ERRCNT_CRCCNT = min (2 ^ 16 - 1) (getF s .hp Hp.ERRCNT_CRCCNT + 1)) ∧
        (st = 0x82 → getF t .hp Hp.STATUS_BADCMD = 1) ∧ (st = 0x83 → getF t .hp Hp.STATUS_BADLEN = 1)) ∧
  (∀ s : State, hostReady s = true →
    ∃ t, exec .qspiAbort s = .next t ∧ t = { s with regs := t.regs, fresh := t.fresh } ∧ getF t .hp Hp.STATUS_ABORT = 1 ∧
      getF t .hp Hp.ERRCNT_ABCNT = min (2 ^ 16 - 1) (getF s .hp Hp.ERRCNT_ABCNT + 1)) ∧
  (∀ (a : Nat) (w : Word) (rest : List (Nat × Word)) (s : State), hostReady s = true → s.hp.posted = (a, w) :: rest →
    let u := { s with hp := { s.hp with posted := rest } }
    (busRes .host a w u ≠ .unmapped →
      exec .hostPostedDrain s = .next (noteDrain (busRes .host a w u) (busWrite .host a w u))) ∧
    (busRes .host a w u = .unmapped → ∃ t, exec .hostPostedDrain s = .next t ∧ t.mem = s.mem ∧
      getF t .hp Hp.STATUS_UNMAPPED = 1 ∧
      (unmappedBlk a = none → t = { u with regs := t.regs, fresh := t.fresh } ∧ RegsBut [(.hp, Hp.STATUS_UNMAPPED)] s t) ∧
      ∀ b off, unmappedBlk a = some (b, off) → underReset s b = false →
        (isolated s b = true → getF t b Hdr.ISO = 1) ∧
        (isolated s b = false → owner s b ≠ 0 → getF t b Hdr.OWN = 1) ∧
        (isolated s b = false → owner s b = 0 → getF t b Hdr.OWN = 1 ∨ getF t b Hdr.RUNW = 1))) ∧
  (∀ (ag : Agent) (w : Word) (s : State), Readable s .hp → fieldOf w Hp.IRQ_SET = 1 →
    ∃ t, exec (.hostSwi ag w) s = .next t ∧ t = { s with regs := t.regs, fresh := t.fresh } ∧
      getF t .hp Hp.IRQ_STATUS_SWI = 1 ∧ getF t .hp Hp.IRQ_STATUS_SWIAG = ag.code ∧
      RegsBut [(.hp, Hp.IRQ_STATUS_SWI), (.hp, Hp.IRQ_STATUS_SWIAG)] s t)

/-! ### The MACs (chapter 15) -/

/-- From R365 to R368. Rows ETH_LINK_CHANGE, ETH_FRAME_RECEIVED and ETH_FRAME_SENT. A change of the link is shown with LINKEV, and sets
SPDERR where it passes no frames; a damaged frame and one that is not accepted are counted alone, one for another station is
not counted; a PTP event message is stamped with the latency of its direction, and a one-step Sync, as PTP_SET orders it, carries
its stamp with a UDP checksum of 0. The Keeper's stack answers ARP and ICMP echo for the port's own address. -/
def Obligations.EthernetRows : Prop :=
  (∀ (p : Fin 2) (link fdx : Bool) (speed : Fin 4) (s : State), ethClock s p = true →
    (flag s (.eth p) Eth.STATUS_LINK ≠ link ∨ flag s (.eth p) Eth.STATUS_FDX ≠ fdx ∨
      getF s (.eth p) Eth.STATUS_SPEED ≠ speed.val) →
    ∃ t, exec (.ethLinkChange p link fdx speed) s = .next t ∧ t = { s with regs := t.regs, fresh := t.fresh } ∧
      flag t (.eth p) Eth.STATUS_LINK = link ∧ flag t (.eth p) Eth.STATUS_FDX = fdx ∧
      getF t (.eth p) Eth.STATUS_SPEED = speed.val ∧ getF t (.eth p) Eth.STATUS_LINKEV = 1 ∧
      (link = true → (fdx = false ∨ speed = 3 ∨ (mode s = 2 ∧ speed ≠ 1)) → getF t (.eth p) Eth.STATUS_SPDERR = 1) ∧
      RegsBut [(.eth p, Eth.STATUS_LINK), (.eth p, Eth.STATUS_FDX), (.eth p, Eth.STATUS_SPEED), (.eth p, Eth.STATUS_LINKEV),
        (.eth p, Eth.STATUS_SPDERR)] s t) ∧
  (∀ (p : Fin 2) (f : EthFrame) (s : State), ethPasses s p = true →
    (f.damaged = true → exec (.ethFrameReceived p f) s = .next (incF (.eth p) Eth.CNT1 s)) ∧
    (f.damaged = false → (f.bytes < 64 ∨ 1522 < f.bytes ∨ 1 < f.tags ∨ f.control = true) →
      exec (.ethFrameReceived p f) s = .next (incF (.eth p) Eth.CNT3 s)) ∧
    (f.damaged = false → 64 ≤ f.bytes → f.bytes ≤ 1522 → f.tags ≤ 1 → f.control = false →
      (ethForUs s p f = false → exec (.ethFrameReceived p f) s = .next s) ∧
      (ethForUs s p f = true →
        ∃ t, exec (.ethFrameReceived p f) s = .next t ∧ t = { s with regs := t.regs, eth := t.eth } ∧
          (f.ptpEvent = false → getF t (.eth p) Eth.RXTS = getF s (.eth p) Eth.RXTS ∧
            (t.eth[p]).rxSec = (s.eth[p]).rxSec ∧ (t.eth[p]).rxEp = (s.eth[p]).rxEp) ∧
          (f.ptpEvent = true → let at_ := stamp s f.half (-(getF s (.eth p) Eth.RXLAT : Int))
            (t.eth[p]).rxSec = at_.1 ∧ getF t (.eth p) Eth.RXTS = at_.2 ∧ (t.eth[p]).rxEp = timeEpoch s) ∧
          (∀ ip, f.load = .arp ip → flag s .mb Mb.KS_STATE_FWRUN = true → ip.toNat = (s.eth[p]).ip →
            (t.eth[p]).answers = .arp ip.toNat :: (s.eth[p]).answers.take 15) ∧
          (∀ ip, f.load = .echo ip → flag s .mb Mb.KS_STATE_FWRUN = true → ip.toNat = (s.eth[p]).ip →
            (t.eth[p]).answers = .echo ip.toNat :: (s.eth[p]).answers.take 15) ∧
          (f.load = .fragment ∨ f.load = .service ∨ f.load = .other → (t.eth[p]).answers = (s.eth[p]).answers) ∧
          getF t (.eth p) Eth.CNT0 = min (2 ^ 32 - 1) (getF s (.eth p) Eth.CNT0 + 1) ∧
          RegsBut [(.eth p, Eth.RXTS), (.eth p, Eth.CNT0)] s t))) ∧
  (∀ (p : Fin 2) (ptpEvent sync half : Bool) (s : State), ethPasses s p = true →
    let one := sync && bitAt s.keeper.ptpCfg[0] 12 == 1
    ∃ t, exec (.ethFrameSent p ptpEvent sync half) s = .next t ∧ t = { s with regs := t.regs, eth := t.eth } ∧
      (t.eth[p]).tag = (if getF s (.eth p) Eth.CFG_VLANEN = 1 then some (getF s (.eth p) Eth.CFG_VID) else none) ∧
      (ptpEvent = false → getF t (.eth p) Eth.TXTS = getF s (.eth p) Eth.TXTS ∧ (t.eth[p]).txSec = (s.eth[p]).txSec ∧
        (t.eth[p]).txEp = (s.eth[p]).txEp ∧ (t.eth[p]).origin = (s.eth[p]).origin ∧ (t.eth[p]).sum0 = (s.eth[p]).sum0) ∧
      (ptpEvent = true → let at_ := stamp s half (getF s (.eth p) Eth.TXLAT : Int)
        (t.eth[p]).txSec = at_.1 ∧ getF t (.eth p) Eth.TXTS = at_.2 ∧ (t.eth[p]).txEp = timeEpoch s ∧
         (one = true → (t.eth[p]).origin = some at_ ∧ (t.eth[p]).sum0 = (bitAt s.keeper.ptpCfg[0] 13 == 0)) ∧
         (one = false → (t.eth[p]).origin = (s.eth[p]).origin ∧ (t.eth[p]).sum0 = (s.eth[p]).sum0)) ∧
      getF t (.eth p) Eth.CNT2 = min (2 ^ 32 - 1) (getF s (.eth p) Eth.CNT2 + 1) ∧
      RegsBut [(.eth p, Eth.TXTS), (.eth p, Eth.CNT2)] s t)

/-! ### The Keeper (chapters 15 and 16) -/

/-- From R360, R361, R380. The thirty command rows of the mailbox (INFO to DBG_LOCK), MB_CONSUME and MAILBOX_COMPLETE. A GO that is
accepted makes the mailbox BUSY and runs its command with the arguments it names; its result waits for MAILBOX_COMPLETE, or
for the mode that SET_MODE orders. A GO while BUSY only sets GOREJ; one over a result that was not consumed sets UNCONS.
MAILBOX_COMPLETE shows the result with its tag; MB_CONSUME with that tag consumes it, and is refused otherwise. -/
def Obligations.MailboxHandshake : Prop :=
  (∀ (ag : Agent) (seq : BitVec 8) (narg : BitVec 4) (s : State),
    ∀ p ∈ ([(Instr.info ag seq narg, 0x01), (.setMode ag seq narg, 0x02), (.holdBeacon ag seq narg, 0x03),
      (.beaconSet ag seq narg, 0x04), (.timeRole ag seq narg, 0x10), (.timeSlew ag seq narg, 0x11),
      (.ptpSet ag seq narg, 0x12), (.ethSet ag seq narg, 0x20), (.ipSet ag seq narg, 0x21),
      (.envenSet ag seq narg, 0x22), (.traceCap ag seq narg, 0x23), (.sensorSet ag seq narg, 0x30),
      (.lensSave ag seq narg, 0x40), (.lensLoad ag seq narg, 0x41), (.logInfo ag seq narg, 0x50),
      (.logRead ag seq narg, 0x51), (.logErase ag seq narg, 0x52), (.tndBegin ag seq narg, 0x60),
      (.tndWrite ag seq narg, 0x61), (.tndVerify ag seq narg, 0x62), (.tndSchedule ag seq narg, 0x63),
      (.tndCancel ag seq narg, 0x64), (.tndConfirm ag seq narg, 0x65), (.tndStatus ag seq narg, 0x66),
      (.tndSwitch ag seq narg, 0x67), (.keyFuse ag seq narg, 0x70), (.keyRevoke ag seq narg, 0x71),
      (.dbgChallenge ag seq narg, 0x80), (.dbgResponse ag seq narg, 0x81), (.dbgLock ag seq narg, 0x82)] : List (Instr × Nat)),
      Accepts ag .mb 0x40 (wordOf (p.2 * 2 ^ 16 + seq.toNat * 2 ^ 8 + narg.toNat)) s →
      (getF s .mb Mb.STATE_STATE = 1 → exec p.1 s = .next (raiseF .mb Mb.STATUS_GOREJ s)) ∧
      (getF s .mb Mb.STATE_STATE ≠ 1 →
        let u := setF .mb Mb.STATE_STATE 1 (raiseIf (getF s .mb Mb.STATE_STATE == 2) .mb Mb.STATUS_UNCONS s)
        let r := command p.2 (mbArgs u narg.toNat) u
        exec p.1 s = .next (match r.1 with
          | some (code, ws) => { r.2 with hp := { r.2.hp with mbRes := some (seq.toNat, code, ws.map wordOf) } }
          | none => { r.2 with hp := { r.2.hp with mbMode := some seq.toNat } }))) ∧
  (∀ (ag : Agent) (w : Word) (s : State), Accepts ag .mb 0xBC w s → fieldOf w Mb.CONSUME_CONSUME = 1 →
    let st := getF s .mb Mb.STATE_STATE
    (st = 0 → exec (.mbConsume ag w) s = .next s) ∧
    (st = 2 → fieldOf w Mb.CONSUME_SEQ = getF s .mb Mb.STATE_SEQ →
      ∃ t, exec (.mbConsume ag w) s = .next t ∧ t = { s with regs := t.regs } ∧ getF t .mb Mb.STATE_STATE = 3 ∧
        RegsBut [(.mb, Mb.STATE_STATE)] s t) ∧
    (st = 1 ∨ st = 3 ∨ (st = 2 ∧ fieldOf w Mb.CONSUME_SEQ ≠ getF s .mb Mb.STATE_SEQ) →
      exec (.mbConsume ag w) s = .next (raiseF .mb Mb.STATUS_CONSREJ s))) ∧
  (∀ (q code : Nat) (ws : List Word) (s : State), keeperRuns s = true → s.hp.mbRes = some (q, code, ws) →
    q < 256 → code < 256 → ws.length ≤ 14 →
    ∃ t, exec .mailboxComplete s = .next t ∧ t = { s with regs := t.regs, hp := { s.hp with mbRes := none, mbWords := ws } } ∧
      getF t .mb Mb.STATE_STATE = 2 ∧ getF t .mb Mb.STATE_SEQ = q ∧ getF t .mb Mb.STATE_RESULT = code ∧
      getF t .mb Mb.STATE_NRES = ws.length ∧
      RegsBut [(.mb, Mb.STATE_STATE), (.mb, Mb.STATE_SEQ), (.mb, Mb.STATE_RESULT), (.mb, Mb.STATE_NRES)] s t)

/-- From R377, R379 to R381, R384, R387, R388, R411, R414, R415. What the commands 0x01 to 0x52 do, by their numbers in R380: the result code
first, then the words of the result, then the state. The argument `a i` is ARGi, 0 beyond the number given. Whether an erase or a
program of the boot flash succeeds is free, and where it fails the result is FLASH (log 5: the model's choice is what an erased byte
reads as and what a failure leaves). ARG1 of SET_MODE (log 84), the settings without a default (log 22) and the ranges held for PTP
(log 151) are the model's reading. -/
def Obligations.SettingsCommands : Prop :=
  ∀ (a : Nat → Nat) (s : State),
    (∀ c, fwRun s = false → romCommand c = false → command c a s = (some (1, []), s)) ∧
    command 0x01 a s = (some (0, [fieldsWord s .mb [Mb.KS_LEVEL_FLEVEL, Mb.KS_LEVEL_COMPAT],
      fieldsWord s .mb [Mb.KS_VERSION_MAJOR, Mb.KS_VERSION_MINOR, Mb.KS_VERSION_BUILD],
      Config.uid.toNat % 2 ^ 32, Config.uid.toNat / 2 ^ 32]), s) ∧
    (fwRun s = true →
      (∀ r, setModeRes (a 0) (a 1 % 2 ^ 16) (alarmGone 0x0B02 (blkBase .pwr) (incFlush false s)) = .refused r →
        command 0x02 a s = (some (r, []), alarmGone 0x0B02 (blkBase .pwr) (incFlush false s))) ∧
      (setModeRes (a 0) (a 1 % 2 ^ 16) (alarmGone 0x0B02 (blkBase .pwr) (incFlush false s)) = .now →
        command 0x02 a s = (some (0, []), alarmGone 0x0B02 (blkBase .pwr) (incFlush false s))) ∧
      (setModeRes (a 0) (a 1 % 2 ^ 16) (alarmGone 0x0B02 (blkBase .pwr) (incFlush false s)) = .later →
        ∃ r t, command 0x02 a s = (r, t) ∧ r = (if a 0 = 4 then some (0, []) else none) ∧
          getF t .pwr Pwr.MODE_PEND = 1 ∧ getF t .pwr Pwr.MODE_TARGET = a 0 ∧ t.pwr.pendMask = a 1 % 2 ^ 16)) ∧
    ((1 < a 0 → command 0x03 a s = (some (2, []), s)) ∧
      (a 0 = 0 → ∃ t, command 0x03 a s = (some (0, []), t) ∧
        t = { s with regs := t.regs, pwr := { s.pwr with hold := false }, keeper := { s.keeper with handDue := [] } } ∧
        ∀ k : Fin 8, owner t (.le k) = if k ∈ s.keeper.handDue ∧ owner s (.le k) = 9 then 0 else owner s (.le k)) ∧
      (a 0 = 1 → 5 ≤ s.pwr.stage → mode s = 3 →
        command 0x03 a s = (some (0, []), { s with pwr := { s.pwr with hold := true } })) ∧
      (a 0 = 1 → (s.pwr.stage < 5 ∨ mode s ≠ 3) → command 0x03 a s = (some (3, []), s))) ∧
    (let b := poolBytes s (a 0) 156
     let u := poolMeet (a 0) 156 s
     (s.ecc = [] → u = s) ∧ (poolOk s (a 0) 156 = false → command 0x04 a s = (some (2, []), s)) ∧
     (poolOk s (a 0) 156 = true → beaconMagic b = false → command 0x04 a s = (some (2, []), u)) ∧
     (poolOk s (a 0) 156 = true → beaconMagic b = true → beaconCrc b = false → command 0x04 a s = (some (7, []), u)) ∧
     (poolOk s (a 0) 156 = true → beaconMagic b = true → beaconCrc b = true →
       ∃ r t, command 0x04 a s = (some (r, []), t) ∧ t = { u with flash := t.flash, free := u.free + 1 } ∧
         (Config.flashFails u.free = false → r = 0 ∧ flashBytes t beaconAt 156 = b) ∧
         (Config.flashFails u.free = true → r = 5))) ∧
    (fwRun s = true →
      (command 0x10 a s = (some (0, []), timeWrite .keeper 0x3C (wordOf (a 0)) s)) ∧
      (command 0x11 a s = (some (0, []), timeWrite .keeper 0x30 (wordOf (a 1)) (timeWrite .keeper 0x2C (wordOf (a 0)) s))) ∧
      (ptpArgOk (a 1) = false → command 0x12 a s = (some (2, []), s)) ∧
      (ptpArgOk (a 1) = true → ∃ t, command 0x12 a s = (some (0, []), t) ∧ t = { s with regs := t.regs, keeper := t.keeper } ∧
        t.keeper.ptpCfg = #v[a 0, a 1, a 2] ∧ RegsBut [(.mb, Mb.KS_PTP_PS0), (.mb, Mb.KS_PTP_PS1)] s t ∧
        getF t .mb Mb.KS_PTP_PS0 = (if bitAt (a 0) 8 = 1 then getF s .mb Mb.KS_PTP_PS0 else 0) ∧
        getF t .mb Mb.KS_PTP_PS1 = (if bitAt (a 0) 9 = 1 then getF s .mb Mb.KS_PTP_PS1 else 0)) ∧
      (1 < a 0 → command 0x20 a s = (some (2, []), s) ∧ command 0x21 a s = (some (2, []), s)) ∧
      (a 0 ≤ 1 → command 0x20 a s = (some (0, []), ([(0x8, 1), (0xC, 2), (0x10, 3), (0x18, 4), (0x1C, 5)] : List (Nat × Nat)).foldl
          (fun s p => ethWrite .keeper (fin2 (a 0)) p.1 (wordOf (a p.2)) s) s) ∧
        ∃ t, command 0x21 a s = (some (0, []), t) ∧ t = { s with eth := t.eth } ∧ (t.eth[fin2 (a 0)]).ip = a 1 ∧
          (t.eth[fin2 (a 0)]).mask = a 2 ∧ (t.eth[fin2 (a 0)]).gateway = a 3) ∧
      ((a 4 < 10 ∨ 1000 < a 4) → command 0x22 a s = (some (2, []), s)) ∧
      (10 ≤ a 4 → a 4 ≤ 1000 → ∃ t, command 0x22 a s = (some (0, []), t) ∧ t.enven.group = a 0 % 2 ^ 16 ∧
        t.enven.node = a 1 % 2 ^ 16 ∧ t.enven.interval = a 4 ∧ t.enven.on = (bitAt (a 7) 0 == 1) ∧
        ((a 0 % 2 ^ 16 ≠ s.enven.group ∨ bitAt (a 7) 0 ≠ 1) → t.enven.peers = [])) ∧
      (command 0x23 a s = (some (0, []), { s with keeper := { s.keeper with traceCap := a 0 } })) ∧
      (a 0 = 0 → 1360 ≤ a 1 → a 1 ≤ 2000 → 1600 ≤ a 2 → a 2 ≤ 2080 → a 1 ≤ a 2 →
        command 0x30 a s = (some (0, []), { s with keeper := { s.keeper with tLo := a 1, tHi := a 2 } })) ∧
      (a 0 = 1 → 5500 ≤ a 1 → a 1 ≤ 40000 → 6000 ≤ a 2 → a 2 ≤ 44000 → a 1 ≤ a 2 →
        command 0x30 a s = (some (0, []), { s with keeper := { s.keeper with vLo := a 1, vHi := a 2 } })) ∧
      ((1 < a 0 ∨ a 2 < a 1) → command 0x30 a s = (some (2, []), s)) ∧
      (15 < a 0 → command 0x40 a s = (some (2, []), s)) ∧
      (a 0 ≤ 15 → let v := lensBankMeet (fin16 (a 0)) s
        (s.ecc = [] → v = s) ∧
        (Config.flashFails v.free = false → ∃ t, command 0x40 a s = (some (0, [listWord (lensRecord v (fin16 (a 0))) 0x420]), t) ∧
          t = { v with flash := t.flash, free := v.free + 1 } ∧
          flashBytes t (lensSector (a 0)) 1060 = lensRecord v (fin16 (a 0))) ∧
        (Config.flashFails v.free = true → ∃ t, command 0x40 a s = (some (5, []), t) ∧
          t = { v with flash := t.flash, free := v.free + 1 })) ∧
      (a 0 ≤ 15 → poolOk s (a 1) 1060 = true → let b := flashBytes s (lensSector (a 0)) 1060
        (crc32 (b.take 0x420) ≠ listWord b 0x420 → command 0x41 a s = (some (11, []), s)) ∧
        (crc32 (b.take 0x420) = listWord b 0x420 → ∃ t, command 0x41 a s = (some (0, [listWord b 0]), t) ∧
          t = { s with mem := t.mem, ecc := t.ecc } ∧ poolBytes t (a 1) 1060 = b)) ∧
      (let held := (List.range 1792).filterMap (logNumber s)
       (held = [] → command 0x50 a s = (some (0, [0, 0, 0]), s)) ∧
       (held ≠ [] → ∃ lo hi, command 0x50 a s = (some (0, [held.length, lo, hi]), s) ∧ lo ∈ held ∧ hi ∈ held ∧
         ∀ n ∈ held, lo ≤ n ∧ n ≤ hi)) ∧
      (poolOk s (a 1) 0x840 = true → ((∀ i, i < 1792 → logNumber s i ≠ some (a 0)) → command 0x51 a s = (some (11, []), s)) ∧
        ((∃ i, i < 1792 ∧ logNumber s i = some (a 0)) → ∃ t, command 0x51 a s = (some (0, [0x840]), t) ∧
          t = { s with mem := t.mem, ecc := t.ecc } ∧ poolBytes t (a 1) 0x840 = flashBytes s (incSector (a 0)) 0x840)) ∧
      (getF s .mb Mb.KS_DBG_LOGERASE = 0 → command 0x52 a s = (some (4, []), s)) ∧
      (getF s .mb Mb.KS_DBG_LOGERASE = 1 → ∃ r t, command 0x52 a s = (some (r, []), t) ∧
        t = { s with flash := t.flash, free := s.free + 1 } ∧
        (Config.flashFails s.free = false → r = 0 ∧
          ∀ x, flashByte t x = if 0x900000 ≤ x ∧ x < 0x1000000 then 0xFF else flashByte s x) ∧
        (Config.flashFails s.free = true → r = 5 ∧ t.flash = s.flash)))

/-- From R391 to R397, R401, R402. What the commands 0x60 to 0x82 do, by their numbers in R380: the Tender commands over the slot that
is not in use, the keys, and debug authentication. The model's choices: what a failing flash leaves (log 5), the codes of a slot's state
(log 92), what the commands do where R391 to R397 are silent (log 108, 109), and the opaque hashes and signatures (log 91). -/
def Obligations.UpdateAndDebugCommands : Prop :=
  ∀ (a : Nat → Nat) (s : State),
    let i := inactiveSlot s
    ((slotSize < a 0 → ∃ t, command 0x60 a s = (some (2, []), t) ∧ t = { s with keeper := { s.keeper with lastRes := 2 } }) ∧
      (a 0 ≤ slotSize → slotState s i = 1 → ∃ t, command 0x60 a s = (some (3, []), t) ∧
        t = { s with keeper := { s.keeper with lastRes := 3 } }) ∧
      (a 0 ≤ slotSize → slotState s i ≠ 1 → ∃ r t, command 0x60 a s = (some (r, []), t) ∧ t.keeper.lastRes = r ∧
        (Config.flashFails (schedCancel s).free = false → r = 0 ∧ slotState t i = 1 ∧
          t.keeper.imgLen = a 0 ∧ ∀ x, slotBase i ≤ x → x < slotBase i + slotSize → flashByte t x = 0xFF) ∧
        (Config.flashFails (schedCancel s).free = true → r = 5 ∧ slotState t i = slotState s i))) ∧
    ((slotState s i ≠ 1 → command 0x61 a s = (some (3, []), { s with keeper := { s.keeper with lastRes := 3 } })) ∧
      (slotState s i = 1 → (a 2 % 16 ≠ 0 ∨ 65536 < a 2 ∨ slotSize < a 0 + a 2 ∨ poolOk s (a 1) (a 2) = false) →
        command 0x61 a s = (some (2, []), { s with keeper := { s.keeper with lastRes := 2 } })) ∧
      (slotState s i = 1 → a 2 % 16 = 0 → a 2 ≤ 65536 → a 0 + a 2 ≤ slotSize → poolOk s (a 1) (a 2) = true →
        let u := poolMeet (a 1) (a 2) s
        (s.ecc = [] → u = s) ∧
        (crc32 (poolBytes s (a 1) (a 2)) ≠ a 3 →
          command 0x61 a s = (some (7, []), { u with keeper := { u.keeper with lastRes := 7 } })) ∧
        (crc32 (poolBytes s (a 1) (a 2)) = a 3 → ∃ r t, command 0x61 a s = (some (r, []), t) ∧
          t = { u with flash := t.flash, free := u.free + 1, keeper := { u.keeper with lastRes := r } } ∧
          (Config.flashFails u.free = false → r = 0 ∧ flashBytes t (slotBase i + a 0) (a 2) = poolBytes s (a 1) (a 2)) ∧
          (Config.flashFails u.free = true → r = 5)))) ∧
    ((slotState s i ≠ 1 → command 0x62 a s = (some (3, []), { s with keeper := { s.keeper with lastRes := 3 } })) ∧
      (slotState s i = 1 → imgCheck s i s.keeper.imgLen = none →
        ∃ t, command 0x62 a s = (some (0, [imgLevel s i, imgVersion s i]), t) ∧ slotState t i = 2) ∧
      (∀ n, slotState s i = 1 → imgCheck s i s.keeper.imgLen = some n →
        ∃ t, command 0x62 a s = (some (if n = 3 then 8 else 6, []), t) ∧ slotState t i = 3 ∧ t.keeper.failCheck = n)) ∧
    (fwRun s = true →
      ((2 ^ 16 ≤ a 1 ∨ 1000000000 ≤ a 2 ∨ 60 < a 4) →
        command 0x63 a s = (some (2, []), { s with keeper := { s.keeper with lastRes := 2 } })) ∧
      (a 1 < 2 ^ 16 → a 2 < 1000000000 → a 4 ≤ 60 →
        let at_ := (a 0 + a 1 * 2 ^ 32) * 1000000000 + a 2
        let r := schedule at_ (bitAt (a 3) 1 == 1) (a 4) (schedCancel s)
        ∃ ws t, command 0x63 a s = (some (r.1, ws), t) ∧ t.keeper.lastRes = r.1 ∧
          (r.1 ≠ 0 → ws = [] ∧ t = { r.2.2 with keeper := { r.2.2.keeper with lastRes := r.1 } }) ∧
          (r.1 = 0 → ws = [r.2.1] ∧ t.keeper.sched = r.2.2.keeper.sched)) ∧
      (∃ t, command 0x64 a s = (some (0, []), t) ∧ t.keeper.sched = none ∧ t.keeper.lastRes = 0) ∧
      (∀ j, activeSlot s = some j → slotState s j = 4 → ∃ t, command 0x65 a s = (some (0, []), t) ∧ slotState t j = 5 ∧
        getF t .mb Mb.KS_STATE_TRIAL = 0 ∧ getF t .mb Mb.KS_TRIAL = 0 ∧ t.keeper.keptEngines = [] ∧
        (s.pwr.hold = false → ∀ k ∈ s.keeper.keptEngines, owner s (.le k) = 9 → owner t (.le k) = 0) ∧
        (s.pwr.hold = true → ∀ k ∈ s.keeper.keptEngines, k ∈ t.keeper.handDue ∧ owner t (.le k) = owner s (.le k))) ∧
      ((∀ j, activeSlot s = some j → slotState s j ≠ 4) →
        command 0x65 a s = (some (3, []), { s with keeper := { s.keeper with lastRes := 3 } }))) ∧
    (command 0x66 a s = (some (0, [s.keeper.slotA + s.keeper.slotB * 2 ^ 8, s.keeper.lastRes, s.keeper.failCheck,
      s.keeper.lastLate, s.keeper.acks]), s)) ∧
    ((slotState s i ≠ 2 → command 0x67 a s = (some (3, []), { s with keeper := { s.keeper with lastRes := 3 } })) ∧
      (slotState s i = 2 → let t := tenderActivate i (schedCancel s)
        command 0x67 a s = (some (t.keeper.lastRes, []), t))) ∧
    (fwRun s = true →
      ((3 < a 0 ∨ poolOk s (a 1) 64 = false) → command 0x70 a s = (some (2, []), s)) ∧
      (a 0 ≤ 3 → poolOk s (a 1) 64 = true → let n := fin4 (a 0)
        ((s.keeper.keys[n]).isSome = true → command 0x70 a s = (some (3, []), s)) ∧
        (s.keeper.keys[n] = none → let u := poolMeet (a 1) 64 s
          command 0x70 a s = (some (0, []), { u with keeper := { u.keeper with
            keys := u.keeper.keys.set n (some (Config.sha256 (poolBytes s (a 1) 64), false)) } }))) ∧
      (3 < a 0 → command 0x71 a s = (some (2, []), s)) ∧
      (∀ h, a 0 ≤ 3 → s.keeper.keys[fin4 (a 0)] = some (h, false) →
        ((keysLeft s).length ≤ 1 → command 0x71 a s = (some (3, []), s)) ∧
        (1 < (keysLeft s).length → command 0x71 a s = (some (0, []), { s with keeper := { s.keeper with
          keys := s.keeper.keys.set (fin4 (a 0)) (some (h, true)) } })))) ∧
    (s.keeper.lockAt ≠ none → command 0x80 a s = (some (4, []), s)) ∧
    (s.keeper.lockAt = none → let n := BitVec.ofNat 256 (freeVal s)
      command 0x80 a s = (some (0, nonceWords n),
        { s with free := s.free + 1, keeper := { s.keeper with nonce := some (n, s.elapsed) } })) ∧
    ((7 < a 0 ∨ poolOk s (a 1) 64 = false) → command 0x81 a s = (some (2, []), s)) ∧
    (a 0 ≤ 7 → poolOk s (a 1) 64 = true → dbgAccepted s a = true →
      let v := poolMeet (a 1) 64 s
      ∃ t, command 0x81 a s = (some (0, []), t) ∧ t = { v with regs := t.regs, keeper := t.keeper } ∧
        t.keeper.grant = a 0 ∧ t.keeper.nonce = none ∧ t.keeper.failures = 0 ∧
        t.keeper.grantLeft = (if a 2 = 0 then none else some (a 2)) ∧ getF t .mb Mb.KS_DBG_LOGERASE = bitAt (a 0) 2) ∧
    (a 0 ≤ 7 → poolOk s (a 1) 64 = true → dbgAccepted s a = false →
      let v := poolMeet (a 1) 64 s
      ∃ u, command 0x81 a s = (some (4, []), raiseAlarm 0x0E20 mbSrc 0 false u) ∧ u = { v with keeper := u.keeper } ∧
        (s.ecc = [] → v = s) ∧
        u.keeper.nonce = none ∧ u.keeper.grant = s.keeper.grant ∧
        (s.keeper.failures + 1 < 3 → u.keeper.failures = s.keeper.failures + 1 ∧ u.keeper.lockAt = s.keeper.lockAt) ∧
        (3 ≤ s.keeper.failures + 1 → u.keeper.failures = 0 ∧ u.keeper.lockAt = some s.elapsed)) ∧
    (∃ t, command 0x82 a s = (some (0, []), t) ∧ t = { s with regs := t.regs, keeper := t.keeper } ∧ t.keeper.grant = 0 ∧
      getF t .mb Mb.KS_DBG_LOGERASE = 0 ∧
      getF t .mb Mb.KS_DBG_FREEZE = bitOf (flag s .mb Mb.KS_STATE_DBGSTRAP) ∧
      getF t .mb Mb.KS_DBG_DAP = bitOf (flag s .mb Mb.KS_STATE_DBGSTRAP))

/-- From R50, R348, R364, R378, R384, R385, R393, R394, R401, R402, R418. Rows SENSOR_SAMPLE, SENSOR_CONDITION_CHANGE, SENSOR_STALE, KEEPER_ALIVE_TICK,
ALIVE_MS_ADVANCE, PTP_MESSAGE_RECEIVED, DEBUG_GRANT_EXPIRY and DBG_LOCKOUT_END, each due. A sample is taken every millisecond; a
condition begins after three samples beyond its threshold and ends after three back inside. -/
def Obligations.KeeperEvents : Prop :=
  (∀ (r : Readings) (s : State), keeperRuns s = true → 1000000 ≤ sinceNs s s.keeper.sampleAt →
    ∃ t, exec (.sensorSample r) s = .next t ∧ t = { s with regs := t.regs, keeper := t.keeper } ∧
      t.keeper.sampleAt = s.elapsed ∧ t.keeper.sampleT = timeNs s ∧ getF t .sns Sns.TIME = timeNs s ∧
      getF t .sns Sns.STATUS_STALE = 0 ∧ t.keeper.sample[0] = ofSigned 16 (satS 16 (Readings.tj r)) ∧
      t.keeper.sample[5] = satU 16 r.vin ∧
      (∀ n : Fin 16, getF t (.exg n) Exg.VEXC = satU 16 r.vexc) ∧
      ∀ c : SensorCond,
        t.keeper.beyond[condIndex c] = (if condBeyond s r c then min 3 (s.keeper.beyond[condIndex c] + 1) else 0) ∧
        t.keeper.inside[condIndex c] = (if condInside s r c then min 3 (s.keeper.inside[condIndex c] + 1) else 0)) ∧
  (∀ (c : SensorCond) (s : State), keeperRuns s = true →
    (getF s .sns (condFld c) = 1 → 3 ≤ s.keeper.inside[condIndex c] →
      exec (.sensorConditionChange c) s = .next (alarmGone (condCode c) snsSrc (setF .sns (condFld c) 0 s))) ∧
    (getF s .sns (condFld c) = 1 → s.keeper.inside[condIndex c] < 3 → exec (.sensorConditionChange c) s = .next s) ∧
    (getF s .sns (condFld c) = 0 → s.keeper.beyond[condIndex c] < 3 →
      (condKept s c = false ∨ s.keeper.inside[condIndex c] < 3 → exec (.sensorConditionChange c) s = .next s) ∧
      (condKept s c = true → 3 ≤ s.keeper.inside[condIndex c] →
        exec (.sensorConditionChange c) s = .next (alarmGone (condCode c) snsSrc s))) ∧
    (getF s .sns (condFld c) = 0 → 3 ≤ s.keeper.beyond[condIndex c] →
      let u := raiseAlarm (condCode c) snsSrc (condGrade c) true (setF .sns (condFld c) 1 s)
      exec (.sensorConditionChange c) s = .next (if c = .vinlo then autoRescueEnter (incFlush false u) else u))) ∧
  (∀ s : State, keeperRuns s = true → 5000000 < sinceNs s s.keeper.sampleAt →
    ∃ t, exec .sensorStale s = .next t ∧ t = { s with regs := t.regs } ∧ getF t .sns Sns.STATUS_STALE = 1 ∧
      RegsBut [(.sns, Sns.STATUS_STALE)] s t) ∧
  (∀ s : State, keeperRuns s = true → justAt s 10000000 = true → s.time.now / 10000000 ≠ s.keeper.aliveAt / 10000000 →
    ∃ t, exec .keeperAliveTick s = .next t ∧ t = { s with regs := t.regs, keeper := { s.keeper with aliveAt := s.time.now } } ∧
      getF t .hp Hp.ALIVE_KCNT = (getF s .hp Hp.ALIVE_KCNT + 1) % 2 ^ 16 ∧ RegsBut [(.hp, Hp.ALIVE_KCNT)] s t) ∧
  (∀ s : State, live s .hp = true → justAt s 1000000 = true → s.time.now / 1000000 ≠ s.hp.msAt / 1000000 →
    ∃ t, exec .aliveMsAdvance s = .next t ∧ t = { s with regs := t.regs, hp := { s.hp with msAt := s.time.now } } ∧
      getF t .hp Hp.ALIVE_MS = (getF s .hp Hp.ALIVE_MS + 1) % 2 ^ 16 ∧ RegsBut [(.hp, Hp.ALIVE_MS)] s t) ∧
  (∀ (p : Fin 2) (st : Fin 16) (cls : BitVec 8) (utcValid : Bool) (utc : BitVec 16) (s : State), ptpPort s p = true →
    ∃ t, exec (.ptpMessageReceived (.announce p st cls utcValid utc)) s = .next t ∧ t = { s with regs := t.regs } ∧
      getF t .mb (if p = 0 then Mb.KS_PTP_PS0 else Mb.KS_PTP_PS1) = st.val ∧
      (let master := (getF t .mb Mb.KS_PTP_PS0 = 6 ∨ getF t .mb Mb.KS_PTP_PS1 = 6) ∧ getF t .mb Mb.KS_PTP_PS0 ≠ 9 ∧
         getF t .mb Mb.KS_PTP_PS1 ≠ 9
       (master → getF t .mb Mb.KS_PTP_GMCLASS = 248) ∧ (¬ master → getF t .mb Mb.KS_PTP_GMCLASS = cls.toNat)) ∧
      getF t .mb Mb.KS_PTP_UTCV = bitOf utcValid ∧
      getF t .mb Mb.KS_UTC = (if utcValid then utc.toNat else getF s .mb Mb.KS_UTC)) ∧
  (∀ (p : Fin 2) (ns : Int) (s : State), ptpPort s p = true →
    ∃ t, exec (.ptpMessageReceived (.offset p ns)) s = .next t ∧ t = { s with regs := t.regs } ∧
      getI t .mb Mb.KS_OFFSET = satS 32 ns ∧ RegsBut [(.mb, Mb.KS_OFFSET)] s t) ∧
  (∀ (p : Fin 2) (set : Bool) (d : PtpData) (s : State), ptpPort s p = true →
    let note := fun (a : NetAnswer) => { s with eth := s.eth.set p { s.eth[p] with answers := a :: (s.eth[p]).answers.take 15 } }
    (set = true → exec (.ptpMessageReceived (.management p set d)) s = .next (note .ptpRefused)) ∧
    (set = false → d ≠ .other → exec (.ptpMessageReceived (.management p set d)) s = .next (note (.ptpData d))) ∧
    (set = false → d = .other → exec (.ptpMessageReceived (.management p set d)) s = .next s) ∧
    exec (.ptpMessageReceived (.other p)) s = .next s) ∧
  (∀ s : State, keeperRuns s = true → s.keeper.grant ≠ 0 → s.keeper.grantLeft = some 0 →
    ∃ t, exec .debugGrantExpiry s = .next t ∧ t = { s with regs := t.regs, keeper := t.keeper } ∧ t.keeper.grant = 0 ∧
      getF t .mb Mb.KS_DBG_LOGERASE = 0 ∧ getF t .mb Mb.KS_DBG_FREEZE = getF s .mb Mb.KS_STATE_DBGSTRAP ∧
      getF t .mb Mb.KS_DBG_DAP = getF s .mb Mb.KS_STATE_DBGSTRAP) ∧
  (∀ (at_ : Nat) (s : State), keeperRuns s = true → s.keeper.lockAt = some at_ → 60000000000 ≤ sinceNs s at_ →
    exec .dbgLockoutEnd s = .next { s with keeper := { s.keeper with lockAt := none } })

/-- From R393, R394, R396. Rows TENDER_ARM, TRIAL_SAVE and TRIAL_EXPIRY, each due. A schedule within 1 s of its target arms its slot; the trial's
seconds are saved; a trial that runs out is rolled back, whether its firmware has started or not: the slot on trial fails, and the
other one runs as ACTIVE where it passes the checks, else the Keeper returns to ROM code. The clock of the trial (log 111), the
writes of the boot record (log 110), what a failed check does (log 108) and a trial found run out at bring-up (log 97) are the
model's choices. -/
def Obligations.TrialsAndSchedules : Prop :=
  (∀ (c : Sched) (s : State), fwRun s = true → s.keeper.sched = some c → c.armed = false →
    (c.target ≤ s.time.now → exec .tenderArm s = .next (schedPassed c s).2) ∧
    (s.time.now < c.target → c.target ≤ s.time.now + 1000000000 → exec .tenderArm s = .next (armActivate c s)) ∧
    (s.time.now + 1000000000 < c.target → exec .tenderArm s = .next s)) ∧
  (∀ s : State, awake s = true → getF s .mb Mb.KS_STATE_TRIAL = 1 → getF s .mb Mb.KS_TRIAL + 10 ≤ trialSaved s →
    ∃ t, exec .trialSave s = .next t ∧ t = { s with flash := t.flash, keeper := t.keeper } ∧
      t.keeper.bootSeq = (s.keeper.bootSeq + 1) % 2 ^ 32 ∧ trialSaved t = getF s .mb Mb.KS_TRIAL) ∧
  (∀ (i : Nat) (s : State), clocked s .system = true → regionReset s .system = false → getF s .mb Mb.KS_STATE_TRIAL = 1 →
    getF s .mb Mb.KS_TRIAL = 0 → activeSlot s = some i →
    let j := otherSlot i
    ∃ u, u = raiseAlarm 0x0E03 mbSrc 2 false (setSlot i 3 s) ∧ slotState u i = 3 ∧
      (imgRepeat u j = none →
        ∃ v, exec .trialExpiry s = .next (handEngines (loadEngines j (regionRequest .system (bootWrite j v)))) ∧
          getF v .mb Mb.KS_STATE_RUNSLOT = j ∧ getF v .mb Mb.KS_STATE_TRIAL = 0 ∧ getF v .mb Mb.KS_TRIAL = 0 ∧
          slotState v j = 5 ∧ slotState v i = 3) ∧
      (∀ n, imgRepeat u j = some n → ∃ v, exec .trialExpiry s = .next (romReturn v) ∧ slotState v i = 3 ∧
        slotState v j = 3 ∧ v.keeper.failCheck = n))

/-! ### Enven (chapters 14 to 16) -/

/-- From R348, R370 to R374, R380, R397, R399. Rows HEARTBEAT_SEND, ENVEN_HEARTBEAT, ENVEN_ALARM, ENVEN_EVENT, ENVEN_TRACE, ENVEN_DATA, ENVEN_ACTIVATE, ENVEN_LEVEL,
ENVEN_ACK, ACTIVATE_RESEND, PEER_LOST, LEVEL_RISE and KEEPER_FORWARD. A message that is not for the device, or was taken in the
last 2 s, changes nothing; one at a level that is not read is reported; the others are remembered, acknowledged where they
ask for it, and act by their type. Of the records that wait, alarm records go first, those of its private path before the
changes that the Keeper reads from the table instead (whose records log 126 chooses); software records of a queue named for
forwarding go as DATA, which counts as event class. The firmware's first heartbeat waits for no interval. The model's choices: the byte
order of a payload (log 89), a header that is not read (log 90), the sequence number of a repeat (log 94), what ENVEN_SET and a restart
forget (log 81, 98), a cancelled schedule (log 108), and the heads of alarm-class queues (log 159). -/
def Obligations.EnvenRows : Prop :=
  (∀ s : State, fwRun s = true → s.enven.on = true →
    (s.enven.hbFirst = true ∨ s.enven.interval * 1000000 ≤ sinceNs s s.enven.hbAt) →
    ∃ t, exec .heartbeatSend s = .next t ∧ t = { s with enven := t.enven } ∧ t.enven.hbAt = s.elapsed ∧ t.enven.hbFirst = false ∧
      t.enven.seq = (s.enven.seq + 1) % 2 ^ 32 ∧ t.enven.sent = envenHeader t.enven.seq 1
        (getF s .time Time.STATUS_HOLDOVER * 4 + getF s .time Time.STATUS_DISC * 8) (heartbeatPayload s) s
        :: s.enven.sent.take 15) ∧
  (∀ m : EnvenOut, (envenBytes m).take 6 = [0x45, 0x4E, 1, m.type % 256, m.flevel % 256, m.mlevel % 256] ∧
    (envenBytes m).length = 32 + m.payload.length ∧ (envenBytes m).drop 32 = m.payload ∧
    beNat (((envenBytes m).drop 14).take 2) = m.payload.length % 2 ^ 16 ∧
    beNat (((envenBytes m).drop 16).take 4) = m.seq % 2 ^ 32) ∧
  (∀ (m : EnvenMsg) (s : State), (envenMine m s = false ∨ m.magic ≠ 0x454E ∨ m.hver ≠ 1 ∨ 1400 < m.plen.toNat ∨
      m.plen.toNat ≠ m.payload.length) →
    ∀ i ∈ [Instr.envenHeartbeat m, .envenAlarm m, .envenEvent m, .envenTrace m, .envenData m, .envenActivate m,
      .envenLevel m, .envenAck m], exec i s = .next s) ∧
  (∀ (m : EnvenMsg) (s : State), envenMine m s = true → m.type = 1 →
    ∃ t, exec (.envenHeartbeat m) s = .next t ∧ ∃ p ∈ t.enven.peers, p.node = m.node.toNat ∧ p.chip = m.chip.toNat ∧
      p.flevel = m.flevel.toNat ∧ p.lost = false ∧ p.seenAt = s.elapsed) ∧
  (∀ (m : EnvenMsg) (s : State), envenMine m s = true → levelOk m s = false → 2 ≤ m.type.toNat → m.type.toNat ≤ 8 →
    ∀ i ∈ [Instr.envenAlarm m, .envenEvent m, .envenTrace m, .envenData m, .envenActivate m, .envenLevel m, .envenAck m],
      exec i s = .next (envenOff m s)) ∧
  (∀ (m : EnvenMsg) (s : State), envenMine m s = true → levelOk m s = true →
    (∀ p ∈ ([(Instr.envenAlarm m, 2), (.envenEvent m, 3), (.envenTrace m, 4), (.envenLevel m, 7)] : List (Instr × BitVec 8)),
      m.type = p.2 → ∃ t, exec p.1 s = .next t ∧ t = envenTake m s ∧ t = { s with enven := t.enven } ∧
        (m.group.toNat, m.node.toNat, m.chip.toNat, m.seq.toNat, s.elapsed) ∈ t.enven.recent ∧
        (bitAt m.flags.toNat 0 = 0 → t.enven.sent = s.enven.sent) ∧
        (bitAt m.flags.toNat 0 = 1 → t.enven.seq = (s.enven.seq + 1) % 2 ^ 32 ∧
          t.enven.sent = envenHeader t.enven.seq 8 (2 + getF s .time Time.STATUS_HOLDOVER * 4
            + getF s .time Time.STATUS_DISC * 8) (be32 m.seq.toNat) s :: s.enven.sent.take 15)) ∧
    (m.type = 5 → exec (.envenData m) s = .next (takeData m (envenTake m s))) ∧
    (m.type = 8 → exec (.envenAck m) s = .next (takeAck m (envenTake m s))) ∧
    (m.type = 6 → 26 ≤ m.payload.length →
      let u := envenTake m s
      let i := inactiveSlot s
      let num := fun (a n : Nat) => beNat (((m.payload.drop a).take n).map (·.toNat))
      (slotState s i ≠ 2 ∨ digestPrefix s i ≠ (m.payload.drop 12).take 8 →
        exec (.envenActivate m) s = .next (raiseAlarm 0x0E05 mbSrc 0 false u)) ∧
      (slotState s i = 2 → digestPrefix s i = (m.payload.drop 12).take 8 →
        (bitAt (num 10 1) 1 = 1 → exec (.envenActivate m) s = .next (schedCancel u)) ∧
        (bitAt (num 10 1) 1 = 0 → exec (.envenActivate m) s
          = .next (schedule (num 0 6 * 1000000000 + num 6 4) (bitAt (num 10 1) 0 == 1) (num 11 1) (schedCancel u)).2.2)))) ∧
  (∀ (p : List Nat) (n at_ q : Nat) (s : State), fwRun s = true → s.enven.on = true →
    s.enven.activate = some (p, n, at_, q) → n < 3 → 100000000 ≤ sinceNs s at_ →
    s.enven.peers.any (fun x => !x.lost && !x.acked) = true →
    ∃ t, exec .activateResend s = .next t ∧ t = { s with enven := t.enven } ∧ t.enven.seq = s.enven.seq ∧
      t.enven.activate = some (p, n + 1, s.elapsed, q) ∧
      t.enven.sent = envenHeader q 6 (1 + getF s .time Time.STATUS_HOLDOVER * 4 + getF s .time Time.STATUS_DISC * 8) p s
        :: s.enven.sent.take 15) ∧
  (∀ (node : BitVec 16) (chip : Fin 4) (p : Peer) (s : State), fwRun s = true → s.enven.on = true → p ∈ s.enven.peers →
    p.node = node.toNat → p.chip = chip.val → p.lost = false → 3 * p.interval * 1000000 ≤ sinceNs s p.seenAt →
    ∃ u, exec (.peerLost node chip) s = .next (levelUpdate (raiseAlarm 0x0F01 (peerSrc node.toNat chip.val) 1 true u)) ∧
      u = { s with enven := u.enven } ∧ { p with lost := true } ∈ u.enven.peers) ∧
  (∀ (at_ m : Nat) (s : State), fwRun s = true → s.enven.on = true → s.enven.riseAt = some (at_, m) → m < 256 →
    30000000000 + timeSub s ≤ sinceNs s at_ → timeSec s % 10 = 0 →
    ∃ t, exec .levelRise s = .next t ∧ t = { s with regs := t.regs, enven := t.enven } ∧ getF t .mb Mb.KS_LEVEL_COMPAT = m ∧
      t.enven.riseAt = none ∧ RegsBut [(.mb, Mb.KS_LEVEL_COMPAT)] s t) ∧
  (∀ s : State, fwRun s = true → s.enven.on = true →
    let u := if s.keeper.fwdAt = timeSec s then s
      else { s with keeper := { s.keeper with fwdAt := timeSec s, fwdAlarms := 0, fwdBits := 0 } }
    let alarms := (s.keeperPath ≠ [] ∨ s.keeperMiss ≠ []) ∧ u.keeper.fwdAlarms < 1000
    let one := { u.keeper with fwdAlarms := u.keeper.fwdAlarms + 1 }
    let soft := fun (q : Fin 16) (e : QEntry) => bitAt s.enven.fwd q.val == 1 && decide (0x80 ≤ bits e.w0.toNat 31 24)
    let ofClass := fun (c : Nat) (q : Fin 16) => getF u (.q q) Q.CFG_CLASS == c
    let event := forwardQueue u (fun q => ofClass 0 q || soft q (oldest u q))
    let trace := forwardQueue u (fun q => ofClass 1 q && !soft q (oldest u q))
    let send := fun (ty : Nat) (es : List QEntry) (s : State) => if es = [] then s else envenSend ty 0 (recordBytes es) s
    (alarms → s.keeperPath ≠ [] → exec .keeperForward s = .next (envenSend 2 0 (recordBytes ((s.keeperPath.take 87).map (·.entry)))
      { u with keeperPath := s.keeperPath.drop 87, keeper := one })) ∧
    (alarms → s.keeperPath = [] → exec .keeperForward s = .next (envenSend 2 0
      (recordBytes ((s.keeperMiss.take 87).map (tableRecord u))) { u with keeperMiss := s.keeperMiss.drop 87, keeper := one })) ∧
    (¬ alarms → ∀ q, event = some q → let r := keeperTake (if ofClass 0 q then fun _ => true else soft q) q 87 u
      exec .keeperForward s = .next (send 3 (r.1.filter (fun e => !soft q e)) (send 5 (r.1.filter (soft q)) r.2))) ∧
    (¬ alarms → event = none →
      let room := (u.keeper.traceCap * 1000 - u.keeper.fwdBits) / 128
      (∀ q, trace = some q → room ≠ 0 → let r := keeperTake (fun e => !soft q e) q (min 87 room) u
        let v := { r.2 with keeper := { r.2.keeper with fwdBits := r.2.keeper.fwdBits + 128 * r.1.length } }
        exec .keeperForward s = .next (send 4 (r.1.filter (fun e => !soft q e)) (send 5 (r.1.filter (soft q)) v))) ∧
      ((trace = none ∨ room = 0) → exec .keeperForward s = .next u)) ∧
    (∀ (ty fl : Nat) (p : List Nat), ∃ t, envenSend ty fl p s = t ∧ t = { s with enven := t.enven } ∧
      t.enven.seq = (s.enven.seq + 1) % 2 ^ 32 ∧
      t.enven.sent = envenHeader t.enven.seq ty (fl + getF s .time Time.STATUS_HOLDOVER * 4 + getF s .time Time.STATUS_DISC * 8)
        p s :: s.enven.sent.take 15))

/-! ### Power, bring-up and modes (chapter 17) -/

/-- From R386, R401, R405, R408, R410, R432. Rows VIN_RISE, BROWNOUT, RESET_N_ASSERT, RESET_N_RELEASE, POWER_GOOD, PLL_LOCKED, PLL_LOCK_LOST, AON_XTAL_SWITCH and ROM_BOOT_DONE.
Power and RESET_N take away every register and all memory but the boot flash and the fused keys; bring-up then walks its stages
in order. VEXC and SAFE_N are then met as they stand. A lock is lost in DORMANT too, and a PLL without REFCLK does not lock; REFOK
clears where REFCLK is absent, which no row says (log 153). The stages below 4 (log 114), the values at power-on (log 3 to 5, 23) and
the places of JTAG at reset (log 23) are the model's choices. -/
def Obligations.PowerOnAndStages : Prop :=
  (∀ (i : Instr) (s : State), ((∃ mv, i = .vinRise mv ∧ s.pwr.vinOk = false ∧ 5600 < mv) ∨ (∃ mv, i = .brownout mv) ∨
      (i = .resetNAssert ∧ s.pwr.resetLow = false)) →
    ∃ t, exec i s = .next t ∧ t.regs = [] ∧ t.mem = [] ∧ t.flash = s.flash ∧ t.keeper.keys = s.keeper.keys ∧
      t.pwr.stage = 1 ∧ t.pwr.good = false ∧ t.pending = s.pending ∧ t.alarms = State.reset.alarms ∧
      t.time = State.reset.time ∧ t.pwr.vexcLow = s.pwr.vexcLow) ∧
  (∀ (mv : Nat) (s : State), s.pwr.vinOk = false → 5600 < mv →
    ∃ t, exec (.vinRise mv) s = .next t ∧ t.pwr.vinOk = true) ∧
  (∀ (mv : Nat) (s : State), ∃ t, exec (.brownout mv) s = .next t ∧ t.pwr.vinOk = false) ∧
  (∀ s : State, ∃ t, exec .resetNAssert s = .next t ∧ t.pwr.resetLow = true ∧ t.ec.jtagIr = s.ec.jtagIr) ∧
  (∀ (dbg : Bool) (s : State), s.pwr.resetLow = true →
    ∃ t, exec (.resetNRelease dbg) s = .next t ∧
      t = { s with regs := t.regs, pwr := { s.pwr with resetLow := false, strap := dbg } } ∧
      (dbg = false → t.regs = s.regs) ∧
      (dbg = true → getF t .mb Mb.KS_STATE_DBGSTRAP = 1 ∧ getF t .mb Mb.KS_DBG_FREEZE = 1 ∧ getF t .mb Mb.KS_DBG_DAP = 1 ∧
        getF t .mb Mb.KS_DBG_REMAIN = 0xFFFF)) ∧
  (∀ s : State, s.pwr.vinOk = true → s.pwr.resetLow = false → s.pwr.stage ≤ 2 →
    exec .powerGood s = .next { s with pwr := { s.pwr with good := true, stage := 3 } }) ∧
  (∀ s : State, s.pwr.stage = 3 →
    ∃ u, exec .pllLocked s = .next (vexcFollow (safeResume u)) ∧
      u = { s with regs := u.regs, pwr := { s.pwr with stage := 4, pllDead := false } } ∧
      getF u .pwr Pwr.CLK_PLLLOCK = 1 ∧ getF u .pwr Pwr.CLK_REFOK = 1 ∧ getF u .mb Mb.KS_STATE_STAGE = 4 ∧
      getF u .mb Mb.KS_STATE_RUNSLOT = 3) ∧
  (∀ s : State, frozen s = false → (getF s .pwr Pwr.CLK_PLLLOCK = 1 ∨ (s.pwr.pllDead = false ∧
      (s.pwr.stage = 3 ∨ (dormant s = true ∧ s.pwr.phase = 1)) ∧ Config.refAbsent s.cycle = true)) →
    ∃ u, exec .pllLockLost s = .next (raiseAlarm 0x1001 ecSrc 3 false u) ∧
      u = { s with regs := u.regs, pwr := { s.pwr with pllDead := true } } ∧
      getF u .pwr Pwr.CLK_PLLLOCK = 0 ∧
      getF u .pwr Pwr.CLK_REFOK = (if Config.refAbsent s.cycle then 0 else getF s .pwr Pwr.CLK_REFOK)) ∧
  (∀ s : State, s.pwr.vinOk = true →
    ∃ t, exec .aonXtalSwitch s = .next t ∧ t = { s with regs := t.regs } ∧ getF t .pwr Pwr.CLK_AONXTAL = 1 ∧
      RegsBut [(.pwr, Pwr.CLK_AONXTAL)] s t) ∧
  (∀ s : State, s.pwr.stage = 4 →
    ∃ t, exec .romBootDone s = .next t ∧
      t = { s with regs := t.regs, keeper := t.keeper, pwr := { s.pwr with stage := 5 } } ∧
      getF t .mb Mb.KS_STATE_STAGE = 5 ∧
      (bootNewest s = none → t.keeper = s.keeper) ∧
      (∀ a, bootNewest s = some a → t.keeper.slotA = flashWord s (a + 16) % 8 ∧
        t.keeper.slotB = flashWord s (a + 20) % 8 ∧ t.keeper.bootSeq = flashWord s (a + 4) ∧
        t.keeper.boots = bits (flashWord s (a + 8)) 7 4 ∧ getF t .mb Mb.KS_STATE_TRIAL = bitAt (flashWord s (a + 8)) 2))

/-- From R22, R390, R393, R398, R410 to R414. Rows BEACON_SERVICE_START, FIRMWARE_STARTED and BRINGUP_STAGE7. As BEACON service begins every block that
the Keeper holds, but the engines, the BEACON blocks and those it keeps, goes to the host, and the settings of the flash are
loaded. The firmware of the slot in use starts where it passes its checks. Stage 7 applies the configuration, starts the
engines of the image, enters INITMODE and hands the engines over: while the image is on trial, but for those it has started
(which engines go then: the model's choice, log 149). Engines wait for the release of a device that the host holds at BEACON. The
settings read as BEACON begins (log 112), the modes from stage 7 on (log 103) and TND_SWITCH's stage (log 86) are the model's choices. -/
def Obligations.BringUpToService : Prop :=
  (∀ s : State, s.pwr.stage = 5 →
    ∃ u v, exec .beaconServiceStart s = .next (beaconLoad v) ∧
      v = setF .fe Fe.STATUS_SCHED 3
        { u with fe := { u.fe with served := 15 }, lanes := u.lanes.map (fun l => { l with inv := 4, clear := true }) } ∧
      u.pwr = { s.pwr with stage := 6, beacon := flashBeacon s } ∧ getF u .mb Mb.KS_STATE_STAGE = 6 ∧
      ∀ b : Blk, owner u b = (if blkFixed b = true ∨ b ∈ beaconBlks ∨ (∃ k, b = .le k) ∨ owner s b ≠ 9 then owner s b else 0)) ∧
  (∀ s : State, awake s = true → s.pwr.romOnly = false → regionReset s .system = false →
    getF s .mb Mb.KS_STATE_FWRUN = 0 →
    (s.pwr.stage = 6 → activeSlot s = none → exec .firmwareStarted s = .next (romReturn s)) ∧
    (∀ i, s.pwr.stage = 6 → activeSlot s = some i → slotState s i = 5 →
      (imgRepeat s i = none → ∃ t, exec .firmwareStarted s = .next t ∧ t = firmwareRun i s ∧ t.pwr.stage = 7 ∧
        getF t .mb Mb.KS_STATE_FWRUN = 1 ∧ getF t .mb Mb.KS_STATE_RUNSLOT = i ∧
        getF t .mb Mb.KS_LEVEL_FLEVEL = imgLevel s i) ∧
      (imgRepeat s i ≠ none → exec .firmwareStarted s = .next (bootOther i s))) ∧
    (∀ i, s.pwr.stage = 6 → activeSlot s = some i → slotState s i = 4 →
      let u := { s with keeper := { s.keeper with boots := s.keeper.boots + 1 } }
      (s.keeper.boots + 1 < 3 → imgRepeat s i = none → exec .firmwareStarted s = .next (firmwareRun i (bootWrite i u))) ∧
      ((3 ≤ s.keeper.boots + 1 ∨ imgRepeat s i ≠ none) →
        exec .firmwareStarted s = .next (bootOther i (raiseAlarm 0x0E03 mbSrc 2 false u)))) ∧
    (∀ i, 7 ≤ s.pwr.stage → activeSlot s = some i →
      (slotState s i ≠ 4 ∨ imgRepeat s i = none → exec .firmwareStarted s = .next (firmwareRun i s)) ∧
      (slotState s i = 4 → imgRepeat s i ≠ none → exec .firmwareStarted s = .next (rollback s)))) ∧
  (∀ (i : Nat) (s : State), s.pwr.stage = 7 → fwRun s = true → s.pwr.hold = false → s.pwr.romOnly = false →
    activeSlot s = some i →
    ∃ t, exec .bringupStage7 s = .next t ∧ t = setStage 8 (initHand i (initEnter (loadEngines i (configApply i s)))) ∧
      t.pwr.stage = 8 ∧ getF t .mb Mb.KS_STATE_STAGE = 7) ∧
  (∀ (i : Nat) (k : Fin 8) (s : State), let t := initHand i s
    (getF s .mb Mb.KS_STATE_TRIAL = 0 → s.pwr.hold = false →
      owner t (.le k) = (if owner s (.le k) = 9 then 0 else owner s (.le k))) ∧
    (getF s .mb Mb.KS_STATE_TRIAL = 0 → s.pwr.hold = true → owner t (.le k) = owner s (.le k) ∧ k ∈ t.keeper.handDue) ∧
    (getF s .mb Mb.KS_STATE_TRIAL = 1 →
      owner t (.le k) = (if owner s (.le k) = 9 ∧ imgStarts s i k = false then 0 else owner s (.le k)) ∧
      (k ∈ t.keeper.keptEngines ↔ owner s (.le k) = 9 ∧ imgStarts s i k = true)))

/-- From R22, R411, R415, R416, R419, R421, R422. Rows MODE_ENTERED, DORMANT_ENTRY, HOST_WAKE and DORMANT_WAKE, each due. A device held at
BEACON does not leave it. The fabric cycle in which DORMANT begins settles its alarms. The synchronising reset of every change (log
83), when SRPEND shows it (log 162), the channels served after a wake (log 85) and the owner of the BEACON blocks then (log 127) are
the model's choices. -/
def Obligations.ModeTransitions : Prop :=
  (∀ s : State, awake s = true → getF s .pwr Pwr.MODE_PEND = 1 → getF s .pwr Pwr.MODE_TARGET ≠ 4 →
    let m := getF s .pwr Pwr.MODE_TARGET
    (modeDue s m = false → exec .modeEntered s = .next s) ∧
    (s.pwr.hold = true → mode s = 3 → exec .modeEntered s = .next s) ∧
    (modeDue s m = true → (s.pwr.hold = false ∨ mode s ≠ 3) → ∃ t, exec .modeEntered s = .next t ∧
      (s.hp.mbMode = none → t = modeEnter m s.pwr.pendMask s) ∧
      (∀ q, s.hp.mbMode = some q → t.hp.mbMode = none ∧ t.hp.mbRes = some (q, 0, [])) ∧
      (mode s ≤ 2 → m ≤ 2 → mode t = m ∧ getF t .pwr Pwr.MODE_PEND = 0 ∧
        t.fe.nextServed = some (servedMask m s.pwr.pendMask) ∧ t.time.srCause = some (max s.pwr.pendAt (s.time.srCause.getD 0))))) ∧
  (∀ s : State, awake s = true → getF s .pwr Pwr.MODE_PEND = 1 → getF s .pwr Pwr.MODE_TARGET = 4 →
    2000000 ≤ sinceNs s s.pwr.pendAt →
    ∃ u, exec .dormantEntry s
        = .next (refreshOutputs (forAll (List.finRange 8) lePause (forAll (List.finRange 16) monAllOff u))) ∧
      u = { alarmTick s with regs := u.regs, pwr := u.pwr, flash := u.flash } ∧
      mode u = 4 ∧ getF u .pwr Pwr.MODE_PEND = 0 ∧ getF u .pwr Pwr.MODE_CHMASK = s.pwr.pendMask % 2 ^ 16 ∧
      getF u .pwr Pwr.CLK_PLLLOCK = 0 ∧ getF u .fe Fe.STATUS_SCHED = 7 ∧ getF u .pwr Pwr.WAKE_HOST = 0 ∧ getF u .pwr Pwr.WAKE_SIGNAL = 0 ∧
      getF u .pwr Pwr.WAKE_CREEP = 0 ∧ getF u .pwr Pwr.SENT_BURSTS = 0 ∧ u.pwr.waking = false ∧
      u.pwr.dormAt = s.aon ∧ u.pwr.sentSet = flashBeacon s) ∧
  (∀ s : State, dormant s = true →
    ∃ t, exec .hostWake s = .next t ∧ t = { s with regs := t.regs, pwr := { s.pwr with waking := true } } ∧
      getF t .pwr Pwr.WAKE_HOST = 1 ∧ RegsBut [(.pwr, Pwr.WAKE_HOST)] s t) ∧
  (∀ s : State, dormant s = true → s.pwr.waking = true →
    let dt := s.aon - s.pwr.dormAt
    let mask := getF s .pwr Pwr.MODE_CHMASK
    let m := wakeMode s
    ∃ u, (let v := timeAdjust ((dt * 1000000000 / 32768 : Nat) : Int) (forAll (List.finRange 64) slotCheck (vexcFollow (safeResume u)))
          let v := srJoin { v with fe := { v.fe with nextServed := some (servedMask m mask) } }
          let v := forAll (List.finRange 8) leUnpause (forAll (List.finRange 16) rcWake v)
          let v := if m = 2 then forAll (List.finRange 2) linkCheck v else v
          exec .dormantWake s = .next (forAll (List.finRange 4) sentAlarm (refreshOutputs v))) ∧
      u = { s with regs := u.regs, time := u.time, exg := s.exg.map (fun x => { x with burst := 0, dev := 0, low := false }),
                   fe := { s.fe with frames := [], auxDue := [] }, pwr := { s.pwr with waking := false, phase := 0 } } ∧
      u.time.now = s.time.now ∧ mode u = m ∧ getF u .fe Fe.STATUS_SCHED = 7 ∧
      getF u .pwr Pwr.CLK_PLLLOCK = (if s.pwr.pllDead then 0 else 1) ∧ getF u .time Time.STATUS_DISC = 1 ∧
      getF u .pwr Pwr.DORMT = min (2 ^ 32 - 1) (dt * 1000 / 32768))

/-! ### Errors, region resets and the safe state (chapter 18) -/

/-- From R341, R425, R427 to R435. Rows REGION_BUS_ERROR, REGION_STARVE, FORCE_FATAL, REGION_RESET_REQUEST, REGION_RESET_DONE, SAFE_N_ASSERT,
SAFE_N_RELEASE and PORT_CELL_DRIVE_MISMATCH. A FATAL latches with its code, source and time and begins the chip safe state; a
region reset is requested once and, done, returns every register of the region to its reset value but for the owners and what R435
keeps. SAFE_N acts without a clock, and its alarm and the axes follow with the clocks. The model's choices: what an error's access is
(log 146), which blocks of the System region keep running (log 79) and what the Keeper publishes again (log 80), the schedule after an
Acquisition reset (log 82), the course of SAFE_N where the clocks stand still (log 75) and the end of outputs in SAFE (log 42). -/
def Obligations.ErrorsAndSafeState : Prop :=
  (∀ (r : Region) (s : State), clocked s r = true →
    let u := raiseAlarm 0x0110 (regionBase r) 2 false (raiseF .ec (Ec.RERR_BUSERR (regionNum r)) s)
    exec (.regionBusError { region := r }) s = .next u ∧
    (∀ x : BusAccess,
      (addrRegion x.addr.toNat ≠ r → exec (.regionBusError { region := r, access := some x }) s = .next u) ∧
      (addrRegion x.addr.toNat = r → clocked u r = true →
        let v := if x.read then readLost x.ag x.addr.toNat u else u
        (x.read = true → (∀ k, x.ag ≠ .le k) → v.answer = 0 ∧ v = { u with answer := 0 }) ∧
        (∀ k, x.read = true → x.ag = .le k → (v.le[k]).lostRd = some x.addr.toNat ∧ v = { u with le := v.le }) ∧
        (accessBlk v x.addr.toNat = none → exec (.regionBusError { region := r, access := some x }) s = .next v) ∧
        (∀ b off, accessBlk v x.addr.toNat = some (b, off) →
          exec (.regionBusError { region := r, access := some x }) s
            = .next (if x.read then blkMet b .iso v else blkErr b .iso x.ag.code off v)))) ∧
    exec (.regionStarve r) s = .next (raiseAlarm 0x0111 (regionBase r) 2 false (raiseF .ec (Ec.RERR_STARVE (regionNum r)) s))) ∧
  (∀ (ag : Agent) (w : Word) (s : State), Accepts ag .ec 0x10 w s → fieldOf w Ec.CMD_FORCEFATAL = 1 →
    fieldOf w Ec.CMD_RRESET = 0 →
    (fieldOf w Ec.CMD_KEY ≠ 0xFA7A → exec (.forceFatal ag w) s = .next s) ∧
    (fieldOf w Ec.CMD_KEY = 0xFA7A → getF s .ec Ec.STATE_FATAL = 0 →
      ∃ u, exec (.forceFatal ag w) s = .next (if chipSafe s then u else safeEntry u) ∧ getF u .ec Ec.STATE_FATAL = 1 ∧
        getF u .ec Ec.FATALCODE = 0x1004 ∧ getF u .ec Ec.FATALSRC = ecSrc ∧ getF u .ec Ec.FATALT = timeNs s) ∧
    (fieldOf w Ec.CMD_KEY = 0xFA7A → getF s .ec Ec.STATE_FATAL = 1 → s.fresh.contains fatalKey = false →
      clocked s .system = true → exec (.forceFatal ag w) s = .next (tableRaise 0x1004 ecSrc 3 false s))) ∧
  (∀ (ag : Agent) (w : Word) (r : Region) (s : State), Accepts ag .ec 0x10 w s → fieldOf w Ec.CMD_FORCEFATAL = 0 →
    fieldOf w Ec.CMD_RRESET = 2 ^ regionNum r →
    (regionReset s r = true → exec (.regionResetRequest ag w) s = .next s) ∧
    (regionReset s r = false → ∃ u, exec (.regionResetRequest ag w) s = .next (regionLost r u) ∧
      u = { s with regs := u.regs, ec := u.ec } ∧ regionReset u r = true ∧
      RegsBut [(.ec, Ec.RERR_RSTBUSY (regionNum r))] s u)) ∧
  (∀ (r : Region) (s : State), awake s = true → regionReset s r = true →
    (∀ p ∈ s.ec.isoPend, blkRegion p.1 ≠ r) →
    ∃ u, exec (.regionResetDone r) s = .next (raiseAlarm 0x0112 (regionBase r) 0 false (refreshOutputs u)) ∧
      regionReset u r = false ∧ getF u .ec (Ec.RERR_RSTDONE (regionNum r)) = 1 ∧ u.ec.isoPend = s.ec.isoPend ∧
      (∀ b : Blk, owner u b = owner s b) ∧
      RegsBut [(.ec, Ec.RERR_RSTBUSY (regionNum r)), (.ec, Ec.RERR_RSTDONE (regionNum r)), (.fe, Fe.STATUS_SRPEND),
        (.fe, Fe.STATUS_SCHED), (.cap, Cap.STATUS_STATE), (.mb, Mb.KS_STATE_FWRUN), (.time, Time.STATUS_HOLDOVER)] (resetRegs r s) u ∧
      (r = .system → getF u .mb Mb.KS_STATE_FWRUN = 0) ∧ (r = .control → getF u .cap Cap.STATUS_STATE = 0) ∧
      (r = .port → ∀ n : Fin 16, ∀ f : Fld, f ∈ [Exg.CTRL_EN, Exg.FREQ, Exg.AMP, Exg.PHASE, Exg.STATUS_STATE, Exg.IRMS] →
        getF u (.exg n) f = getF State.reset (.exg n) f)) ∧
  (∀ (r : Region) (b : Blk) (f : Fld) (s : State), f.lo < 32 → addrBlk (blkBase b + f.off) = some (b, f.off) →
    let back := addrRegion (blkBase b + f.off) = r ∧ resetKeeps b = false ∧ keyKept (fkey b f) = false
    (back → getF (resetRegs r s) b f = getF State.reset b f) ∧ (¬ back → getF (resetRegs r s) b f = getF s b f)) ∧
  (∀ s : State, (s.ec.safePin = true → exec .safeNAssert s = .next s) ∧
    (s.ec.safePin = false →
      let v := { s with ec := { s.ec with safePin := true, safeLow := s.ec.safeLow || s.pwr.good,
                                          safeDue := s.ec.safeDue || (s.pwr.good && !chipSafe s) } }
      exec .safeNAssert s = .next (if clocked s .system then safeResume v else v) ∧
      (s.pwr.good = true → chipSafe v = true))) ∧
  (∀ s : State,
    let u := { s with ec := { s.ec with safePin := false, safeLow := s.ec.safeLow && !s.pwr.good } }
    exec .safeNRelease s = .next (if clocked s .system then refreshOutputs (safeResume u) else u) ∧
    (s.pwr.good = true → getF s .ec Ec.STATE_FATAL = 0 → chipSafe u = false)) ∧
  (∀ s : State,
    let told := fun (b : Bool) (s : State) => { s with ec := { s.ec with safeTold := b } }
    (s.ec.safeDue = false → s.ec.safePin = true → s.ec.safeTold = false →
      safeResume s = raiseAlarm 0x1005 ecSrc 1 true (told true s)) ∧
    (s.ec.safeDue = true → s.ec.safePin = true → s.ec.safeTold = false →
      safeResume s = raiseAlarm 0x1005 ecSrc 1 true (told true (safeEntry { s with ec := { s.ec with safeDue := false } }))) ∧
    (s.ec.safeDue = false → s.ec.safePin = false → s.ec.safeTold = true →
      safeResume s = alarmGone 0x1005 ecSrc (told false s)) ∧
    (s.ec.safeDue = false → s.ec.safePin = s.ec.safeTold → safeResume s = s)) ∧
  (∀ (c : Fin 64) (s : State), live s (.pt c) = true →
    ((cellDrive s c).isSome = true → exec (.portCellDriveMismatch c) s = .next (blkMet (.pt c) .cell s)) ∧
    (cellDrive s c = none → exec (.portCellDriveMismatch c) s = .next s))

/-! ### Freeze, the debug port and the event counters (chapter 18) -/

/-- From R436 to R440. Rows FREEZE_PIN, FREEZE_PIN_RELEASE, FREEZE_CMD, FREEZE_TIMEOUT, DAP_UNFREEZE and DAP_READ. A freeze needs the
FREEZE right: with it, the device freezes, counted and stamped; without it the request is refused with its alarm. It ends with
its last cause. The debug port reads only while the device is frozen and the DAP right is in force.
From R441 to R443, R458, R459. Rows EVC_SNAPALL, EVC_CLRALL and EVC_CLR, accepted, and the boundary-scan rows EXTEST, IDCODE, SAMPLE_PRELOAD,
CLAMP, HIGHZ and BYPASS. SNAPALL captures every counter and the time; a clear leaves 0, to which the end of the fabric cycle
adds 1 where the counter's source has occurred in it. A boundary-scan row selects its instruction, an unlisted code BYPASS, and
changes nothing outside the debug port; EXTEST and SAMPLE/PRELOAD capture the balls as they stand, HIGHZ drives none, and EXTEST and
CLAMP drive every ball from its own cells while RESET_N is low. The numbers of the cells and what they capture of balls that the model
does not hold (log 148) are the model's choice, as are the debug registers after reset (log 23). -/
def Obligations.FreezeDebugAndCounters : Prop :=
  (
  (∀ s : State, s.ec.freezeLow = false → 4 ≤ s.pwr.stage → frozen s = false → dormant s = false →
    (getF s .mb Mb.KS_DBG_FREEZE = 1 →
      let a := alarmTick { s with ec := { s.ec with freezeLow := true, frzPin := true } }
      ∃ u, exec .freezePin s = .next (refreshOutputs u) ∧ u = { a with regs := u.regs, ec := { a.ec with frzAt := s.aon } } ∧
      a.ec = { s.ec with freezeLow := true, frzPin := true } ∧
      getF u .ec Ec.FRZ_FRZCNT = (getF s .ec Ec.FRZ_FRZCNT + 1) % 2 ^ 16 ∧ getF u .ec Ec.FRZT = timeNs s ∧
      RegsBut [(.ec, Ec.FRZ_FRZCNT), (.ec, Ec.FRZT)] a u) ∧
    (getF s .mb Mb.KS_DBG_FREEZE = 0 → exec .freezePin s = .next (raiseAlarm 0x1002 ecSrc 0 false
      (raiseF .ec Ec.FRZ_FRZREJ { s with ec := { s.ec with freezeLow := true } })))) ∧
  (∀ s : State, s.ec.frzPin = true →
    let u := { s with ec := { s.ec with freezeLow := false, frzPin := false } }
    (s.ec.frzSw = true → exec .freezePinRelease s = .next u) ∧
    (s.ec.frzSw = false → exec .freezePinRelease s = .next (unfreeze u))) ∧
  (∀ (ag : Agent) (w : Word) (s : State), Accepts ag .ec 0x84 w s → fieldOf w Ec.FRZCMD_GO = 1 →
    (getF s .mb Mb.KS_DBG_FREEZE = 1 →
      let a := alarmTick { s with ec := { s.ec with frzSw := true, frzTimeout := fieldOf w Ec.FRZCMD_TIMEOUT } }
      ∃ u, exec (.freezeCmd ag w) s = .next (refreshOutputs u) ∧ u = { a with regs := u.regs, ec := { a.ec with frzAt := s.aon } } ∧
      a.ec = { s.ec with frzSw := true, frzTimeout := fieldOf w Ec.FRZCMD_TIMEOUT } ∧
      getF u .ec Ec.FRZ_FRZCNT = (getF s .ec Ec.FRZ_FRZCNT + 1) % 2 ^ 16 ∧ getF u .ec Ec.FRZT = timeNs s) ∧
    (getF s .mb Mb.KS_DBG_FREEZE = 0 →
      exec (.freezeCmd ag w) s = .next (raiseAlarm 0x1002 ecSrc 0 false (raiseF .ec Ec.FRZ_FRZREJ s)))) ∧
  (∀ s : State, s.ec.frzSw = true → s.ec.frzTimeout ≠ 0 → s.ec.frzTimeout ≤ (s.aon - s.ec.frzAt) * 1000 / 32768 →
    let u := { s with ec := { s.ec with frzSw := false } }
    exec .freezeTimeout s = .next (if s.ec.frzPin then u else unfreeze u)) ∧
  (∀ (w : Word) (s : State),
    let u := { s with ec := { s.ec with snapEn := (bitAt w.toNat 1 == 1), jtagIr := 0x18,
                                        dapOut := BitVec.ofNat 34 (getF s .ec Ec.STATE_FATAL * 2 ^ 11 + bitOf (chipSafe s) * 2 ^ 10
                                   + getF s .mb Mb.KS_DBG_DAP * 2 ^ 9 + bitOf (frozen s) * 2 ^ 8) } }
    let v := { u with ec := { u.ec with frzSw := false } }
    (bitAt w.toNat 0 = 0 → exec (.dapUnfreeze w) s = .next u) ∧
    (bitAt w.toNat 0 = 1 → exec (.dapUnfreeze w) s
      = .next (if s.ec.frzSw = true ∧ s.ec.frzPin = false then unfreeze v else v))) ∧
  (∀ (addr : Option Word) (s : State),
    let a := addr.getD s.ec.dapAddr
    ∃ t, exec (.dapRead addr) s = .next t ∧ t = { s with regs := t.regs, ec := t.ec } ∧ t.ec.dapAddr = a + 4 ∧ t.ec.jtagIr = 0x1A ∧
      ((frozen s = false ∨ getF s .mb Mb.KS_DBG_DAP = 0) → t.ec.dapOut.toNat = 2 * 2 ^ 32 ∧ t.regs = s.regs) ∧
      (frozen s = true → getF s .mb Mb.KS_DBG_DAP = 1 →
        (target a.toNat = .unmapped → t.ec.dapOut.toNat = 2 ^ 32) ∧
        (target a.toNat ≠ .unmapped → eccBad s a.toNat = false → t.ec.dapOut.toNat = (busWord .host a.toNat s).toNat) ∧
        (∀ off, target a.toNat = .pool off → eccBad s a.toNat = true →
          t.ec.dapOut.toNat = 3 * 2 ^ 32 + (busWord .host a.toNat s).toNat)) ∧
      (s.ec.snapEn = false → t.regs = s.regs))) ∧
  (
  (∀ (ag : Agent) (w : Word) (s : State), Accepts ag .evc 8 w s →
    (fieldOf w Evc.CMD_SNAPALL = 1 → fieldOf w Evc.CMD_CLRALL = 0 →
      ∃ t, exec (.evcSnapall ag w) s = .next t ∧ t = { s with regs := t.regs } ∧ getF t .evc Evc.STIME = timeNs s ∧
        ∀ n : Fin 32, getF t .evc (Evc.EVCN_SLO n) = evcCount s n % 2 ^ 32 ∧
          getF t .evc (Evc.EVCN_SHI n) = evcCount s n / 2 ^ 32 % 2 ^ 16) ∧
    (fieldOf w Evc.CMD_SNAPALL = 0 → fieldOf w Evc.CMD_CLRALL = 1 →
      ∃ t, exec (.evcClrall ag w) s = .next t ∧ t = { s with evc := t.evc } ∧
        ∀ n : Fin 32, t.evc[n] = 0)) ∧
  (∀ (ag : Agent) (n : Fin 32) (w : Word) (s : State), Accepts ag .evc (0x100 + 0x20 * n.val) w s →
    fieldOf w (Evc.EVCN_CFG_CLR n) = 1 →
    ∃ t, exec (.evcClr ag n w) s = .next t ∧ t = { s with regs := t.regs, evc := t.evc, evcPrev := t.evcPrev } ∧
      t.evc = s.evc.set n 0 ∧ ∀ m : Fin 32, m ≠ n → t.evcPrev[m] = s.evcPrev[m]) ∧
  (∀ (n : Fin 32) (s : State), live s .evc = true → flag s .evc (Evc.EVCN_CFG_EN n) = true →
    evcCount (evcTick s) n = if evcOccurs s n then (evcCount s n + 1) % 2 ^ 48 else evcCount s n) ∧
  (∀ s : State,
    exec .idcode s = .next { s with ec := { s.ec with jtagIr := 1, dapOut := 0x0166454B } } ∧
    exec .bypass s = .next { s with ec := { s.ec with jtagIr := 31 } } ∧
    exec .highz s = .next { s with ec := { s.ec with jtagIr := 5 } } ∧
    exec .clamp s = .next { s with ec := { s.ec with jtagIr := 4 } } ∧
    (∀ cells, let u := { s with ec := { s.ec with jtagIr := 0 } }
      exec (.extest cells) s = .next { s with
        free := s.free + 1
        ec := { s.ec with jtagIr := 0, boundary := cells, sampled := scanCapture (Config.scanOther s.free) u } }) ∧
    (∀ other cells, let u := { s with ec := { s.ec with jtagIr := 2 } }
      exec (.samplePreload other cells) s
        = .next { s with ec := { s.ec with jtagIr := 2, boundary := cells, sampled := scanCapture other u } }) ∧
    (∀ b : Ball, (s.ec.jtagIr = 5 → pinOut s b = .highZ) ∧
      (s.ec.jtagIr = 0 ∨ s.ec.jtagIr = 4 → s.pwr.resetLow = true → b.inputOnly = false →
        (s.ec.boundary.getLsbD (Config.scanEnable b.num) = true →
          pinOut s b = .drives (s.ec.boundary.getLsbD (Config.scanOutput b.num))) ∧
        (s.ec.boundary.getLsbD (Config.scanEnable b.num) = false → pinOut s b = .highZ)) ∧
      (s.ec.jtagIr ≠ 5 → s.pwr.resetLow = false → pinOut s b = functionPin s b)) ∧
    (∀ code : BitVec 5, code ∉ [0x00#5, 0x01#5, 0x02#5, 0x04#5, 0x05#5, 0x18#5, 0x19#5, 0x1A#5] → tapCode code = 0x1F)))

/-! ### Every command -/

/-- Every command completes in every state: each constructor of Instr answers a next state, and none ever faults or is refused.
What that state is, each command's own statement says for the states in which its event is due, its write is accepted or its
instruction executes; in the others it is what R6 to R10, R27, R28 and R438 leave of the command, or the state as it was (log 6). -/
def Obligations.EveryCommandCompletes : Prop := ∀ (i : Instr) (s : State), Completes i s
end

