-- ==== Sys2Proof/Laws/Assoc.lean ====
section
/-!
SUPPORT. Sorted association lists: what a look-up finds after an update, and that an update keeps the canonical form.
-/

namespace Sys2Proof.Machine

variable {α : Type}

@[simp] theorem assocGet_nil (k : Nat) : assocGet k ([] : List (Nat × α)) = none := rfl

theorem assocGet_put_self (k : Nat) (v : α) (l : List (Nat × α)) : assocGet k (assocPut k v l) = some v := by
  induction l with
  | nil => simp [assocPut, assocGet]
  | cons p t ih =>
    obtain ⟨k', v'⟩ := p
    simp only [assocPut]
    split
    · simp [assocGet]
    · split
      · simp [assocGet]
      · rename_i h; simp [assocGet, h, ih]

theorem assocGet_put_ne {k j : Nat} (h : j ≠ k) (v : α) (l : List (Nat × α)) :
    assocGet j (assocPut k v l) = assocGet j l := by
  induction l with
  | nil => simp [assocPut, assocGet, h]
  | cons p t ih =>
    obtain ⟨k', v'⟩ := p
    simp only [assocPut]
    split
    · simp [assocGet, h]
    · split
      · rename_i e; subst e; simp [assocGet, h]
      · simp [assocGet, ih]

theorem assocGet_erase_self (k : Nat) (l : List (Nat × α)) : assocGet k (assocErase k l) = none := by
  induction l with
  | nil => rfl
  | cons p t ih =>
    obtain ⟨k', v'⟩ := p
    by_cases e : k' = k
    · subst e; simpa [assocErase] using ih
    · have e' : k ≠ k' := fun x => e x.symm
      simpa [assocErase, e, assocGet, e'] using ih

theorem assocGet_erase_ne {k j : Nat} (h : j ≠ k) (l : List (Nat × α)) : assocGet j (assocErase k l) = assocGet j l := by
  induction l with
  | nil => rfl
  | cons p t ih =>
    obtain ⟨k', v'⟩ := p
    by_cases e : k' = k
    · subst e; simpa [assocErase, assocGet, h] using ih
    · have : assocErase k ((k', v') :: t) = (k', v') :: assocErase k t := by simp [assocErase, e]
      rw [this]; simp [assocGet, ih]

/-- A map with a default: the key set reads as its value. -/
theorem assocGet_set_self [DecidableEq α] (d : α) (k : Nat) (v : α) (l : List (Nat × α)) :
    (assocGet k (assocSet d k v l)).getD d = v := by
  unfold assocSet
  split
  · rename_i e; subst e; simp [assocGet_erase_self]
  · simp [assocGet_put_self]

/-- Every other key reads as before. -/
theorem assocGet_set_ne [DecidableEq α] {k j : Nat} (h : j ≠ k) (d : α) (v : α) (l : List (Nat × α)) :
    assocGet j (assocSet d k v l) = assocGet j l := by
  unfold assocSet
  split
  · exact assocGet_erase_ne h l
  · exact assocGet_put_ne h v l

/-! ### The canonical form -/

theorem assocWf_tail [DecidableEq α] {d : Nat → α} {p : Nat × α} {t : List (Nat × α)} (h : assocWf d (p :: t) = true) :
    assocWf d t = true := by
  obtain ⟨k, v⟩ := p
  cases t with
  | nil => rfl
  | cons q t => obtain ⟨k', v'⟩ := q; simp [assocWf] at h; exact h.2

/-- The canonical form as a rising sequence of keys and values that differ from their defaults. -/
theorem assocWf_iff [DecidableEq α] (d : Nat → α) (l : List (Nat × α)) :
    assocWf d l = true ↔ l.Pairwise (fun p q => p.1 < q.1) ∧ ∀ p ∈ l, p.2 ≠ d p.1 := by
  induction l with
  | nil => simp [assocWf]
  | cons p t ih =>
    obtain ⟨k, v⟩ := p
    cases t with
    | nil => simp [assocWf]
    | cons q t =>
      obtain ⟨k', v'⟩ := q
      simp only [assocWf, Bool.and_eq_true, decide_eq_true_eq, bne_iff_ne, ih]
      constructor
      · rintro ⟨⟨h1, h2⟩, h3, h4⟩
        refine ⟨List.pairwise_cons.2 ⟨?_, h3⟩, ?_⟩
        · intro x hx
          rcases List.mem_cons.1 hx with rfl | hx
          · exact h1
          · exact Nat.lt_trans h1 ((List.pairwise_cons.1 h3).1 x hx)
        · intro x hx
          rcases List.mem_cons.1 hx with rfl | hx
          · exact h2
          · exact h4 x hx
      · rintro ⟨h1, h2⟩
        obtain ⟨h1a, h1b⟩ := List.pairwise_cons.1 h1
        exact ⟨⟨h1a _ List.mem_cons_self, h2 _ List.mem_cons_self⟩, h1b, fun x hx => h2 x (List.mem_cons_of_mem _ hx)⟩

theorem assocWf_filter [DecidableEq α] {d : Nat → α} {l : List (Nat × α)} (f : Nat × α → Bool) (h : assocWf d l = true) :
    assocWf d (l.filter f) = true := by
  rw [assocWf_iff] at h ⊢
  exact ⟨h.1.filter f, fun p hp => h.2 p (List.mem_of_mem_filter hp)⟩

theorem mem_assocPut {k : Nat} {v : α} {l : List (Nat × α)} {p : Nat × α} (h : p ∈ assocPut k v l) :
    p = (k, v) ∨ p ∈ l := by
  induction l with
  | nil => simpa [assocPut] using h
  | cons q t ih =>
    obtain ⟨k', v'⟩ := q
    simp only [assocPut] at h
    split at h
    · simpa using h
    · split at h
      · rcases List.mem_cons.1 h with h | h
        · exact .inl h
        · exact .inr (List.mem_cons_of_mem _ h)
      · rcases List.mem_cons.1 h with h | h
        · exact .inr (h ▸ List.mem_cons_self)
        · exact (ih h).imp id (List.mem_cons_of_mem _)

theorem assocWf_put [DecidableEq α] {d : Nat → α} {k : Nat} {v : α} {l : List (Nat × α)} (hv : v ≠ d k)
    (h : assocWf d l = true) : assocWf d (assocPut k v l) = true := by
  rw [assocWf_iff] at h ⊢
  refine ⟨?_, fun p hp => ?_⟩
  · induction l with
    | nil => simp [assocPut]
    | cons q t ih =>
      obtain ⟨k', v'⟩ := q
      obtain ⟨h1, h2⟩ := h
      obtain ⟨h1a, h1b⟩ := List.pairwise_cons.1 h1
      simp only [assocPut]
      split
      · rename_i hk
        refine List.pairwise_cons.2 ⟨fun x hx => ?_, h1⟩
        rcases List.mem_cons.1 hx with rfl | hx
        · exact hk
        · exact Nat.lt_trans hk (h1a x hx)
      · split
        · rename_i e; subst e
          exact List.pairwise_cons.2 ⟨h1a, h1b⟩
        · rename_i hk he
          refine List.pairwise_cons.2 ⟨fun x hx => ?_, ih ⟨h1b, fun p hp => h2 p (List.mem_cons_of_mem _ hp)⟩⟩
          rcases mem_assocPut hx with rfl | hx
          · show k' < k; omega
          · exact h1a x hx
  · rcases mem_assocPut hp with rfl | hp
    · exact hv
    · exact h.2 p hp

/-- An update keeps the canonical form. -/
theorem assocWf_set [DecidableEq α] {d : α} {k : Nat} {v : α} {l : List (Nat × α)} (h : assocWf (fun _ => d) l = true) :
    assocWf (fun _ => d) (assocSet d k v l) = true := by
  unfold assocSet
  split
  · exact assocWf_filter _ h
  · rename_i e; exact assocWf_put e h

end Sys2Proof.Machine
end

