-- ==== Sys2Proof/Laws/Ecc.lean ====
section
/-!
SUPPORT. Reads of memories that no ECC error strikes (R280): where no word waits with an error, meeting the words of a read changes
nothing.
-/

namespace Sys2Proof.Machine

theorem eccAt_of_nil {s : State} (h : s.ecc = []) (a : Nat) : eccAt s a = none := by rw [eccAt, h]; rfl

/-- A word that no error waits in reads without an effect. -/
theorem eccMeet_of_none {s : State} {a : Nat} (b : Blk) (h : eccAt s a = none) : eccMeet b a s = s := by simp [eccMeet, h]

/-- The words of a read that no error waits in. -/
theorem eccMeets_of_none {s : State} (b : Blk) (a n : Nat) (h : ∀ i, i < n → eccAt s (a + 4 * i) = none) :
    eccMeets b a n s = s := by
  unfold eccMeets
  suffices H : ∀ l : List Nat, (∀ i ∈ l, i < n) → l.foldl (fun s i => eccMeet b (a + 4 * i) s) s = s from
    H _ (fun i hi => List.mem_range.mp hi)
  intro l
  induction l with
  | nil => intro _; rfl
  | cons i t ih =>
    intro hl
    rw [List.foldl_cons, eccMeet_of_none b (h i (hl i (by simp)))]
    exact ih (fun j hj => hl j (by simp [hj]))

theorem eccMeets_of_nil {s : State} (h : s.ecc = []) (b : Blk) (a n : Nat) : eccMeets b a n s = s :=
  eccMeets_of_none b a n (fun _ _ => eccAt_of_nil h _)

/-- The read of a ring's oldest entry. -/
theorem ringMeet_of_nil {s : State} (h : s.ecc = []) (q : Fin 16) : ringMeet q s = s := by
  unfold ringMeet
  split
  · rfl
  · exact eccMeets_of_nil h _ _ _

theorem poolMeet_of_nil {s : State} (h : s.ecc = []) (off n : Nat) : poolMeet off n s = s := by simp [poolMeet, h]

theorem tableMeet_of_nil {s : State} (h : s.ecc = []) : tableMeet s = s := by simp [tableMeet, h]

end Sys2Proof.Machine
end

