-- ==== Sys2Proof/Laws/Memory.lean ====
section
/-!
SUPPORT. Memory: what is read after a write, that a write changes nothing else, and that every operation over the pool, the engine
RAMs, the Lens tables and the boot flash keeps their canonical form (R12, R375, R386).
-/

namespace Sys2Proof.Machine

/-! ### Bytes -/

@[simp] theorem memByte_setByte_self (a : Nat) (v : Byte) (s : State) : memByte (setByte a v s) a = v :=
  assocGet_set_self 0 a v s.mem

theorem memByte_setByte_ne {a b : Nat} (h : b ≠ a) (v : Byte) (s : State) : memByte (setByte a v s) b = memByte s b := by
  unfold memByte setByte; simp only [assocGet_set_ne h]

@[simp] theorem flashByte_setFlash_self (a : Nat) (v : Byte) (s : State) : flashByte (setFlash a v s) a = v :=
  assocGet_set_self 0xFF a v s.flash

theorem flashByte_setFlash_ne {a b : Nat} (h : b ≠ a) (v : Byte) (s : State) :
    flashByte (setFlash a v s) b = flashByte s b := by
  unfold flashByte setFlash; simp only [assocGet_set_ne h]

/-! ### Words -/

/-- A word reads as it was written. -/
@[simp] theorem memWord_setWord_self (a : Nat) (w : Word) (s : State) : memWord (setWord a w s) a = w := by
  unfold memWord setWord
  rw [memByte_setByte_ne (by omega : a ≠ a + 3), memByte_setByte_ne (by omega : a ≠ a + 2),
    memByte_setByte_ne (by omega : a ≠ a + 1), memByte_setByte_self,
    memByte_setByte_ne (by omega : a + 1 ≠ a + 3), memByte_setByte_ne (by omega : a + 1 ≠ a + 2), memByte_setByte_self,
    memByte_setByte_ne (by omega : a + 2 ≠ a + 3), memByte_setByte_self, memByte_setByte_self]
  apply BitVec.eq_of_toNat_eq
  have := w.isLt
  simp only [BitVec.toNat_ofNat]
  omega

/-- A word written changes no other byte. -/
theorem memByte_setWord_ne {a b : Nat} (h : b < a ∨ a + 4 ≤ b) (w : Word) (s : State) :
    memByte (setWord a w s) b = memByte s b := by
  unfold setWord
  rw [memByte_setByte_ne (by omega), memByte_setByte_ne (by omega), memByte_setByte_ne (by omega),
    memByte_setByte_ne (by omega)]

theorem memWord_setWord_ne {a b : Nat} (h : b + 4 ≤ a ∨ a + 4 ≤ b) (w : Word) (s : State) :
    memWord (setWord a w s) b = memWord s b := by
  unfold memWord
  rw [memByte_setWord_ne (by omega), memByte_setWord_ne (by omega), memByte_setWord_ne (by omega),
    memByte_setWord_ne (by omega)]

/-- Words written change no byte outside them. -/
theorem memByte_setWords_ne {b : Nat} (l : List Word) (a : Nat) (s : State) (h : b < a ∨ a + 4 * l.length ≤ b) :
    memByte (setWords a l s) b = memByte s b := by
  induction l generalizing a s with
  | nil => rfl
  | cons w t ih =>
    simp only [setWords, List.length_cons] at h ⊢
    rw [ih _ _ (by omega), memByte_setWord_ne (by omega)]

/-- Words read as they were written. -/
theorem memWord_setWords (l : List Word) (a i : Nat) (s : State) (h : i < l.length) :
    memWord (setWords a l s) (a + 4 * i) = l[i] := by
  induction l generalizing a i s with
  | nil => simp at h
  | cons w t ih =>
    simp only [setWords]
    cases i with
    | zero =>
      have e : ∀ k, k < 4 → memByte (setWords (a + 4) t (setWord a w s)) (a + k) = memByte (setWord a w s) (a + k) :=
        fun k hk => memByte_setWords_ne t (a + 4) _ (by omega)
      have e0 := e 0 (by omega)
      simp only [Nat.add_zero] at e0
      simp only [Nat.mul_zero, Nat.add_zero, List.getElem_cons_zero, memWord, e0, e 1 (by omega), e 2 (by omega),
        e 3 (by omega)]
      exact memWord_setWord_self a w s
    | succ n =>
      have := ih (a + 4) n (setWord a w s) (by simpa using h)
      rw [List.getElem_cons_succ, ← this]
      congr 1; omega

/-! ### Runs of bytes -/

/-- Bytes loaded change no byte outside them, and nothing but memory and the ECC errors in it. -/
theorem loadBytes_frame (l : List Byte) (a : Nat) (s : State) :
    loadBytes a l s = { s with mem := (loadBytes a l s).mem, ecc := (loadBytes a l s).ecc } ∧
    ∀ b, (b < a ∨ a + l.length ≤ b) → memByte (loadBytes a l s) b = memByte s b := by
  induction l generalizing a s with
  | nil => exact ⟨rfl, fun _ _ => rfl⟩
  | cons v t ih =>
    have h := ih (a + 1) (setByte a v s)
    simp only [loadBytes]
    refine ⟨?_, fun b hb => ?_⟩
    · rw [h.1]; rfl
    · simp only [List.length_cons] at hb
      rw [h.2 b (by omega), memByte_setByte_ne (by omega)]

/-- Bytes loaded read back. -/
theorem memBytes_loadBytes (l : List Byte) (a : Nat) (s : State) : memBytes (loadBytes a l s) a l.length = l := by
  induction l generalizing a s with
  | nil => rfl
  | cons v t ih =>
    have h := ih (a + 1) (setByte a v s)
    unfold memBytes at h ⊢
    simp only [loadBytes, List.length_cons, List.range_succ_eq_map, List.map_cons, List.map_map, Nat.add_zero]
    congr 1
    · rw [(loadBytes_frame t (a + 1) _).2 a (by omega), memByte_setByte_self]
    · refine Eq.trans (List.map_congr_left fun i _ => ?_) h
      simp only [Function.comp]; congr 1; omega

theorem setFlashBytes_frame (l : List Byte) (a : Nat) (s : State) :
    setFlashBytes a l s = { s with flash := (setFlashBytes a l s).flash } ∧
    ∀ b, (b < a ∨ a + l.length ≤ b) → flashByte (setFlashBytes a l s) b = flashByte s b := by
  induction l generalizing a s with
  | nil => exact ⟨rfl, fun _ _ => rfl⟩
  | cons v t ih =>
    have h := ih (a + 1) (setFlash a v s)
    simp only [setFlashBytes]
    refine ⟨?_, fun b hb => ?_⟩
    · rw [h.1]; rfl
    · simp only [List.length_cons] at hb
      rw [h.2 b (by omega), flashByte_setFlash_ne (by omega)]

/-- Bytes of the boot flash read back. -/
theorem flashBytes_setFlashBytes (l : List Byte) (a : Nat) (s : State) :
    flashBytes (setFlashBytes a l s) a l.length = l := by
  induction l generalizing a s with
  | nil => rfl
  | cons v t ih =>
    have h := ih (a + 1) (setFlash a v s)
    unfold flashBytes at h ⊢
    simp only [setFlashBytes, List.length_cons, List.range_succ_eq_map, List.map_cons, List.map_map, Nat.add_zero]
    congr 1
    · rw [(setFlashBytes_frame t (a + 1) _).2 a (by omega), flashByte_setFlash_self]
    · refine Eq.trans (List.map_congr_left fun i _ => ?_) h
      simp only [Function.comp]; congr 1; omega

/-- An erased area of the boot flash reads 0xFF, and every other byte as before. -/
theorem flashByte_eraseFlash (a n b : Nat) (s : State) :
    flashByte (eraseFlash a n s) b = if a ≤ b ∧ b < a + n then 0xFF else flashByte s b := by
  unfold flashByte eraseFlash
  simp only
  induction s.flash with
  | nil => simp [assocGet]
  | cons p t ih =>
    obtain ⟨k, v⟩ := p
    by_cases hk : k < a ∨ a + n ≤ k
    · rw [List.filter_cons_of_pos (by simpa using hk)]
      by_cases e : b = k
      · subst e; simp only [assocGet, if_true]; rw [if_neg (by omega)]
      · simp only [assocGet, if_neg e]; exact ih
    · rw [List.filter_cons_of_neg (by simpa using hk)]
      rw [ih]
      by_cases e : b = k
      · subst e; rw [if_pos (by omega), if_pos (by omega)]
      · simp only [assocGet, if_neg e]

/-! ### The canonical form -/

theorem memWf_iff (s : State) :
    s.memWf = true ↔ Memory.wf 0 s.mem = true ∧ Memory.wf 0xFF s.flash = true ∧ s.cap.memWf = true := by
  unfold State.memWf; simp [and_assoc]

theorem memWf_setByte {s : State} (h : s.memWf = true) (a : Nat) (v : Byte) : (setByte a v s).memWf = true := by
  rw [memWf_iff] at h ⊢; exact ⟨assocWf_set h.1, h.2⟩

theorem memWf_setWord {s : State} (h : s.memWf = true) (a : Nat) (w : Word) : (setWord a w s).memWf = true :=
  memWf_setByte (memWf_setByte (memWf_setByte (memWf_setByte h _ _) _ _) _ _) _ _

theorem memWf_setWords {s : State} (h : s.memWf = true) (a : Nat) (l : List Word) : (setWords a l s).memWf = true := by
  induction l generalizing a s with
  | nil => exact h
  | cons w t ih => exact ih (memWf_setWord h a w) _

theorem memWf_loadBytes {s : State} (h : s.memWf = true) (a : Nat) (l : List Byte) : (loadBytes a l s).memWf = true := by
  induction l generalizing a s with
  | nil => exact h
  | cons v t ih => exact ih (memWf_setByte h a v) _

theorem memWf_setFlash {s : State} (h : s.memWf = true) (a : Nat) (v : Byte) : (setFlash a v s).memWf = true := by
  rw [memWf_iff] at h ⊢; exact ⟨h.1, assocWf_set h.2.1, h.2.2⟩

theorem memWf_setFlashBytes {s : State} (h : s.memWf = true) (a : Nat) (l : List Byte) :
    (setFlashBytes a l s).memWf = true := by
  induction l generalizing a s with
  | nil => exact h
  | cons v t ih => exact ih (memWf_setFlash h a v) _

theorem memWf_eraseFlash {s : State} (h : s.memWf = true) (a n : Nat) : (eraseFlash a n s).memWf = true := by
  rw [memWf_iff] at h ⊢; exact ⟨h.1, assocWf_filter _ h.2.1, h.2.2⟩

/-- A word written into the capture memory keeps its form. -/
theorem memWf_capSet {c : CapSt} (h : c.memWf = true) (i : Nat) (w : Word) : (capSet i w c).memWf = true := by
  have put : ∀ l : List (Nat × Word), l.Pairwise (fun p q => p.1 < q.1) →
      (assocPut i w l).Pairwise (fun p q => p.1 < q.1) := by
    intro l
    induction l with
    | nil => intro _; simp [assocPut]
    | cons q t ih =>
      intro hl
      obtain ⟨ha, hb⟩ := List.pairwise_cons.1 hl
      simp only [assocPut]
      split
      · rename_i hk
        refine List.pairwise_cons.2 ⟨fun x hx => ?_, hl⟩
        rcases List.mem_cons.1 hx with rfl | hx
        · exact hk
        · exact Nat.lt_trans hk (ha x hx)
      · split
        · rename_i e; subst e; exact List.pairwise_cons.2 ⟨ha, hb⟩
        · rename_i hk he
          refine List.pairwise_cons.2 ⟨fun x hx => ?_, ih hb⟩
          rcases mem_assocPut hx with rfl | hx
          · show q.1 < i; omega
          · exact ha x hx
  unfold CapSt.memWf at h ⊢
  unfold capSet
  simp only [Bool.and_eq_true, decide_eq_true_eq, Bool.or_eq_true, List.all_eq_true, bne_iff_ne] at h ⊢
  cases hu : c.undef with
  | some n => exact ⟨put c.mem h.1, .inl rfl⟩
  | none =>
    have h2 : ∀ p ∈ c.mem, p.2 ≠ 0 := by simpa [hu] using h.2
    simp only
    unfold assocSet
    split
    · exact ⟨h.1.filter _, .inr fun p hp => h2 p (List.mem_of_mem_filter hp)⟩
    · rename_i e
      refine ⟨put c.mem h.1, .inr fun p hp => ?_⟩
      rcases mem_assocPut hp with rfl | hp
      · exact e
      · exact h2 p hp

/-- The capture memory forgotten is canonical. -/
theorem memWf_capForget {s : State} (h : s.memWf = true) : (capForget s).memWf = true := by
  rw [memWf_iff] at h ⊢; exact ⟨h.1, h.2.1, rfl⟩

/-- The canonical form depends on the memories alone. -/
theorem memWf_congr {s t : State} (hm : t.mem = s.mem) (hf : t.flash = s.flash) (hc : t.cap = s.cap) (h : s.memWf = true) :
    t.memWf = true := by
  unfold State.memWf at h ⊢; rw [hm, hf, hc]; exact h

/-- Reset memory is canonical. -/
theorem memWf_reset : State.reset.memWf = true := rfl

end Sys2Proof.Machine
end

