-- ==== Sys2Proof/Laws/State.lean ====
section
/-!
SUPPORT. What the basic updates of the state leave alone: for each update, every field it does not write.
-/

namespace Sys2Proof.Machine

@[simp] theorem setF_rest (b : Blk) (f : Fld) (v : Nat) (s : State) :
    (setF b f v s).mem = s.mem ∧ (setF b f v s).ecc = s.ecc ∧ (setF b f v s).flash = s.flash ∧ (setF b f v s).held = s.held ∧
    (setF b f v s).elapsed = s.elapsed ∧ (setF b f v s).cycle = s.cycle ∧ (setF b f v s).aon = s.aon ∧
    (setF b f v s).fresh = s.fresh ∧ (setF b f v s).occ = s.occ ∧ (setF b f v s).evcPrev = s.evcPrev ∧
    (setF b f v s).evc = s.evc ∧ (setF b f v s).answer = s.answer ∧ (setF b f v s).free = s.free ∧
    (setF b f v s).time = s.time ∧ (setF b f v s).slotLate = s.slotLate ∧ (setF b f v s).slotOff = s.slotOff ∧
    (setF b f v s).seqs = s.seqs ∧ (setF b f v s).inbuf = s.inbuf ∧ (setF b f v s).qWait = s.qWait ∧
    (setF b f v s).fences = s.fences ∧ (setF b f v s).qs = s.qs ∧ (setF b f v s).qCommit = s.qCommit ∧
    (setF b f v s).staging = s.staging ∧ (setF b f v s).fenceSrc = s.fenceSrc ∧ (setF b f v s).alarms = s.alarms ∧
    (setF b f v s).alarmEnds = s.alarmEnds ∧ (setF b f v s).alarmRaises = s.alarmRaises ∧
    (setF b f v s).keeperPath = s.keeperPath ∧ (setF b f v s).keeperMiss = s.keeperMiss ∧ (setF b f v s).incident = s.incident ∧
    (setF b f v s).le = s.le ∧ (setF b f v s).exg = s.exg ∧ (setF b f v s).ao = s.ao ∧ (setF b f v s).ax = s.ax ∧
    (setF b f v s).lp = s.lp ∧ (setF b f v s).rg = s.rg ∧ (setF b f v s).lpEval = s.lpEval ∧ (setF b f v s).rs = s.rs ∧
    (setF b f v s).inj = s.inj ∧ (setF b f v s).cap = s.cap ∧ (setF b f v s).em = s.em ∧ (setF b f v s).pt = s.pt ∧
    (setF b f v s).lu = s.lu ∧ (setF b f v s).sec = s.sec ∧ (setF b f v s).ec = s.ec ∧ (setF b f v s).pwr = s.pwr ∧
    (setF b f v s).hp = s.hp ∧ (setF b f v s).eth = s.eth ∧ (setF b f v s).enven = s.enven ∧ (setF b f v s).keeper = s.keeper ∧
    (setF b f v s).lanes = s.lanes ∧ (setF b f v s).fe = s.fe ∧ (setF b f v s).rc = s.rc ∧ (setF b f v s).ai = s.ai ∧
    (setF b f v s).lens = s.lens ∧ (setF b f v s).pending = s.pending :=
  ⟨rfl, rfl, rfl, rfl, rfl, rfl, rfl, rfl, rfl, rfl, rfl, rfl, rfl, rfl, rfl, rfl, rfl, rfl, rfl, rfl, rfl, rfl, rfl, rfl,
    rfl, rfl, rfl, rfl, rfl, rfl, rfl, rfl, rfl, rfl, rfl, rfl, rfl, rfl, rfl, rfl, rfl, rfl, rfl, rfl, rfl, rfl, rfl, rfl,
    rfl, rfl, rfl, rfl, rfl, rfl, rfl, rfl⟩

@[simp] theorem setByte_rest (a : Nat) (v : Byte) (s : State) :
    (setByte a v s).regs = s.regs ∧ (setByte a v s).flash = s.flash ∧ (setByte a v s).held = s.held ∧
    (setByte a v s).elapsed = s.elapsed ∧ (setByte a v s).cycle = s.cycle ∧ (setByte a v s).aon = s.aon ∧
    (setByte a v s).fresh = s.fresh ∧ (setByte a v s).occ = s.occ ∧ (setByte a v s).evcPrev = s.evcPrev ∧
    (setByte a v s).evc = s.evc ∧ (setByte a v s).answer = s.answer ∧ (setByte a v s).free = s.free ∧
    (setByte a v s).time = s.time ∧ (setByte a v s).slotLate = s.slotLate ∧ (setByte a v s).slotOff = s.slotOff ∧
    (setByte a v s).seqs = s.seqs ∧ (setByte a v s).inbuf = s.inbuf ∧ (setByte a v s).qWait = s.qWait ∧
    (setByte a v s).fences = s.fences ∧ (setByte a v s).qs = s.qs ∧ (setByte a v s).qCommit = s.qCommit ∧
    (setByte a v s).staging = s.staging ∧ (setByte a v s).fenceSrc = s.fenceSrc ∧ (setByte a v s).alarms = s.alarms ∧
    (setByte a v s).alarmEnds = s.alarmEnds ∧ (setByte a v s).alarmRaises = s.alarmRaises ∧
    (setByte a v s).keeperPath = s.keeperPath ∧ (setByte a v s).keeperMiss = s.keeperMiss ∧
    (setByte a v s).incident = s.incident ∧ (setByte a v s).le = s.le ∧ (setByte a v s).exg = s.exg ∧
    (setByte a v s).ao = s.ao ∧ (setByte a v s).ax = s.ax ∧ (setByte a v s).lp = s.lp ∧ (setByte a v s).rg = s.rg ∧
    (setByte a v s).lpEval = s.lpEval ∧ (setByte a v s).rs = s.rs ∧ (setByte a v s).inj = s.inj ∧ (setByte a v s).cap = s.cap ∧
    (setByte a v s).em = s.em ∧ (setByte a v s).pt = s.pt ∧ (setByte a v s).lu = s.lu ∧ (setByte a v s).sec = s.sec ∧
    (setByte a v s).ec = s.ec ∧ (setByte a v s).pwr = s.pwr ∧ (setByte a v s).hp = s.hp ∧ (setByte a v s).eth = s.eth ∧
    (setByte a v s).enven = s.enven ∧ (setByte a v s).keeper = s.keeper ∧ (setByte a v s).lanes = s.lanes ∧
    (setByte a v s).fe = s.fe ∧ (setByte a v s).rc = s.rc ∧ (setByte a v s).ai = s.ai ∧ (setByte a v s).lens = s.lens ∧
    (setByte a v s).pending = s.pending :=
  ⟨rfl, rfl, rfl, rfl, rfl, rfl, rfl, rfl, rfl, rfl, rfl, rfl, rfl, rfl, rfl, rfl, rfl, rfl, rfl, rfl, rfl, rfl, rfl, rfl,
    rfl, rfl, rfl, rfl, rfl, rfl, rfl, rfl, rfl, rfl, rfl, rfl, rfl, rfl, rfl, rfl, rfl, rfl, rfl, rfl, rfl, rfl, rfl, rfl,
    rfl, rfl, rfl, rfl, rfl, rfl, rfl⟩

@[simp] theorem setFlash_rest (a : Nat) (v : Byte) (s : State) :
    (setFlash a v s).regs = s.regs ∧ (setFlash a v s).mem = s.mem ∧ (setFlash a v s).ecc = s.ecc ∧
    (setFlash a v s).held = s.held ∧ (setFlash a v s).elapsed = s.elapsed ∧ (setFlash a v s).cycle = s.cycle ∧
    (setFlash a v s).aon = s.aon ∧ (setFlash a v s).fresh = s.fresh ∧ (setFlash a v s).occ = s.occ ∧
    (setFlash a v s).evcPrev = s.evcPrev ∧ (setFlash a v s).evc = s.evc ∧ (setFlash a v s).answer = s.answer ∧
    (setFlash a v s).free = s.free ∧ (setFlash a v s).time = s.time ∧ (setFlash a v s).slotLate = s.slotLate ∧
    (setFlash a v s).slotOff = s.slotOff ∧ (setFlash a v s).seqs = s.seqs ∧ (setFlash a v s).inbuf = s.inbuf ∧
    (setFlash a v s).qWait = s.qWait ∧ (setFlash a v s).fences = s.fences ∧ (setFlash a v s).qs = s.qs ∧
    (setFlash a v s).qCommit = s.qCommit ∧ (setFlash a v s).staging = s.staging ∧ (setFlash a v s).fenceSrc = s.fenceSrc ∧
    (setFlash a v s).alarms = s.alarms ∧ (setFlash a v s).alarmEnds = s.alarmEnds ∧
    (setFlash a v s).alarmRaises = s.alarmRaises ∧ (setFlash a v s).keeperPath = s.keeperPath ∧
    (setFlash a v s).keeperMiss = s.keeperMiss ∧ (setFlash a v s).incident = s.incident ∧ (setFlash a v s).le = s.le ∧
    (setFlash a v s).exg = s.exg ∧ (setFlash a v s).ao = s.ao ∧ (setFlash a v s).ax = s.ax ∧ (setFlash a v s).lp = s.lp ∧
    (setFlash a v s).rg = s.rg ∧ (setFlash a v s).lpEval = s.lpEval ∧ (setFlash a v s).rs = s.rs ∧
    (setFlash a v s).inj = s.inj ∧ (setFlash a v s).cap = s.cap ∧ (setFlash a v s).em = s.em ∧ (setFlash a v s).pt = s.pt ∧
    (setFlash a v s).lu = s.lu ∧ (setFlash a v s).sec = s.sec ∧ (setFlash a v s).ec = s.ec ∧ (setFlash a v s).pwr = s.pwr ∧
    (setFlash a v s).hp = s.hp ∧ (setFlash a v s).eth = s.eth ∧ (setFlash a v s).enven = s.enven ∧
    (setFlash a v s).keeper = s.keeper ∧ (setFlash a v s).lanes = s.lanes ∧ (setFlash a v s).fe = s.fe ∧
    (setFlash a v s).rc = s.rc ∧ (setFlash a v s).ai = s.ai ∧ (setFlash a v s).lens = s.lens ∧
    (setFlash a v s).pending = s.pending :=
  ⟨rfl, rfl, rfl, rfl, rfl, rfl, rfl, rfl, rfl, rfl, rfl, rfl, rfl, rfl, rfl, rfl, rfl, rfl, rfl, rfl, rfl, rfl, rfl, rfl,
    rfl, rfl, rfl, rfl, rfl, rfl, rfl, rfl, rfl, rfl, rfl, rfl, rfl, rfl, rfl, rfl, rfl, rfl, rfl, rfl, rfl, rfl, rfl, rfl,
    rfl, rfl, rfl, rfl, rfl, rfl, rfl, rfl⟩

@[simp] theorem setWord_rest (a : Nat) (w : Word) (s : State) :
    (setWord a w s).regs = s.regs ∧ (setWord a w s).flash = s.flash ∧ (setWord a w s).held = s.held ∧
    (setWord a w s).elapsed = s.elapsed ∧ (setWord a w s).cycle = s.cycle ∧ (setWord a w s).aon = s.aon ∧
    (setWord a w s).fresh = s.fresh ∧ (setWord a w s).occ = s.occ ∧ (setWord a w s).evcPrev = s.evcPrev ∧
    (setWord a w s).evc = s.evc ∧ (setWord a w s).answer = s.answer ∧ (setWord a w s).free = s.free ∧
    (setWord a w s).time = s.time ∧ (setWord a w s).slotLate = s.slotLate ∧ (setWord a w s).slotOff = s.slotOff ∧
    (setWord a w s).seqs = s.seqs ∧ (setWord a w s).inbuf = s.inbuf ∧ (setWord a w s).qWait = s.qWait ∧
    (setWord a w s).fences = s.fences ∧ (setWord a w s).qs = s.qs ∧ (setWord a w s).qCommit = s.qCommit ∧
    (setWord a w s).staging = s.staging ∧ (setWord a w s).fenceSrc = s.fenceSrc ∧ (setWord a w s).alarms = s.alarms ∧
    (setWord a w s).alarmEnds = s.alarmEnds ∧ (setWord a w s).alarmRaises = s.alarmRaises ∧
    (setWord a w s).keeperPath = s.keeperPath ∧ (setWord a w s).keeperMiss = s.keeperMiss ∧
    (setWord a w s).incident = s.incident ∧ (setWord a w s).le = s.le ∧ (setWord a w s).exg = s.exg ∧
    (setWord a w s).ao = s.ao ∧ (setWord a w s).ax = s.ax ∧ (setWord a w s).lp = s.lp ∧ (setWord a w s).rg = s.rg ∧
    (setWord a w s).lpEval = s.lpEval ∧ (setWord a w s).rs = s.rs ∧ (setWord a w s).inj = s.inj ∧ (setWord a w s).cap = s.cap ∧
    (setWord a w s).em = s.em ∧ (setWord a w s).pt = s.pt ∧ (setWord a w s).lu = s.lu ∧ (setWord a w s).sec = s.sec ∧
    (setWord a w s).ec = s.ec ∧ (setWord a w s).pwr = s.pwr ∧ (setWord a w s).hp = s.hp ∧ (setWord a w s).eth = s.eth ∧
    (setWord a w s).enven = s.enven ∧ (setWord a w s).keeper = s.keeper ∧ (setWord a w s).lanes = s.lanes ∧
    (setWord a w s).fe = s.fe ∧ (setWord a w s).rc = s.rc ∧ (setWord a w s).ai = s.ai ∧ (setWord a w s).lens = s.lens ∧
    (setWord a w s).pending = s.pending :=
  ⟨rfl, rfl, rfl, rfl, rfl, rfl, rfl, rfl, rfl, rfl, rfl, rfl, rfl, rfl, rfl, rfl, rfl, rfl, rfl, rfl, rfl, rfl, rfl, rfl,
    rfl, rfl, rfl, rfl, rfl, rfl, rfl, rfl, rfl, rfl, rfl, rfl, rfl, rfl, rfl, rfl, rfl, rfl, rfl, rfl, rfl, rfl, rfl, rfl,
    rfl, rfl, rfl, rfl, rfl, rfl, rfl⟩

@[simp] theorem eraseFlash_rest (a n : Nat) (s : State) :
    (eraseFlash a n s).regs = s.regs ∧ (eraseFlash a n s).mem = s.mem ∧ (eraseFlash a n s).ecc = s.ecc ∧
    (eraseFlash a n s).held = s.held ∧ (eraseFlash a n s).elapsed = s.elapsed ∧ (eraseFlash a n s).cycle = s.cycle ∧
    (eraseFlash a n s).aon = s.aon ∧ (eraseFlash a n s).fresh = s.fresh ∧ (eraseFlash a n s).occ = s.occ ∧
    (eraseFlash a n s).evcPrev = s.evcPrev ∧ (eraseFlash a n s).evc = s.evc ∧ (eraseFlash a n s).answer = s.answer ∧
    (eraseFlash a n s).free = s.free ∧ (eraseFlash a n s).time = s.time ∧ (eraseFlash a n s).slotLate = s.slotLate ∧
    (eraseFlash a n s).slotOff = s.slotOff ∧ (eraseFlash a n s).seqs = s.seqs ∧ (eraseFlash a n s).inbuf = s.inbuf ∧
    (eraseFlash a n s).qWait = s.qWait ∧ (eraseFlash a n s).fences = s.fences ∧ (eraseFlash a n s).qs = s.qs ∧
    (eraseFlash a n s).qCommit = s.qCommit ∧ (eraseFlash a n s).staging = s.staging ∧ (eraseFlash a n s).fenceSrc = s.fenceSrc ∧
    (eraseFlash a n s).alarms = s.alarms ∧ (eraseFlash a n s).alarmEnds = s.alarmEnds ∧
    (eraseFlash a n s).alarmRaises = s.alarmRaises ∧ (eraseFlash a n s).keeperPath = s.keeperPath ∧
    (eraseFlash a n s).keeperMiss = s.keeperMiss ∧ (eraseFlash a n s).incident = s.incident ∧ (eraseFlash a n s).le = s.le ∧
    (eraseFlash a n s).exg = s.exg ∧ (eraseFlash a n s).ao = s.ao ∧ (eraseFlash a n s).ax = s.ax ∧
    (eraseFlash a n s).lp = s.lp ∧ (eraseFlash a n s).rg = s.rg ∧ (eraseFlash a n s).lpEval = s.lpEval ∧
    (eraseFlash a n s).rs = s.rs ∧ (eraseFlash a n s).inj = s.inj ∧ (eraseFlash a n s).cap = s.cap ∧
    (eraseFlash a n s).em = s.em ∧ (eraseFlash a n s).pt = s.pt ∧ (eraseFlash a n s).lu = s.lu ∧
    (eraseFlash a n s).sec = s.sec ∧ (eraseFlash a n s).ec = s.ec ∧ (eraseFlash a n s).pwr = s.pwr ∧
    (eraseFlash a n s).hp = s.hp ∧ (eraseFlash a n s).eth = s.eth ∧ (eraseFlash a n s).enven = s.enven ∧
    (eraseFlash a n s).keeper = s.keeper ∧ (eraseFlash a n s).lanes = s.lanes ∧ (eraseFlash a n s).fe = s.fe ∧
    (eraseFlash a n s).rc = s.rc ∧ (eraseFlash a n s).ai = s.ai ∧ (eraseFlash a n s).lens = s.lens ∧
    (eraseFlash a n s).pending = s.pending :=
  ⟨rfl, rfl, rfl, rfl, rfl, rfl, rfl, rfl, rfl, rfl, rfl, rfl, rfl, rfl, rfl, rfl, rfl, rfl, rfl, rfl, rfl, rfl, rfl, rfl,
    rfl, rfl, rfl, rfl, rfl, rfl, rfl, rfl, rfl, rfl, rfl, rfl, rfl, rfl, rfl, rfl, rfl, rfl, rfl, rfl, rfl, rfl, rfl, rfl,
    rfl, rfl, rfl, rfl, rfl, rfl, rfl, rfl⟩

@[simp] theorem freeNext_rest (s : State) :
    (freeNext s).regs = s.regs ∧ (freeNext s).mem = s.mem ∧ (freeNext s).ecc = s.ecc ∧ (freeNext s).flash = s.flash ∧
    (freeNext s).held = s.held ∧ (freeNext s).elapsed = s.elapsed ∧ (freeNext s).cycle = s.cycle ∧ (freeNext s).aon = s.aon ∧
    (freeNext s).fresh = s.fresh ∧ (freeNext s).occ = s.occ ∧ (freeNext s).evcPrev = s.evcPrev ∧ (freeNext s).evc = s.evc ∧
    (freeNext s).answer = s.answer ∧ (freeNext s).time = s.time ∧ (freeNext s).slotLate = s.slotLate ∧
    (freeNext s).slotOff = s.slotOff ∧ (freeNext s).seqs = s.seqs ∧ (freeNext s).inbuf = s.inbuf ∧
    (freeNext s).qWait = s.qWait ∧ (freeNext s).fences = s.fences ∧ (freeNext s).qs = s.qs ∧ (freeNext s).qCommit = s.qCommit ∧
    (freeNext s).staging = s.staging ∧ (freeNext s).fenceSrc = s.fenceSrc ∧ (freeNext s).alarms = s.alarms ∧
    (freeNext s).alarmEnds = s.alarmEnds ∧ (freeNext s).alarmRaises = s.alarmRaises ∧ (freeNext s).keeperPath = s.keeperPath ∧
    (freeNext s).keeperMiss = s.keeperMiss ∧ (freeNext s).incident = s.incident ∧ (freeNext s).le = s.le ∧
    (freeNext s).exg = s.exg ∧ (freeNext s).ao = s.ao ∧ (freeNext s).ax = s.ax ∧ (freeNext s).lp = s.lp ∧
    (freeNext s).rg = s.rg ∧ (freeNext s).lpEval = s.lpEval ∧ (freeNext s).rs = s.rs ∧ (freeNext s).inj = s.inj ∧
    (freeNext s).cap = s.cap ∧ (freeNext s).em = s.em ∧ (freeNext s).pt = s.pt ∧ (freeNext s).lu = s.lu ∧
    (freeNext s).sec = s.sec ∧ (freeNext s).ec = s.ec ∧ (freeNext s).pwr = s.pwr ∧ (freeNext s).hp = s.hp ∧
    (freeNext s).eth = s.eth ∧ (freeNext s).enven = s.enven ∧ (freeNext s).keeper = s.keeper ∧ (freeNext s).lanes = s.lanes ∧
    (freeNext s).fe = s.fe ∧ (freeNext s).rc = s.rc ∧ (freeNext s).ai = s.ai ∧ (freeNext s).lens = s.lens ∧
    (freeNext s).pending = s.pending :=
  ⟨rfl, rfl, rfl, rfl, rfl, rfl, rfl, rfl, rfl, rfl, rfl, rfl, rfl, rfl, rfl, rfl, rfl, rfl, rfl, rfl, rfl, rfl, rfl, rfl,
    rfl, rfl, rfl, rfl, rfl, rfl, rfl, rfl, rfl, rfl, rfl, rfl, rfl, rfl, rfl, rfl, rfl, rfl, rfl, rfl, rfl, rfl, rfl, rfl,
    rfl, rfl, rfl, rfl, rfl, rfl, rfl, rfl⟩

@[simp] theorem seqNext_rest (c i : Nat) (s : State) :
    (seqNext c i s).regs = s.regs ∧ (seqNext c i s).mem = s.mem ∧ (seqNext c i s).ecc = s.ecc ∧
    (seqNext c i s).flash = s.flash ∧ (seqNext c i s).held = s.held ∧ (seqNext c i s).elapsed = s.elapsed ∧
    (seqNext c i s).cycle = s.cycle ∧ (seqNext c i s).aon = s.aon ∧ (seqNext c i s).fresh = s.fresh ∧
    (seqNext c i s).occ = s.occ ∧ (seqNext c i s).evcPrev = s.evcPrev ∧ (seqNext c i s).evc = s.evc ∧
    (seqNext c i s).answer = s.answer ∧ (seqNext c i s).free = s.free ∧ (seqNext c i s).time = s.time ∧
    (seqNext c i s).slotLate = s.slotLate ∧ (seqNext c i s).slotOff = s.slotOff ∧ (seqNext c i s).inbuf = s.inbuf ∧
    (seqNext c i s).qWait = s.qWait ∧ (seqNext c i s).fences = s.fences ∧ (seqNext c i s).qs = s.qs ∧
    (seqNext c i s).qCommit = s.qCommit ∧ (seqNext c i s).staging = s.staging ∧ (seqNext c i s).fenceSrc = s.fenceSrc ∧
    (seqNext c i s).alarms = s.alarms ∧ (seqNext c i s).alarmEnds = s.alarmEnds ∧ (seqNext c i s).alarmRaises = s.alarmRaises ∧
    (seqNext c i s).keeperPath = s.keeperPath ∧ (seqNext c i s).keeperMiss = s.keeperMiss ∧
    (seqNext c i s).incident = s.incident ∧ (seqNext c i s).le = s.le ∧ (seqNext c i s).exg = s.exg ∧
    (seqNext c i s).ao = s.ao ∧ (seqNext c i s).ax = s.ax ∧ (seqNext c i s).lp = s.lp ∧ (seqNext c i s).rg = s.rg ∧
    (seqNext c i s).lpEval = s.lpEval ∧ (seqNext c i s).rs = s.rs ∧ (seqNext c i s).inj = s.inj ∧ (seqNext c i s).cap = s.cap ∧
    (seqNext c i s).em = s.em ∧ (seqNext c i s).pt = s.pt ∧ (seqNext c i s).lu = s.lu ∧ (seqNext c i s).sec = s.sec ∧
    (seqNext c i s).ec = s.ec ∧ (seqNext c i s).pwr = s.pwr ∧ (seqNext c i s).hp = s.hp ∧ (seqNext c i s).eth = s.eth ∧
    (seqNext c i s).enven = s.enven ∧ (seqNext c i s).keeper = s.keeper ∧ (seqNext c i s).lanes = s.lanes ∧
    (seqNext c i s).fe = s.fe ∧ (seqNext c i s).rc = s.rc ∧ (seqNext c i s).ai = s.ai ∧ (seqNext c i s).lens = s.lens ∧
    (seqNext c i s).pending = s.pending :=
  ⟨rfl, rfl, rfl, rfl, rfl, rfl, rfl, rfl, rfl, rfl, rfl, rfl, rfl, rfl, rfl, rfl, rfl, rfl, rfl, rfl, rfl, rfl, rfl, rfl,
    rfl, rfl, rfl, rfl, rfl, rfl, rfl, rfl, rfl, rfl, rfl, rfl, rfl, rfl, rfl, rfl, rfl, rfl, rfl, rfl, rfl, rfl, rfl, rfl,
    rfl, rfl, rfl, rfl, rfl, rfl, rfl, rfl⟩

@[simp] theorem State.take_rest (r : List Instr) (s : State) :
    (s.take r).regs = s.regs ∧ (s.take r).mem = s.mem ∧ (s.take r).ecc = s.ecc ∧ (s.take r).flash = s.flash ∧
    (s.take r).held = s.held ∧ (s.take r).elapsed = s.elapsed ∧ (s.take r).cycle = s.cycle ∧ (s.take r).aon = s.aon ∧
    (s.take r).fresh = s.fresh ∧ (s.take r).occ = s.occ ∧ (s.take r).evcPrev = s.evcPrev ∧ (s.take r).evc = s.evc ∧
    (s.take r).answer = s.answer ∧ (s.take r).free = s.free ∧ (s.take r).time = s.time ∧ (s.take r).slotLate = s.slotLate ∧
    (s.take r).slotOff = s.slotOff ∧ (s.take r).seqs = s.seqs ∧ (s.take r).inbuf = s.inbuf ∧ (s.take r).qWait = s.qWait ∧
    (s.take r).fences = s.fences ∧ (s.take r).qs = s.qs ∧ (s.take r).qCommit = s.qCommit ∧ (s.take r).staging = s.staging ∧
    (s.take r).fenceSrc = s.fenceSrc ∧ (s.take r).alarms = s.alarms ∧ (s.take r).alarmEnds = s.alarmEnds ∧
    (s.take r).alarmRaises = s.alarmRaises ∧ (s.take r).keeperPath = s.keeperPath ∧ (s.take r).keeperMiss = s.keeperMiss ∧
    (s.take r).incident = s.incident ∧ (s.take r).le = s.le ∧ (s.take r).exg = s.exg ∧ (s.take r).ao = s.ao ∧
    (s.take r).ax = s.ax ∧ (s.take r).lp = s.lp ∧ (s.take r).rg = s.rg ∧ (s.take r).lpEval = s.lpEval ∧ (s.take r).rs = s.rs ∧
    (s.take r).inj = s.inj ∧ (s.take r).cap = s.cap ∧ (s.take r).em = s.em ∧ (s.take r).pt = s.pt ∧ (s.take r).lu = s.lu ∧
    (s.take r).sec = s.sec ∧ (s.take r).ec = s.ec ∧ (s.take r).pwr = s.pwr ∧ (s.take r).hp = s.hp ∧ (s.take r).eth = s.eth ∧
    (s.take r).enven = s.enven ∧ (s.take r).keeper = s.keeper ∧ (s.take r).lanes = s.lanes ∧ (s.take r).fe = s.fe ∧
    (s.take r).rc = s.rc ∧ (s.take r).ai = s.ai ∧ (s.take r).lens = s.lens :=
  ⟨rfl, rfl, rfl, rfl, rfl, rfl, rfl, rfl, rfl, rfl, rfl, rfl, rfl, rfl, rfl, rfl, rfl, rfl, rfl, rfl, rfl, rfl, rfl, rfl,
    rfl, rfl, rfl, rfl, rfl, rfl, rfl, rfl, rfl, rfl, rfl, rfl, rfl, rfl, rfl, rfl, rfl, rfl, rfl, rfl, rfl, rfl, rfl, rfl,
    rfl, rfl, rfl, rfl, rfl, rfl, rfl, rfl⟩

@[simp] theorem State.enqueueFront_rest (c : Instr) (s : State) :
    (s.enqueueFront c).regs = s.regs ∧ (s.enqueueFront c).mem = s.mem ∧ (s.enqueueFront c).ecc = s.ecc ∧
    (s.enqueueFront c).flash = s.flash ∧ (s.enqueueFront c).held = s.held ∧ (s.enqueueFront c).elapsed = s.elapsed ∧
    (s.enqueueFront c).cycle = s.cycle ∧ (s.enqueueFront c).aon = s.aon ∧ (s.enqueueFront c).fresh = s.fresh ∧
    (s.enqueueFront c).occ = s.occ ∧ (s.enqueueFront c).evcPrev = s.evcPrev ∧ (s.enqueueFront c).evc = s.evc ∧
    (s.enqueueFront c).answer = s.answer ∧ (s.enqueueFront c).free = s.free ∧ (s.enqueueFront c).time = s.time ∧
    (s.enqueueFront c).slotLate = s.slotLate ∧ (s.enqueueFront c).slotOff = s.slotOff ∧ (s.enqueueFront c).seqs = s.seqs ∧
    (s.enqueueFront c).inbuf = s.inbuf ∧ (s.enqueueFront c).qWait = s.qWait ∧ (s.enqueueFront c).fences = s.fences ∧
    (s.enqueueFront c).qs = s.qs ∧ (s.enqueueFront c).qCommit = s.qCommit ∧ (s.enqueueFront c).staging = s.staging ∧
    (s.enqueueFront c).fenceSrc = s.fenceSrc ∧ (s.enqueueFront c).alarms = s.alarms ∧
    (s.enqueueFront c).alarmEnds = s.alarmEnds ∧ (s.enqueueFront c).alarmRaises = s.alarmRaises ∧
    (s.enqueueFront c).keeperPath = s.keeperPath ∧ (s.enqueueFront c).keeperMiss = s.keeperMiss ∧
    (s.enqueueFront c).incident = s.incident ∧ (s.enqueueFront c).le = s.le ∧ (s.enqueueFront c).exg = s.exg ∧
    (s.enqueueFront c).ao = s.ao ∧ (s.enqueueFront c).ax = s.ax ∧ (s.enqueueFront c).lp = s.lp ∧ (s.enqueueFront c).rg = s.rg ∧
    (s.enqueueFront c).lpEval = s.lpEval ∧ (s.enqueueFront c).rs = s.rs ∧ (s.enqueueFront c).inj = s.inj ∧
    (s.enqueueFront c).cap = s.cap ∧ (s.enqueueFront c).em = s.em ∧ (s.enqueueFront c).pt = s.pt ∧
    (s.enqueueFront c).lu = s.lu ∧ (s.enqueueFront c).sec = s.sec ∧ (s.enqueueFront c).ec = s.ec ∧
    (s.enqueueFront c).pwr = s.pwr ∧ (s.enqueueFront c).hp = s.hp ∧ (s.enqueueFront c).eth = s.eth ∧
    (s.enqueueFront c).enven = s.enven ∧ (s.enqueueFront c).keeper = s.keeper ∧ (s.enqueueFront c).lanes = s.lanes ∧
    (s.enqueueFront c).fe = s.fe ∧ (s.enqueueFront c).rc = s.rc ∧ (s.enqueueFront c).ai = s.ai ∧
    (s.enqueueFront c).lens = s.lens :=
  ⟨rfl, rfl, rfl, rfl, rfl, rfl, rfl, rfl, rfl, rfl, rfl, rfl, rfl, rfl, rfl, rfl, rfl, rfl, rfl, rfl, rfl, rfl, rfl, rfl,
    rfl, rfl, rfl, rfl, rfl, rfl, rfl, rfl, rfl, rfl, rfl, rfl, rfl, rfl, rfl, rfl, rfl, rfl, rfl, rfl, rfl, rfl, rfl, rfl,
    rfl, rfl, rfl, rfl, rfl, rfl, rfl, rfl⟩

@[simp] theorem setAlarm_rest (i : Fin 132) (e : AlarmEntry) (s : State) :
    (setAlarm i e s).regs = s.regs ∧ (setAlarm i e s).mem = s.mem ∧ (setAlarm i e s).ecc = s.ecc ∧
    (setAlarm i e s).flash = s.flash ∧ (setAlarm i e s).held = s.held ∧ (setAlarm i e s).elapsed = s.elapsed ∧
    (setAlarm i e s).cycle = s.cycle ∧ (setAlarm i e s).aon = s.aon ∧ (setAlarm i e s).fresh = s.fresh ∧
    (setAlarm i e s).occ = s.occ ∧ (setAlarm i e s).evcPrev = s.evcPrev ∧ (setAlarm i e s).evc = s.evc ∧
    (setAlarm i e s).answer = s.answer ∧ (setAlarm i e s).free = s.free ∧ (setAlarm i e s).time = s.time ∧
    (setAlarm i e s).slotLate = s.slotLate ∧ (setAlarm i e s).slotOff = s.slotOff ∧ (setAlarm i e s).seqs = s.seqs ∧
    (setAlarm i e s).inbuf = s.inbuf ∧ (setAlarm i e s).qWait = s.qWait ∧ (setAlarm i e s).fences = s.fences ∧
    (setAlarm i e s).qs = s.qs ∧ (setAlarm i e s).qCommit = s.qCommit ∧ (setAlarm i e s).staging = s.staging ∧
    (setAlarm i e s).fenceSrc = s.fenceSrc ∧ (setAlarm i e s).alarmEnds = s.alarmEnds ∧
    (setAlarm i e s).alarmRaises = s.alarmRaises ∧ (setAlarm i e s).keeperPath = s.keeperPath ∧
    (setAlarm i e s).keeperMiss = s.keeperMiss ∧ (setAlarm i e s).incident = s.incident ∧ (setAlarm i e s).le = s.le ∧
    (setAlarm i e s).exg = s.exg ∧ (setAlarm i e s).ao = s.ao ∧ (setAlarm i e s).ax = s.ax ∧ (setAlarm i e s).lp = s.lp ∧
    (setAlarm i e s).rg = s.rg ∧ (setAlarm i e s).lpEval = s.lpEval ∧ (setAlarm i e s).rs = s.rs ∧
    (setAlarm i e s).inj = s.inj ∧ (setAlarm i e s).cap = s.cap ∧ (setAlarm i e s).em = s.em ∧ (setAlarm i e s).pt = s.pt ∧
    (setAlarm i e s).lu = s.lu ∧ (setAlarm i e s).sec = s.sec ∧ (setAlarm i e s).ec = s.ec ∧ (setAlarm i e s).pwr = s.pwr ∧
    (setAlarm i e s).hp = s.hp ∧ (setAlarm i e s).eth = s.eth ∧ (setAlarm i e s).enven = s.enven ∧
    (setAlarm i e s).keeper = s.keeper ∧ (setAlarm i e s).lanes = s.lanes ∧ (setAlarm i e s).fe = s.fe ∧
    (setAlarm i e s).rc = s.rc ∧ (setAlarm i e s).ai = s.ai ∧ (setAlarm i e s).lens = s.lens ∧
    (setAlarm i e s).pending = s.pending :=
  ⟨rfl, rfl, rfl, rfl, rfl, rfl, rfl, rfl, rfl, rfl, rfl, rfl, rfl, rfl, rfl, rfl, rfl, rfl, rfl, rfl, rfl, rfl, rfl, rfl,
    rfl, rfl, rfl, rfl, rfl, rfl, rfl, rfl, rfl, rfl, rfl, rfl, rfl, rfl, rfl, rfl, rfl, rfl, rfl, rfl, rfl, rfl, rfl, rfl,
    rfl, rfl, rfl, rfl, rfl, rfl, rfl, rfl⟩

@[simp] theorem modTime_rest (g : TimeSt → TimeSt) (s : State) :
    (modTime g s).regs = s.regs ∧ (modTime g s).mem = s.mem ∧ (modTime g s).ecc = s.ecc ∧ (modTime g s).flash = s.flash ∧
    (modTime g s).held = s.held ∧ (modTime g s).elapsed = s.elapsed ∧ (modTime g s).cycle = s.cycle ∧
    (modTime g s).aon = s.aon ∧ (modTime g s).fresh = s.fresh ∧ (modTime g s).occ = s.occ ∧ (modTime g s).evcPrev = s.evcPrev ∧
    (modTime g s).evc = s.evc ∧ (modTime g s).answer = s.answer ∧ (modTime g s).free = s.free ∧
    (modTime g s).slotLate = s.slotLate ∧ (modTime g s).slotOff = s.slotOff ∧ (modTime g s).seqs = s.seqs ∧
    (modTime g s).inbuf = s.inbuf ∧ (modTime g s).qWait = s.qWait ∧ (modTime g s).fences = s.fences ∧ (modTime g s).qs = s.qs ∧
    (modTime g s).qCommit = s.qCommit ∧ (modTime g s).staging = s.staging ∧ (modTime g s).fenceSrc = s.fenceSrc ∧
    (modTime g s).alarms = s.alarms ∧ (modTime g s).alarmEnds = s.alarmEnds ∧ (modTime g s).alarmRaises = s.alarmRaises ∧
    (modTime g s).keeperPath = s.keeperPath ∧ (modTime g s).keeperMiss = s.keeperMiss ∧ (modTime g s).incident = s.incident ∧
    (modTime g s).le = s.le ∧ (modTime g s).exg = s.exg ∧ (modTime g s).ao = s.ao ∧ (modTime g s).ax = s.ax ∧
    (modTime g s).lp = s.lp ∧ (modTime g s).rg = s.rg ∧ (modTime g s).lpEval = s.lpEval ∧ (modTime g s).rs = s.rs ∧
    (modTime g s).inj = s.inj ∧ (modTime g s).cap = s.cap ∧ (modTime g s).em = s.em ∧ (modTime g s).pt = s.pt ∧
    (modTime g s).lu = s.lu ∧ (modTime g s).sec = s.sec ∧ (modTime g s).ec = s.ec ∧ (modTime g s).pwr = s.pwr ∧
    (modTime g s).hp = s.hp ∧ (modTime g s).eth = s.eth ∧ (modTime g s).enven = s.enven ∧ (modTime g s).keeper = s.keeper ∧
    (modTime g s).lanes = s.lanes ∧ (modTime g s).fe = s.fe ∧ (modTime g s).rc = s.rc ∧ (modTime g s).ai = s.ai ∧
    (modTime g s).lens = s.lens ∧ (modTime g s).pending = s.pending :=
  ⟨rfl, rfl, rfl, rfl, rfl, rfl, rfl, rfl, rfl, rfl, rfl, rfl, rfl, rfl, rfl, rfl, rfl, rfl, rfl, rfl, rfl, rfl, rfl, rfl,
    rfl, rfl, rfl, rfl, rfl, rfl, rfl, rfl, rfl, rfl, rfl, rfl, rfl, rfl, rfl, rfl, rfl, rfl, rfl, rfl, rfl, rfl, rfl, rfl,
    rfl, rfl, rfl, rfl, rfl, rfl, rfl, rfl⟩

@[simp] theorem modCap_rest (g : CapSt → CapSt) (s : State) :
    (modCap g s).regs = s.regs ∧ (modCap g s).mem = s.mem ∧ (modCap g s).ecc = s.ecc ∧ (modCap g s).flash = s.flash ∧
    (modCap g s).held = s.held ∧ (modCap g s).elapsed = s.elapsed ∧ (modCap g s).cycle = s.cycle ∧ (modCap g s).aon = s.aon ∧
    (modCap g s).fresh = s.fresh ∧ (modCap g s).occ = s.occ ∧ (modCap g s).evcPrev = s.evcPrev ∧ (modCap g s).evc = s.evc ∧
    (modCap g s).answer = s.answer ∧ (modCap g s).free = s.free ∧ (modCap g s).time = s.time ∧
    (modCap g s).slotLate = s.slotLate ∧ (modCap g s).slotOff = s.slotOff ∧ (modCap g s).seqs = s.seqs ∧
    (modCap g s).inbuf = s.inbuf ∧ (modCap g s).qWait = s.qWait ∧ (modCap g s).fences = s.fences ∧ (modCap g s).qs = s.qs ∧
    (modCap g s).qCommit = s.qCommit ∧ (modCap g s).staging = s.staging ∧ (modCap g s).fenceSrc = s.fenceSrc ∧
    (modCap g s).alarms = s.alarms ∧ (modCap g s).alarmEnds = s.alarmEnds ∧ (modCap g s).alarmRaises = s.alarmRaises ∧
    (modCap g s).keeperPath = s.keeperPath ∧ (modCap g s).keeperMiss = s.keeperMiss ∧ (modCap g s).incident = s.incident ∧
    (modCap g s).le = s.le ∧ (modCap g s).exg = s.exg ∧ (modCap g s).ao = s.ao ∧ (modCap g s).ax = s.ax ∧
    (modCap g s).lp = s.lp ∧ (modCap g s).rg = s.rg ∧ (modCap g s).lpEval = s.lpEval ∧ (modCap g s).rs = s.rs ∧
    (modCap g s).inj = s.inj ∧ (modCap g s).em = s.em ∧ (modCap g s).pt = s.pt ∧ (modCap g s).lu = s.lu ∧
    (modCap g s).sec = s.sec ∧ (modCap g s).ec = s.ec ∧ (modCap g s).pwr = s.pwr ∧ (modCap g s).hp = s.hp ∧
    (modCap g s).eth = s.eth ∧ (modCap g s).enven = s.enven ∧ (modCap g s).keeper = s.keeper ∧ (modCap g s).lanes = s.lanes ∧
    (modCap g s).fe = s.fe ∧ (modCap g s).rc = s.rc ∧ (modCap g s).ai = s.ai ∧ (modCap g s).lens = s.lens ∧
    (modCap g s).pending = s.pending :=
  ⟨rfl, rfl, rfl, rfl, rfl, rfl, rfl, rfl, rfl, rfl, rfl, rfl, rfl, rfl, rfl, rfl, rfl, rfl, rfl, rfl, rfl, rfl, rfl, rfl,
    rfl, rfl, rfl, rfl, rfl, rfl, rfl, rfl, rfl, rfl, rfl, rfl, rfl, rfl, rfl, rfl, rfl, rfl, rfl, rfl, rfl, rfl, rfl, rfl,
    rfl, rfl, rfl, rfl, rfl, rfl, rfl, rfl⟩

@[simp] theorem modEc_rest (g : EcSt → EcSt) (s : State) :
    (modEc g s).regs = s.regs ∧ (modEc g s).mem = s.mem ∧ (modEc g s).ecc = s.ecc ∧ (modEc g s).flash = s.flash ∧
    (modEc g s).held = s.held ∧ (modEc g s).elapsed = s.elapsed ∧ (modEc g s).cycle = s.cycle ∧ (modEc g s).aon = s.aon ∧
    (modEc g s).fresh = s.fresh ∧ (modEc g s).occ = s.occ ∧ (modEc g s).evcPrev = s.evcPrev ∧ (modEc g s).evc = s.evc ∧
    (modEc g s).answer = s.answer ∧ (modEc g s).free = s.free ∧ (modEc g s).time = s.time ∧ (modEc g s).slotLate = s.slotLate ∧
    (modEc g s).slotOff = s.slotOff ∧ (modEc g s).seqs = s.seqs ∧ (modEc g s).inbuf = s.inbuf ∧ (modEc g s).qWait = s.qWait ∧
    (modEc g s).fences = s.fences ∧ (modEc g s).qs = s.qs ∧ (modEc g s).qCommit = s.qCommit ∧ (modEc g s).staging = s.staging ∧
    (modEc g s).fenceSrc = s.fenceSrc ∧ (modEc g s).alarms = s.alarms ∧ (modEc g s).alarmEnds = s.alarmEnds ∧
    (modEc g s).alarmRaises = s.alarmRaises ∧ (modEc g s).keeperPath = s.keeperPath ∧ (modEc g s).keeperMiss = s.keeperMiss ∧
    (modEc g s).incident = s.incident ∧ (modEc g s).le = s.le ∧ (modEc g s).exg = s.exg ∧ (modEc g s).ao = s.ao ∧
    (modEc g s).ax = s.ax ∧ (modEc g s).lp = s.lp ∧ (modEc g s).rg = s.rg ∧ (modEc g s).lpEval = s.lpEval ∧
    (modEc g s).rs = s.rs ∧ (modEc g s).inj = s.inj ∧ (modEc g s).cap = s.cap ∧ (modEc g s).em = s.em ∧ (modEc g s).pt = s.pt ∧
    (modEc g s).lu = s.lu ∧ (modEc g s).sec = s.sec ∧ (modEc g s).pwr = s.pwr ∧ (modEc g s).hp = s.hp ∧
    (modEc g s).eth = s.eth ∧ (modEc g s).enven = s.enven ∧ (modEc g s).keeper = s.keeper ∧ (modEc g s).lanes = s.lanes ∧
    (modEc g s).fe = s.fe ∧ (modEc g s).rc = s.rc ∧ (modEc g s).ai = s.ai ∧ (modEc g s).lens = s.lens ∧
    (modEc g s).pending = s.pending :=
  ⟨rfl, rfl, rfl, rfl, rfl, rfl, rfl, rfl, rfl, rfl, rfl, rfl, rfl, rfl, rfl, rfl, rfl, rfl, rfl, rfl, rfl, rfl, rfl, rfl,
    rfl, rfl, rfl, rfl, rfl, rfl, rfl, rfl, rfl, rfl, rfl, rfl, rfl, rfl, rfl, rfl, rfl, rfl, rfl, rfl, rfl, rfl, rfl, rfl,
    rfl, rfl, rfl, rfl, rfl, rfl, rfl, rfl⟩

@[simp] theorem modEnven_rest (g : EnvenSt → EnvenSt) (s : State) :
    (modEnven g s).regs = s.regs ∧ (modEnven g s).mem = s.mem ∧ (modEnven g s).ecc = s.ecc ∧ (modEnven g s).flash = s.flash ∧
    (modEnven g s).held = s.held ∧ (modEnven g s).elapsed = s.elapsed ∧ (modEnven g s).cycle = s.cycle ∧
    (modEnven g s).aon = s.aon ∧ (modEnven g s).fresh = s.fresh ∧ (modEnven g s).occ = s.occ ∧
    (modEnven g s).evcPrev = s.evcPrev ∧ (modEnven g s).evc = s.evc ∧ (modEnven g s).answer = s.answer ∧
    (modEnven g s).free = s.free ∧ (modEnven g s).time = s.time ∧ (modEnven g s).slotLate = s.slotLate ∧
    (modEnven g s).slotOff = s.slotOff ∧ (modEnven g s).seqs = s.seqs ∧ (modEnven g s).inbuf = s.inbuf ∧
    (modEnven g s).qWait = s.qWait ∧ (modEnven g s).fences = s.fences ∧ (modEnven g s).qs = s.qs ∧
    (modEnven g s).qCommit = s.qCommit ∧ (modEnven g s).staging = s.staging ∧ (modEnven g s).fenceSrc = s.fenceSrc ∧
    (modEnven g s).alarms = s.alarms ∧ (modEnven g s).alarmEnds = s.alarmEnds ∧ (modEnven g s).alarmRaises = s.alarmRaises ∧
    (modEnven g s).keeperPath = s.keeperPath ∧ (modEnven g s).keeperMiss = s.keeperMiss ∧ (modEnven g s).incident = s.incident ∧
    (modEnven g s).le = s.le ∧ (modEnven g s).exg = s.exg ∧ (modEnven g s).ao = s.ao ∧ (modEnven g s).ax = s.ax ∧
    (modEnven g s).lp = s.lp ∧ (modEnven g s).rg = s.rg ∧ (modEnven g s).lpEval = s.lpEval ∧ (modEnven g s).rs = s.rs ∧
    (modEnven g s).inj = s.inj ∧ (modEnven g s).cap = s.cap ∧ (modEnven g s).em = s.em ∧ (modEnven g s).pt = s.pt ∧
    (modEnven g s).lu = s.lu ∧ (modEnven g s).sec = s.sec ∧ (modEnven g s).ec = s.ec ∧ (modEnven g s).pwr = s.pwr ∧
    (modEnven g s).hp = s.hp ∧ (modEnven g s).eth = s.eth ∧ (modEnven g s).keeper = s.keeper ∧ (modEnven g s).lanes = s.lanes ∧
    (modEnven g s).fe = s.fe ∧ (modEnven g s).rc = s.rc ∧ (modEnven g s).ai = s.ai ∧ (modEnven g s).lens = s.lens ∧
    (modEnven g s).pending = s.pending :=
  ⟨rfl, rfl, rfl, rfl, rfl, rfl, rfl, rfl, rfl, rfl, rfl, rfl, rfl, rfl, rfl, rfl, rfl, rfl, rfl, rfl, rfl, rfl, rfl, rfl,
    rfl, rfl, rfl, rfl, rfl, rfl, rfl, rfl, rfl, rfl, rfl, rfl, rfl, rfl, rfl, rfl, rfl, rfl, rfl, rfl, rfl, rfl, rfl, rfl,
    rfl, rfl, rfl, rfl, rfl, rfl, rfl, rfl⟩

@[simp] theorem modHp_rest (g : HpSt → HpSt) (s : State) :
    (modHp g s).regs = s.regs ∧ (modHp g s).mem = s.mem ∧ (modHp g s).ecc = s.ecc ∧ (modHp g s).flash = s.flash ∧
    (modHp g s).held = s.held ∧ (modHp g s).elapsed = s.elapsed ∧ (modHp g s).cycle = s.cycle ∧ (modHp g s).aon = s.aon ∧
    (modHp g s).fresh = s.fresh ∧ (modHp g s).occ = s.occ ∧ (modHp g s).evcPrev = s.evcPrev ∧ (modHp g s).evc = s.evc ∧
    (modHp g s).answer = s.answer ∧ (modHp g s).free = s.free ∧ (modHp g s).time = s.time ∧ (modHp g s).slotLate = s.slotLate ∧
    (modHp g s).slotOff = s.slotOff ∧ (modHp g s).seqs = s.seqs ∧ (modHp g s).inbuf = s.inbuf ∧ (modHp g s).qWait = s.qWait ∧
    (modHp g s).fences = s.fences ∧ (modHp g s).qs = s.qs ∧ (modHp g s).qCommit = s.qCommit ∧ (modHp g s).staging = s.staging ∧
    (modHp g s).fenceSrc = s.fenceSrc ∧ (modHp g s).alarms = s.alarms ∧ (modHp g s).alarmEnds = s.alarmEnds ∧
    (modHp g s).alarmRaises = s.alarmRaises ∧ (modHp g s).keeperPath = s.keeperPath ∧ (modHp g s).keeperMiss = s.keeperMiss ∧
    (modHp g s).incident = s.incident ∧ (modHp g s).le = s.le ∧ (modHp g s).exg = s.exg ∧ (modHp g s).ao = s.ao ∧
    (modHp g s).ax = s.ax ∧ (modHp g s).lp = s.lp ∧ (modHp g s).rg = s.rg ∧ (modHp g s).lpEval = s.lpEval ∧
    (modHp g s).rs = s.rs ∧ (modHp g s).inj = s.inj ∧ (modHp g s).cap = s.cap ∧ (modHp g s).em = s.em ∧ (modHp g s).pt = s.pt ∧
    (modHp g s).lu = s.lu ∧ (modHp g s).sec = s.sec ∧ (modHp g s).ec = s.ec ∧ (modHp g s).pwr = s.pwr ∧
    (modHp g s).eth = s.eth ∧ (modHp g s).enven = s.enven ∧ (modHp g s).keeper = s.keeper ∧ (modHp g s).lanes = s.lanes ∧
    (modHp g s).fe = s.fe ∧ (modHp g s).rc = s.rc ∧ (modHp g s).ai = s.ai ∧ (modHp g s).lens = s.lens ∧
    (modHp g s).pending = s.pending :=
  ⟨rfl, rfl, rfl, rfl, rfl, rfl, rfl, rfl, rfl, rfl, rfl, rfl, rfl, rfl, rfl, rfl, rfl, rfl, rfl, rfl, rfl, rfl, rfl, rfl,
    rfl, rfl, rfl, rfl, rfl, rfl, rfl, rfl, rfl, rfl, rfl, rfl, rfl, rfl, rfl, rfl, rfl, rfl, rfl, rfl, rfl, rfl, rfl, rfl,
    rfl, rfl, rfl, rfl, rfl, rfl, rfl, rfl⟩

@[simp] theorem modPwr_rest (g : PwrSt → PwrSt) (s : State) :
    (modPwr g s).regs = s.regs ∧ (modPwr g s).mem = s.mem ∧ (modPwr g s).ecc = s.ecc ∧ (modPwr g s).flash = s.flash ∧
    (modPwr g s).held = s.held ∧ (modPwr g s).elapsed = s.elapsed ∧ (modPwr g s).cycle = s.cycle ∧ (modPwr g s).aon = s.aon ∧
    (modPwr g s).fresh = s.fresh ∧ (modPwr g s).occ = s.occ ∧ (modPwr g s).evcPrev = s.evcPrev ∧ (modPwr g s).evc = s.evc ∧
    (modPwr g s).answer = s.answer ∧ (modPwr g s).free = s.free ∧ (modPwr g s).time = s.time ∧
    (modPwr g s).slotLate = s.slotLate ∧ (modPwr g s).slotOff = s.slotOff ∧ (modPwr g s).seqs = s.seqs ∧
    (modPwr g s).inbuf = s.inbuf ∧ (modPwr g s).qWait = s.qWait ∧ (modPwr g s).fences = s.fences ∧ (modPwr g s).qs = s.qs ∧
    (modPwr g s).qCommit = s.qCommit ∧ (modPwr g s).staging = s.staging ∧ (modPwr g s).fenceSrc = s.fenceSrc ∧
    (modPwr g s).alarms = s.alarms ∧ (modPwr g s).alarmEnds = s.alarmEnds ∧ (modPwr g s).alarmRaises = s.alarmRaises ∧
    (modPwr g s).keeperPath = s.keeperPath ∧ (modPwr g s).keeperMiss = s.keeperMiss ∧ (modPwr g s).incident = s.incident ∧
    (modPwr g s).le = s.le ∧ (modPwr g s).exg = s.exg ∧ (modPwr g s).ao = s.ao ∧ (modPwr g s).ax = s.ax ∧
    (modPwr g s).lp = s.lp ∧ (modPwr g s).rg = s.rg ∧ (modPwr g s).lpEval = s.lpEval ∧ (modPwr g s).rs = s.rs ∧
    (modPwr g s).inj = s.inj ∧ (modPwr g s).cap = s.cap ∧ (modPwr g s).em = s.em ∧ (modPwr g s).pt = s.pt ∧
    (modPwr g s).lu = s.lu ∧ (modPwr g s).sec = s.sec ∧ (modPwr g s).ec = s.ec ∧ (modPwr g s).hp = s.hp ∧
    (modPwr g s).eth = s.eth ∧ (modPwr g s).enven = s.enven ∧ (modPwr g s).keeper = s.keeper ∧ (modPwr g s).lanes = s.lanes ∧
    (modPwr g s).fe = s.fe ∧ (modPwr g s).rc = s.rc ∧ (modPwr g s).ai = s.ai ∧ (modPwr g s).lens = s.lens ∧
    (modPwr g s).pending = s.pending :=
  ⟨rfl, rfl, rfl, rfl, rfl, rfl, rfl, rfl, rfl, rfl, rfl, rfl, rfl, rfl, rfl, rfl, rfl, rfl, rfl, rfl, rfl, rfl, rfl, rfl,
    rfl, rfl, rfl, rfl, rfl, rfl, rfl, rfl, rfl, rfl, rfl, rfl, rfl, rfl, rfl, rfl, rfl, rfl, rfl, rfl, rfl, rfl, rfl, rfl,
    rfl, rfl, rfl, rfl, rfl, rfl, rfl, rfl⟩

@[simp] theorem modKeeper_rest (g : KeeperSt → KeeperSt) (s : State) :
    (modKeeper g s).regs = s.regs ∧ (modKeeper g s).mem = s.mem ∧ (modKeeper g s).ecc = s.ecc ∧
    (modKeeper g s).flash = s.flash ∧ (modKeeper g s).held = s.held ∧ (modKeeper g s).elapsed = s.elapsed ∧
    (modKeeper g s).cycle = s.cycle ∧ (modKeeper g s).aon = s.aon ∧ (modKeeper g s).fresh = s.fresh ∧
    (modKeeper g s).occ = s.occ ∧ (modKeeper g s).evcPrev = s.evcPrev ∧ (modKeeper g s).evc = s.evc ∧
    (modKeeper g s).answer = s.answer ∧ (modKeeper g s).free = s.free ∧ (modKeeper g s).time = s.time ∧
    (modKeeper g s).slotLate = s.slotLate ∧ (modKeeper g s).slotOff = s.slotOff ∧ (modKeeper g s).seqs = s.seqs ∧
    (modKeeper g s).inbuf = s.inbuf ∧ (modKeeper g s).qWait = s.qWait ∧ (modKeeper g s).fences = s.fences ∧
    (modKeeper g s).qs = s.qs ∧ (modKeeper g s).qCommit = s.qCommit ∧ (modKeeper g s).staging = s.staging ∧
    (modKeeper g s).fenceSrc = s.fenceSrc ∧ (modKeeper g s).alarms = s.alarms ∧ (modKeeper g s).alarmEnds = s.alarmEnds ∧
    (modKeeper g s).alarmRaises = s.alarmRaises ∧ (modKeeper g s).keeperPath = s.keeperPath ∧
    (modKeeper g s).keeperMiss = s.keeperMiss ∧ (modKeeper g s).incident = s.incident ∧ (modKeeper g s).le = s.le ∧
    (modKeeper g s).exg = s.exg ∧ (modKeeper g s).ao = s.ao ∧ (modKeeper g s).ax = s.ax ∧ (modKeeper g s).lp = s.lp ∧
    (modKeeper g s).rg = s.rg ∧ (modKeeper g s).lpEval = s.lpEval ∧ (modKeeper g s).rs = s.rs ∧ (modKeeper g s).inj = s.inj ∧
    (modKeeper g s).cap = s.cap ∧ (modKeeper g s).em = s.em ∧ (modKeeper g s).pt = s.pt ∧ (modKeeper g s).lu = s.lu ∧
    (modKeeper g s).sec = s.sec ∧ (modKeeper g s).ec = s.ec ∧ (modKeeper g s).pwr = s.pwr ∧ (modKeeper g s).hp = s.hp ∧
    (modKeeper g s).eth = s.eth ∧ (modKeeper g s).enven = s.enven ∧ (modKeeper g s).lanes = s.lanes ∧
    (modKeeper g s).fe = s.fe ∧ (modKeeper g s).rc = s.rc ∧ (modKeeper g s).ai = s.ai ∧ (modKeeper g s).lens = s.lens ∧
    (modKeeper g s).pending = s.pending :=
  ⟨rfl, rfl, rfl, rfl, rfl, rfl, rfl, rfl, rfl, rfl, rfl, rfl, rfl, rfl, rfl, rfl, rfl, rfl, rfl, rfl, rfl, rfl, rfl, rfl,
    rfl, rfl, rfl, rfl, rfl, rfl, rfl, rfl, rfl, rfl, rfl, rfl, rfl, rfl, rfl, rfl, rfl, rfl, rfl, rfl, rfl, rfl, rfl, rfl,
    rfl, rfl, rfl, rfl, rfl, rfl, rfl, rfl⟩

@[simp] theorem modRc_rest (n : Fin 16) (g : RcSt → RcSt) (s : State) :
    (modRc n g s).regs = s.regs ∧ (modRc n g s).mem = s.mem ∧ (modRc n g s).ecc = s.ecc ∧ (modRc n g s).flash = s.flash ∧
    (modRc n g s).held = s.held ∧ (modRc n g s).elapsed = s.elapsed ∧ (modRc n g s).cycle = s.cycle ∧
    (modRc n g s).aon = s.aon ∧ (modRc n g s).fresh = s.fresh ∧ (modRc n g s).occ = s.occ ∧ (modRc n g s).evcPrev = s.evcPrev ∧
    (modRc n g s).evc = s.evc ∧ (modRc n g s).answer = s.answer ∧ (modRc n g s).free = s.free ∧ (modRc n g s).time = s.time ∧
    (modRc n g s).slotLate = s.slotLate ∧ (modRc n g s).slotOff = s.slotOff ∧ (modRc n g s).seqs = s.seqs ∧
    (modRc n g s).inbuf = s.inbuf ∧ (modRc n g s).qWait = s.qWait ∧ (modRc n g s).fences = s.fences ∧ (modRc n g s).qs = s.qs ∧
    (modRc n g s).qCommit = s.qCommit ∧ (modRc n g s).staging = s.staging ∧ (modRc n g s).fenceSrc = s.fenceSrc ∧
    (modRc n g s).alarms = s.alarms ∧ (modRc n g s).alarmEnds = s.alarmEnds ∧ (modRc n g s).alarmRaises = s.alarmRaises ∧
    (modRc n g s).keeperPath = s.keeperPath ∧ (modRc n g s).keeperMiss = s.keeperMiss ∧ (modRc n g s).incident = s.incident ∧
    (modRc n g s).le = s.le ∧ (modRc n g s).exg = s.exg ∧ (modRc n g s).ao = s.ao ∧ (modRc n g s).ax = s.ax ∧
    (modRc n g s).lp = s.lp ∧ (modRc n g s).rg = s.rg ∧ (modRc n g s).lpEval = s.lpEval ∧ (modRc n g s).rs = s.rs ∧
    (modRc n g s).inj = s.inj ∧ (modRc n g s).cap = s.cap ∧ (modRc n g s).em = s.em ∧ (modRc n g s).pt = s.pt ∧
    (modRc n g s).lu = s.lu ∧ (modRc n g s).sec = s.sec ∧ (modRc n g s).ec = s.ec ∧ (modRc n g s).pwr = s.pwr ∧
    (modRc n g s).hp = s.hp ∧ (modRc n g s).eth = s.eth ∧ (modRc n g s).enven = s.enven ∧ (modRc n g s).keeper = s.keeper ∧
    (modRc n g s).lanes = s.lanes ∧ (modRc n g s).fe = s.fe ∧ (modRc n g s).ai = s.ai ∧ (modRc n g s).lens = s.lens ∧
    (modRc n g s).pending = s.pending :=
  ⟨rfl, rfl, rfl, rfl, rfl, rfl, rfl, rfl, rfl, rfl, rfl, rfl, rfl, rfl, rfl, rfl, rfl, rfl, rfl, rfl, rfl, rfl, rfl, rfl,
    rfl, rfl, rfl, rfl, rfl, rfl, rfl, rfl, rfl, rfl, rfl, rfl, rfl, rfl, rfl, rfl, rfl, rfl, rfl, rfl, rfl, rfl, rfl, rfl,
    rfl, rfl, rfl, rfl, rfl, rfl, rfl, rfl⟩

@[simp] theorem modAi_rest (n : Fin 8) (g : AiSt → AiSt) (s : State) :
    (modAi n g s).regs = s.regs ∧ (modAi n g s).mem = s.mem ∧ (modAi n g s).ecc = s.ecc ∧ (modAi n g s).flash = s.flash ∧
    (modAi n g s).held = s.held ∧ (modAi n g s).elapsed = s.elapsed ∧ (modAi n g s).cycle = s.cycle ∧
    (modAi n g s).aon = s.aon ∧ (modAi n g s).fresh = s.fresh ∧ (modAi n g s).occ = s.occ ∧ (modAi n g s).evcPrev = s.evcPrev ∧
    (modAi n g s).evc = s.evc ∧ (modAi n g s).answer = s.answer ∧ (modAi n g s).free = s.free ∧ (modAi n g s).time = s.time ∧
    (modAi n g s).slotLate = s.slotLate ∧ (modAi n g s).slotOff = s.slotOff ∧ (modAi n g s).seqs = s.seqs ∧
    (modAi n g s).inbuf = s.inbuf ∧ (modAi n g s).qWait = s.qWait ∧ (modAi n g s).fences = s.fences ∧ (modAi n g s).qs = s.qs ∧
    (modAi n g s).qCommit = s.qCommit ∧ (modAi n g s).staging = s.staging ∧ (modAi n g s).fenceSrc = s.fenceSrc ∧
    (modAi n g s).alarms = s.alarms ∧ (modAi n g s).alarmEnds = s.alarmEnds ∧ (modAi n g s).alarmRaises = s.alarmRaises ∧
    (modAi n g s).keeperPath = s.keeperPath ∧ (modAi n g s).keeperMiss = s.keeperMiss ∧ (modAi n g s).incident = s.incident ∧
    (modAi n g s).le = s.le ∧ (modAi n g s).exg = s.exg ∧ (modAi n g s).ao = s.ao ∧ (modAi n g s).ax = s.ax ∧
    (modAi n g s).lp = s.lp ∧ (modAi n g s).rg = s.rg ∧ (modAi n g s).lpEval = s.lpEval ∧ (modAi n g s).rs = s.rs ∧
    (modAi n g s).inj = s.inj ∧ (modAi n g s).cap = s.cap ∧ (modAi n g s).em = s.em ∧ (modAi n g s).pt = s.pt ∧
    (modAi n g s).lu = s.lu ∧ (modAi n g s).sec = s.sec ∧ (modAi n g s).ec = s.ec ∧ (modAi n g s).pwr = s.pwr ∧
    (modAi n g s).hp = s.hp ∧ (modAi n g s).eth = s.eth ∧ (modAi n g s).enven = s.enven ∧ (modAi n g s).keeper = s.keeper ∧
    (modAi n g s).lanes = s.lanes ∧ (modAi n g s).fe = s.fe ∧ (modAi n g s).rc = s.rc ∧ (modAi n g s).lens = s.lens ∧
    (modAi n g s).pending = s.pending :=
  ⟨rfl, rfl, rfl, rfl, rfl, rfl, rfl, rfl, rfl, rfl, rfl, rfl, rfl, rfl, rfl, rfl, rfl, rfl, rfl, rfl, rfl, rfl, rfl, rfl,
    rfl, rfl, rfl, rfl, rfl, rfl, rfl, rfl, rfl, rfl, rfl, rfl, rfl, rfl, rfl, rfl, rfl, rfl, rfl, rfl, rfl, rfl, rfl, rfl,
    rfl, rfl, rfl, rfl, rfl, rfl, rfl, rfl⟩

@[simp] theorem modLane_rest (n : Fin 40) (g : LaneSt → LaneSt) (s : State) :
    (modLane n g s).regs = s.regs ∧ (modLane n g s).mem = s.mem ∧ (modLane n g s).ecc = s.ecc ∧
    (modLane n g s).flash = s.flash ∧ (modLane n g s).held = s.held ∧ (modLane n g s).elapsed = s.elapsed ∧
    (modLane n g s).cycle = s.cycle ∧ (modLane n g s).aon = s.aon ∧ (modLane n g s).fresh = s.fresh ∧
    (modLane n g s).occ = s.occ ∧ (modLane n g s).evcPrev = s.evcPrev ∧ (modLane n g s).evc = s.evc ∧
    (modLane n g s).answer = s.answer ∧ (modLane n g s).free = s.free ∧ (modLane n g s).time = s.time ∧
    (modLane n g s).slotLate = s.slotLate ∧ (modLane n g s).slotOff = s.slotOff ∧ (modLane n g s).seqs = s.seqs ∧
    (modLane n g s).inbuf = s.inbuf ∧ (modLane n g s).qWait = s.qWait ∧ (modLane n g s).fences = s.fences ∧
    (modLane n g s).qs = s.qs ∧ (modLane n g s).qCommit = s.qCommit ∧ (modLane n g s).staging = s.staging ∧
    (modLane n g s).fenceSrc = s.fenceSrc ∧ (modLane n g s).alarms = s.alarms ∧ (modLane n g s).alarmEnds = s.alarmEnds ∧
    (modLane n g s).alarmRaises = s.alarmRaises ∧ (modLane n g s).keeperPath = s.keeperPath ∧
    (modLane n g s).keeperMiss = s.keeperMiss ∧ (modLane n g s).incident = s.incident ∧ (modLane n g s).le = s.le ∧
    (modLane n g s).exg = s.exg ∧ (modLane n g s).ao = s.ao ∧ (modLane n g s).ax = s.ax ∧ (modLane n g s).lp = s.lp ∧
    (modLane n g s).rg = s.rg ∧ (modLane n g s).lpEval = s.lpEval ∧ (modLane n g s).rs = s.rs ∧ (modLane n g s).inj = s.inj ∧
    (modLane n g s).cap = s.cap ∧ (modLane n g s).em = s.em ∧ (modLane n g s).pt = s.pt ∧ (modLane n g s).lu = s.lu ∧
    (modLane n g s).sec = s.sec ∧ (modLane n g s).ec = s.ec ∧ (modLane n g s).pwr = s.pwr ∧ (modLane n g s).hp = s.hp ∧
    (modLane n g s).eth = s.eth ∧ (modLane n g s).enven = s.enven ∧ (modLane n g s).keeper = s.keeper ∧
    (modLane n g s).fe = s.fe ∧ (modLane n g s).rc = s.rc ∧ (modLane n g s).ai = s.ai ∧ (modLane n g s).lens = s.lens ∧
    (modLane n g s).pending = s.pending :=
  ⟨rfl, rfl, rfl, rfl, rfl, rfl, rfl, rfl, rfl, rfl, rfl, rfl, rfl, rfl, rfl, rfl, rfl, rfl, rfl, rfl, rfl, rfl, rfl, rfl,
    rfl, rfl, rfl, rfl, rfl, rfl, rfl, rfl, rfl, rfl, rfl, rfl, rfl, rfl, rfl, rfl, rfl, rfl, rfl, rfl, rfl, rfl, rfl, rfl,
    rfl, rfl, rfl, rfl, rfl, rfl, rfl, rfl⟩

@[simp] theorem modLp_rest (n : Fin 64) (g : LpSt → LpSt) (s : State) :
    (modLp n g s).regs = s.regs ∧ (modLp n g s).mem = s.mem ∧ (modLp n g s).ecc = s.ecc ∧ (modLp n g s).flash = s.flash ∧
    (modLp n g s).held = s.held ∧ (modLp n g s).elapsed = s.elapsed ∧ (modLp n g s).cycle = s.cycle ∧
    (modLp n g s).aon = s.aon ∧ (modLp n g s).fresh = s.fresh ∧ (modLp n g s).occ = s.occ ∧ (modLp n g s).evcPrev = s.evcPrev ∧
    (modLp n g s).evc = s.evc ∧ (modLp n g s).answer = s.answer ∧ (modLp n g s).free = s.free ∧ (modLp n g s).time = s.time ∧
    (modLp n g s).slotLate = s.slotLate ∧ (modLp n g s).slotOff = s.slotOff ∧ (modLp n g s).seqs = s.seqs ∧
    (modLp n g s).inbuf = s.inbuf ∧ (modLp n g s).qWait = s.qWait ∧ (modLp n g s).fences = s.fences ∧ (modLp n g s).qs = s.qs ∧
    (modLp n g s).qCommit = s.qCommit ∧ (modLp n g s).staging = s.staging ∧ (modLp n g s).fenceSrc = s.fenceSrc ∧
    (modLp n g s).alarms = s.alarms ∧ (modLp n g s).alarmEnds = s.alarmEnds ∧ (modLp n g s).alarmRaises = s.alarmRaises ∧
    (modLp n g s).keeperPath = s.keeperPath ∧ (modLp n g s).keeperMiss = s.keeperMiss ∧ (modLp n g s).incident = s.incident ∧
    (modLp n g s).le = s.le ∧ (modLp n g s).exg = s.exg ∧ (modLp n g s).ao = s.ao ∧ (modLp n g s).ax = s.ax ∧
    (modLp n g s).rg = s.rg ∧ (modLp n g s).lpEval = s.lpEval ∧ (modLp n g s).rs = s.rs ∧ (modLp n g s).inj = s.inj ∧
    (modLp n g s).cap = s.cap ∧ (modLp n g s).em = s.em ∧ (modLp n g s).pt = s.pt ∧ (modLp n g s).lu = s.lu ∧
    (modLp n g s).sec = s.sec ∧ (modLp n g s).ec = s.ec ∧ (modLp n g s).pwr = s.pwr ∧ (modLp n g s).hp = s.hp ∧
    (modLp n g s).eth = s.eth ∧ (modLp n g s).enven = s.enven ∧ (modLp n g s).keeper = s.keeper ∧
    (modLp n g s).lanes = s.lanes ∧ (modLp n g s).fe = s.fe ∧ (modLp n g s).rc = s.rc ∧ (modLp n g s).ai = s.ai ∧
    (modLp n g s).lens = s.lens ∧ (modLp n g s).pending = s.pending :=
  ⟨rfl, rfl, rfl, rfl, rfl, rfl, rfl, rfl, rfl, rfl, rfl, rfl, rfl, rfl, rfl, rfl, rfl, rfl, rfl, rfl, rfl, rfl, rfl, rfl,
    rfl, rfl, rfl, rfl, rfl, rfl, rfl, rfl, rfl, rfl, rfl, rfl, rfl, rfl, rfl, rfl, rfl, rfl, rfl, rfl, rfl, rfl, rfl, rfl,
    rfl, rfl, rfl, rfl, rfl, rfl, rfl, rfl⟩

@[simp] theorem modAx_rest (n : Fin 16) (g : AxSt → AxSt) (s : State) :
    (modAx n g s).regs = s.regs ∧ (modAx n g s).mem = s.mem ∧ (modAx n g s).ecc = s.ecc ∧ (modAx n g s).flash = s.flash ∧
    (modAx n g s).held = s.held ∧ (modAx n g s).elapsed = s.elapsed ∧ (modAx n g s).cycle = s.cycle ∧
    (modAx n g s).aon = s.aon ∧ (modAx n g s).fresh = s.fresh ∧ (modAx n g s).occ = s.occ ∧ (modAx n g s).evcPrev = s.evcPrev ∧
    (modAx n g s).evc = s.evc ∧ (modAx n g s).answer = s.answer ∧ (modAx n g s).free = s.free ∧ (modAx n g s).time = s.time ∧
    (modAx n g s).slotLate = s.slotLate ∧ (modAx n g s).slotOff = s.slotOff ∧ (modAx n g s).seqs = s.seqs ∧
    (modAx n g s).inbuf = s.inbuf ∧ (modAx n g s).qWait = s.qWait ∧ (modAx n g s).fences = s.fences ∧ (modAx n g s).qs = s.qs ∧
    (modAx n g s).qCommit = s.qCommit ∧ (modAx n g s).staging = s.staging ∧ (modAx n g s).fenceSrc = s.fenceSrc ∧
    (modAx n g s).alarms = s.alarms ∧ (modAx n g s).alarmEnds = s.alarmEnds ∧ (modAx n g s).alarmRaises = s.alarmRaises ∧
    (modAx n g s).keeperPath = s.keeperPath ∧ (modAx n g s).keeperMiss = s.keeperMiss ∧ (modAx n g s).incident = s.incident ∧
    (modAx n g s).le = s.le ∧ (modAx n g s).exg = s.exg ∧ (modAx n g s).ao = s.ao ∧ (modAx n g s).lp = s.lp ∧
    (modAx n g s).rg = s.rg ∧ (modAx n g s).lpEval = s.lpEval ∧ (modAx n g s).rs = s.rs ∧ (modAx n g s).inj = s.inj ∧
    (modAx n g s).cap = s.cap ∧ (modAx n g s).em = s.em ∧ (modAx n g s).pt = s.pt ∧ (modAx n g s).lu = s.lu ∧
    (modAx n g s).sec = s.sec ∧ (modAx n g s).ec = s.ec ∧ (modAx n g s).pwr = s.pwr ∧ (modAx n g s).hp = s.hp ∧
    (modAx n g s).eth = s.eth ∧ (modAx n g s).enven = s.enven ∧ (modAx n g s).keeper = s.keeper ∧
    (modAx n g s).lanes = s.lanes ∧ (modAx n g s).fe = s.fe ∧ (modAx n g s).rc = s.rc ∧ (modAx n g s).ai = s.ai ∧
    (modAx n g s).lens = s.lens ∧ (modAx n g s).pending = s.pending :=
  ⟨rfl, rfl, rfl, rfl, rfl, rfl, rfl, rfl, rfl, rfl, rfl, rfl, rfl, rfl, rfl, rfl, rfl, rfl, rfl, rfl, rfl, rfl, rfl, rfl,
    rfl, rfl, rfl, rfl, rfl, rfl, rfl, rfl, rfl, rfl, rfl, rfl, rfl, rfl, rfl, rfl, rfl, rfl, rfl, rfl, rfl, rfl, rfl, rfl,
    rfl, rfl, rfl, rfl, rfl, rfl, rfl, rfl⟩

@[simp] theorem modExg_rest (n : Fin 16) (g : ExgSt → ExgSt) (s : State) :
    (modExg n g s).regs = s.regs ∧ (modExg n g s).mem = s.mem ∧ (modExg n g s).ecc = s.ecc ∧ (modExg n g s).flash = s.flash ∧
    (modExg n g s).held = s.held ∧ (modExg n g s).elapsed = s.elapsed ∧ (modExg n g s).cycle = s.cycle ∧
    (modExg n g s).aon = s.aon ∧ (modExg n g s).fresh = s.fresh ∧ (modExg n g s).occ = s.occ ∧
    (modExg n g s).evcPrev = s.evcPrev ∧ (modExg n g s).evc = s.evc ∧ (modExg n g s).answer = s.answer ∧
    (modExg n g s).free = s.free ∧ (modExg n g s).time = s.time ∧ (modExg n g s).slotLate = s.slotLate ∧
    (modExg n g s).slotOff = s.slotOff ∧ (modExg n g s).seqs = s.seqs ∧ (modExg n g s).inbuf = s.inbuf ∧
    (modExg n g s).qWait = s.qWait ∧ (modExg n g s).fences = s.fences ∧ (modExg n g s).qs = s.qs ∧
    (modExg n g s).qCommit = s.qCommit ∧ (modExg n g s).staging = s.staging ∧ (modExg n g s).fenceSrc = s.fenceSrc ∧
    (modExg n g s).alarms = s.alarms ∧ (modExg n g s).alarmEnds = s.alarmEnds ∧ (modExg n g s).alarmRaises = s.alarmRaises ∧
    (modExg n g s).keeperPath = s.keeperPath ∧ (modExg n g s).keeperMiss = s.keeperMiss ∧ (modExg n g s).incident = s.incident ∧
    (modExg n g s).le = s.le ∧ (modExg n g s).ao = s.ao ∧ (modExg n g s).ax = s.ax ∧ (modExg n g s).lp = s.lp ∧
    (modExg n g s).rg = s.rg ∧ (modExg n g s).lpEval = s.lpEval ∧ (modExg n g s).rs = s.rs ∧ (modExg n g s).inj = s.inj ∧
    (modExg n g s).cap = s.cap ∧ (modExg n g s).em = s.em ∧ (modExg n g s).pt = s.pt ∧ (modExg n g s).lu = s.lu ∧
    (modExg n g s).sec = s.sec ∧ (modExg n g s).ec = s.ec ∧ (modExg n g s).pwr = s.pwr ∧ (modExg n g s).hp = s.hp ∧
    (modExg n g s).eth = s.eth ∧ (modExg n g s).enven = s.enven ∧ (modExg n g s).keeper = s.keeper ∧
    (modExg n g s).lanes = s.lanes ∧ (modExg n g s).fe = s.fe ∧ (modExg n g s).rc = s.rc ∧ (modExg n g s).ai = s.ai ∧
    (modExg n g s).lens = s.lens ∧ (modExg n g s).pending = s.pending :=
  ⟨rfl, rfl, rfl, rfl, rfl, rfl, rfl, rfl, rfl, rfl, rfl, rfl, rfl, rfl, rfl, rfl, rfl, rfl, rfl, rfl, rfl, rfl, rfl, rfl,
    rfl, rfl, rfl, rfl, rfl, rfl, rfl, rfl, rfl, rfl, rfl, rfl, rfl, rfl, rfl, rfl, rfl, rfl, rfl, rfl, rfl, rfl, rfl, rfl,
    rfl, rfl, rfl, rfl, rfl, rfl, rfl, rfl⟩

@[simp] theorem modAo_rest (n : Fin 8) (g : AoSt → AoSt) (s : State) :
    (modAo n g s).regs = s.regs ∧ (modAo n g s).mem = s.mem ∧ (modAo n g s).ecc = s.ecc ∧ (modAo n g s).flash = s.flash ∧
    (modAo n g s).held = s.held ∧ (modAo n g s).elapsed = s.elapsed ∧ (modAo n g s).cycle = s.cycle ∧
    (modAo n g s).aon = s.aon ∧ (modAo n g s).fresh = s.fresh ∧ (modAo n g s).occ = s.occ ∧ (modAo n g s).evcPrev = s.evcPrev ∧
    (modAo n g s).evc = s.evc ∧ (modAo n g s).answer = s.answer ∧ (modAo n g s).free = s.free ∧ (modAo n g s).time = s.time ∧
    (modAo n g s).slotLate = s.slotLate ∧ (modAo n g s).slotOff = s.slotOff ∧ (modAo n g s).seqs = s.seqs ∧
    (modAo n g s).inbuf = s.inbuf ∧ (modAo n g s).qWait = s.qWait ∧ (modAo n g s).fences = s.fences ∧ (modAo n g s).qs = s.qs ∧
    (modAo n g s).qCommit = s.qCommit ∧ (modAo n g s).staging = s.staging ∧ (modAo n g s).fenceSrc = s.fenceSrc ∧
    (modAo n g s).alarms = s.alarms ∧ (modAo n g s).alarmEnds = s.alarmEnds ∧ (modAo n g s).alarmRaises = s.alarmRaises ∧
    (modAo n g s).keeperPath = s.keeperPath ∧ (modAo n g s).keeperMiss = s.keeperMiss ∧ (modAo n g s).incident = s.incident ∧
    (modAo n g s).le = s.le ∧ (modAo n g s).exg = s.exg ∧ (modAo n g s).ax = s.ax ∧ (modAo n g s).lp = s.lp ∧
    (modAo n g s).rg = s.rg ∧ (modAo n g s).lpEval = s.lpEval ∧ (modAo n g s).rs = s.rs ∧ (modAo n g s).inj = s.inj ∧
    (modAo n g s).cap = s.cap ∧ (modAo n g s).em = s.em ∧ (modAo n g s).pt = s.pt ∧ (modAo n g s).lu = s.lu ∧
    (modAo n g s).sec = s.sec ∧ (modAo n g s).ec = s.ec ∧ (modAo n g s).pwr = s.pwr ∧ (modAo n g s).hp = s.hp ∧
    (modAo n g s).eth = s.eth ∧ (modAo n g s).enven = s.enven ∧ (modAo n g s).keeper = s.keeper ∧
    (modAo n g s).lanes = s.lanes ∧ (modAo n g s).fe = s.fe ∧ (modAo n g s).rc = s.rc ∧ (modAo n g s).ai = s.ai ∧
    (modAo n g s).lens = s.lens ∧ (modAo n g s).pending = s.pending :=
  ⟨rfl, rfl, rfl, rfl, rfl, rfl, rfl, rfl, rfl, rfl, rfl, rfl, rfl, rfl, rfl, rfl, rfl, rfl, rfl, rfl, rfl, rfl, rfl, rfl,
    rfl, rfl, rfl, rfl, rfl, rfl, rfl, rfl, rfl, rfl, rfl, rfl, rfl, rfl, rfl, rfl, rfl, rfl, rfl, rfl, rfl, rfl, rfl, rfl,
    rfl, rfl, rfl, rfl, rfl, rfl, rfl, rfl⟩

@[simp] theorem modInj_rest (n : Fin 4) (g : InjSt → InjSt) (s : State) :
    (modInj n g s).regs = s.regs ∧ (modInj n g s).mem = s.mem ∧ (modInj n g s).ecc = s.ecc ∧ (modInj n g s).flash = s.flash ∧
    (modInj n g s).held = s.held ∧ (modInj n g s).elapsed = s.elapsed ∧ (modInj n g s).cycle = s.cycle ∧
    (modInj n g s).aon = s.aon ∧ (modInj n g s).fresh = s.fresh ∧ (modInj n g s).occ = s.occ ∧
    (modInj n g s).evcPrev = s.evcPrev ∧ (modInj n g s).evc = s.evc ∧ (modInj n g s).answer = s.answer ∧
    (modInj n g s).free = s.free ∧ (modInj n g s).time = s.time ∧ (modInj n g s).slotLate = s.slotLate ∧
    (modInj n g s).slotOff = s.slotOff ∧ (modInj n g s).seqs = s.seqs ∧ (modInj n g s).inbuf = s.inbuf ∧
    (modInj n g s).qWait = s.qWait ∧ (modInj n g s).fences = s.fences ∧ (modInj n g s).qs = s.qs ∧
    (modInj n g s).qCommit = s.qCommit ∧ (modInj n g s).staging = s.staging ∧ (modInj n g s).fenceSrc = s.fenceSrc ∧
    (modInj n g s).alarms = s.alarms ∧ (modInj n g s).alarmEnds = s.alarmEnds ∧ (modInj n g s).alarmRaises = s.alarmRaises ∧
    (modInj n g s).keeperPath = s.keeperPath ∧ (modInj n g s).keeperMiss = s.keeperMiss ∧ (modInj n g s).incident = s.incident ∧
    (modInj n g s).le = s.le ∧ (modInj n g s).exg = s.exg ∧ (modInj n g s).ao = s.ao ∧ (modInj n g s).ax = s.ax ∧
    (modInj n g s).lp = s.lp ∧ (modInj n g s).rg = s.rg ∧ (modInj n g s).lpEval = s.lpEval ∧ (modInj n g s).rs = s.rs ∧
    (modInj n g s).cap = s.cap ∧ (modInj n g s).em = s.em ∧ (modInj n g s).pt = s.pt ∧ (modInj n g s).lu = s.lu ∧
    (modInj n g s).sec = s.sec ∧ (modInj n g s).ec = s.ec ∧ (modInj n g s).pwr = s.pwr ∧ (modInj n g s).hp = s.hp ∧
    (modInj n g s).eth = s.eth ∧ (modInj n g s).enven = s.enven ∧ (modInj n g s).keeper = s.keeper ∧
    (modInj n g s).lanes = s.lanes ∧ (modInj n g s).fe = s.fe ∧ (modInj n g s).rc = s.rc ∧ (modInj n g s).ai = s.ai ∧
    (modInj n g s).lens = s.lens ∧ (modInj n g s).pending = s.pending :=
  ⟨rfl, rfl, rfl, rfl, rfl, rfl, rfl, rfl, rfl, rfl, rfl, rfl, rfl, rfl, rfl, rfl, rfl, rfl, rfl, rfl, rfl, rfl, rfl, rfl,
    rfl, rfl, rfl, rfl, rfl, rfl, rfl, rfl, rfl, rfl, rfl, rfl, rfl, rfl, rfl, rfl, rfl, rfl, rfl, rfl, rfl, rfl, rfl, rfl,
    rfl, rfl, rfl, rfl, rfl, rfl, rfl, rfl⟩

@[simp] theorem modEth_rest (n : Fin 2) (g : EthSt → EthSt) (s : State) :
    (modEth n g s).regs = s.regs ∧ (modEth n g s).mem = s.mem ∧ (modEth n g s).ecc = s.ecc ∧ (modEth n g s).flash = s.flash ∧
    (modEth n g s).held = s.held ∧ (modEth n g s).elapsed = s.elapsed ∧ (modEth n g s).cycle = s.cycle ∧
    (modEth n g s).aon = s.aon ∧ (modEth n g s).fresh = s.fresh ∧ (modEth n g s).occ = s.occ ∧
    (modEth n g s).evcPrev = s.evcPrev ∧ (modEth n g s).evc = s.evc ∧ (modEth n g s).answer = s.answer ∧
    (modEth n g s).free = s.free ∧ (modEth n g s).time = s.time ∧ (modEth n g s).slotLate = s.slotLate ∧
    (modEth n g s).slotOff = s.slotOff ∧ (modEth n g s).seqs = s.seqs ∧ (modEth n g s).inbuf = s.inbuf ∧
    (modEth n g s).qWait = s.qWait ∧ (modEth n g s).fences = s.fences ∧ (modEth n g s).qs = s.qs ∧
    (modEth n g s).qCommit = s.qCommit ∧ (modEth n g s).staging = s.staging ∧ (modEth n g s).fenceSrc = s.fenceSrc ∧
    (modEth n g s).alarms = s.alarms ∧ (modEth n g s).alarmEnds = s.alarmEnds ∧ (modEth n g s).alarmRaises = s.alarmRaises ∧
    (modEth n g s).keeperPath = s.keeperPath ∧ (modEth n g s).keeperMiss = s.keeperMiss ∧ (modEth n g s).incident = s.incident ∧
    (modEth n g s).le = s.le ∧ (modEth n g s).exg = s.exg ∧ (modEth n g s).ao = s.ao ∧ (modEth n g s).ax = s.ax ∧
    (modEth n g s).lp = s.lp ∧ (modEth n g s).rg = s.rg ∧ (modEth n g s).lpEval = s.lpEval ∧ (modEth n g s).rs = s.rs ∧
    (modEth n g s).inj = s.inj ∧ (modEth n g s).cap = s.cap ∧ (modEth n g s).em = s.em ∧ (modEth n g s).pt = s.pt ∧
    (modEth n g s).lu = s.lu ∧ (modEth n g s).sec = s.sec ∧ (modEth n g s).ec = s.ec ∧ (modEth n g s).pwr = s.pwr ∧
    (modEth n g s).hp = s.hp ∧ (modEth n g s).enven = s.enven ∧ (modEth n g s).keeper = s.keeper ∧
    (modEth n g s).lanes = s.lanes ∧ (modEth n g s).fe = s.fe ∧ (modEth n g s).rc = s.rc ∧ (modEth n g s).ai = s.ai ∧
    (modEth n g s).lens = s.lens ∧ (modEth n g s).pending = s.pending :=
  ⟨rfl, rfl, rfl, rfl, rfl, rfl, rfl, rfl, rfl, rfl, rfl, rfl, rfl, rfl, rfl, rfl, rfl, rfl, rfl, rfl, rfl, rfl, rfl, rfl,
    rfl, rfl, rfl, rfl, rfl, rfl, rfl, rfl, rfl, rfl, rfl, rfl, rfl, rfl, rfl, rfl, rfl, rfl, rfl, rfl, rfl, rfl, rfl, rfl,
    rfl, rfl, rfl, rfl, rfl, rfl, rfl, rfl⟩

@[simp] theorem modLens_rest (n : Fin 16) (g : LensSt → LensSt) (s : State) :
    (modLens n g s).regs = s.regs ∧ (modLens n g s).mem = s.mem ∧ (modLens n g s).ecc = s.ecc ∧
    (modLens n g s).flash = s.flash ∧ (modLens n g s).held = s.held ∧ (modLens n g s).elapsed = s.elapsed ∧
    (modLens n g s).cycle = s.cycle ∧ (modLens n g s).aon = s.aon ∧ (modLens n g s).fresh = s.fresh ∧
    (modLens n g s).occ = s.occ ∧ (modLens n g s).evcPrev = s.evcPrev ∧ (modLens n g s).evc = s.evc ∧
    (modLens n g s).answer = s.answer ∧ (modLens n g s).free = s.free ∧ (modLens n g s).time = s.time ∧
    (modLens n g s).slotLate = s.slotLate ∧ (modLens n g s).slotOff = s.slotOff ∧ (modLens n g s).seqs = s.seqs ∧
    (modLens n g s).inbuf = s.inbuf ∧ (modLens n g s).qWait = s.qWait ∧ (modLens n g s).fences = s.fences ∧
    (modLens n g s).qs = s.qs ∧ (modLens n g s).qCommit = s.qCommit ∧ (modLens n g s).staging = s.staging ∧
    (modLens n g s).fenceSrc = s.fenceSrc ∧ (modLens n g s).alarms = s.alarms ∧ (modLens n g s).alarmEnds = s.alarmEnds ∧
    (modLens n g s).alarmRaises = s.alarmRaises ∧ (modLens n g s).keeperPath = s.keeperPath ∧
    (modLens n g s).keeperMiss = s.keeperMiss ∧ (modLens n g s).incident = s.incident ∧ (modLens n g s).le = s.le ∧
    (modLens n g s).exg = s.exg ∧ (modLens n g s).ao = s.ao ∧ (modLens n g s).ax = s.ax ∧ (modLens n g s).lp = s.lp ∧
    (modLens n g s).rg = s.rg ∧ (modLens n g s).lpEval = s.lpEval ∧ (modLens n g s).rs = s.rs ∧ (modLens n g s).inj = s.inj ∧
    (modLens n g s).cap = s.cap ∧ (modLens n g s).em = s.em ∧ (modLens n g s).pt = s.pt ∧ (modLens n g s).lu = s.lu ∧
    (modLens n g s).sec = s.sec ∧ (modLens n g s).ec = s.ec ∧ (modLens n g s).pwr = s.pwr ∧ (modLens n g s).hp = s.hp ∧
    (modLens n g s).eth = s.eth ∧ (modLens n g s).enven = s.enven ∧ (modLens n g s).keeper = s.keeper ∧
    (modLens n g s).lanes = s.lanes ∧ (modLens n g s).fe = s.fe ∧ (modLens n g s).rc = s.rc ∧ (modLens n g s).ai = s.ai ∧
    (modLens n g s).pending = s.pending :=
  ⟨rfl, rfl, rfl, rfl, rfl, rfl, rfl, rfl, rfl, rfl, rfl, rfl, rfl, rfl, rfl, rfl, rfl, rfl, rfl, rfl, rfl, rfl, rfl, rfl,
    rfl, rfl, rfl, rfl, rfl, rfl, rfl, rfl, rfl, rfl, rfl, rfl, rfl, rfl, rfl, rfl, rfl, rfl, rfl, rfl, rfl, rfl, rfl, rfl,
    rfl, rfl, rfl, rfl, rfl, rfl, rfl, rfl⟩

@[simp] theorem modRg_rest (n : Fin 4) (g : RgSt → RgSt) (s : State) :
    (modRg n g s).regs = s.regs ∧ (modRg n g s).mem = s.mem ∧ (modRg n g s).ecc = s.ecc ∧ (modRg n g s).flash = s.flash ∧
    (modRg n g s).held = s.held ∧ (modRg n g s).elapsed = s.elapsed ∧ (modRg n g s).cycle = s.cycle ∧
    (modRg n g s).aon = s.aon ∧ (modRg n g s).fresh = s.fresh ∧ (modRg n g s).occ = s.occ ∧ (modRg n g s).evcPrev = s.evcPrev ∧
    (modRg n g s).evc = s.evc ∧ (modRg n g s).answer = s.answer ∧ (modRg n g s).free = s.free ∧ (modRg n g s).time = s.time ∧
    (modRg n g s).slotLate = s.slotLate ∧ (modRg n g s).slotOff = s.slotOff ∧ (modRg n g s).seqs = s.seqs ∧
    (modRg n g s).inbuf = s.inbuf ∧ (modRg n g s).qWait = s.qWait ∧ (modRg n g s).fences = s.fences ∧ (modRg n g s).qs = s.qs ∧
    (modRg n g s).qCommit = s.qCommit ∧ (modRg n g s).staging = s.staging ∧ (modRg n g s).fenceSrc = s.fenceSrc ∧
    (modRg n g s).alarms = s.alarms ∧ (modRg n g s).alarmEnds = s.alarmEnds ∧ (modRg n g s).alarmRaises = s.alarmRaises ∧
    (modRg n g s).keeperPath = s.keeperPath ∧ (modRg n g s).keeperMiss = s.keeperMiss ∧ (modRg n g s).incident = s.incident ∧
    (modRg n g s).le = s.le ∧ (modRg n g s).exg = s.exg ∧ (modRg n g s).ao = s.ao ∧ (modRg n g s).ax = s.ax ∧
    (modRg n g s).lp = s.lp ∧ (modRg n g s).lpEval = s.lpEval ∧ (modRg n g s).rs = s.rs ∧ (modRg n g s).inj = s.inj ∧
    (modRg n g s).cap = s.cap ∧ (modRg n g s).em = s.em ∧ (modRg n g s).pt = s.pt ∧ (modRg n g s).lu = s.lu ∧
    (modRg n g s).sec = s.sec ∧ (modRg n g s).ec = s.ec ∧ (modRg n g s).pwr = s.pwr ∧ (modRg n g s).hp = s.hp ∧
    (modRg n g s).eth = s.eth ∧ (modRg n g s).enven = s.enven ∧ (modRg n g s).keeper = s.keeper ∧
    (modRg n g s).lanes = s.lanes ∧ (modRg n g s).fe = s.fe ∧ (modRg n g s).rc = s.rc ∧ (modRg n g s).ai = s.ai ∧
    (modRg n g s).lens = s.lens ∧ (modRg n g s).pending = s.pending :=
  ⟨rfl, rfl, rfl, rfl, rfl, rfl, rfl, rfl, rfl, rfl, rfl, rfl, rfl, rfl, rfl, rfl, rfl, rfl, rfl, rfl, rfl, rfl, rfl, rfl,
    rfl, rfl, rfl, rfl, rfl, rfl, rfl, rfl, rfl, rfl, rfl, rfl, rfl, rfl, rfl, rfl, rfl, rfl, rfl, rfl, rfl, rfl, rfl, rfl,
    rfl, rfl, rfl, rfl, rfl, rfl, rfl, rfl⟩

@[simp] theorem modEm_rest (n : Fin 16) (g : EmSt → EmSt) (s : State) :
    (modEm n g s).regs = s.regs ∧ (modEm n g s).mem = s.mem ∧ (modEm n g s).ecc = s.ecc ∧ (modEm n g s).flash = s.flash ∧
    (modEm n g s).held = s.held ∧ (modEm n g s).elapsed = s.elapsed ∧ (modEm n g s).cycle = s.cycle ∧
    (modEm n g s).aon = s.aon ∧ (modEm n g s).fresh = s.fresh ∧ (modEm n g s).occ = s.occ ∧ (modEm n g s).evcPrev = s.evcPrev ∧
    (modEm n g s).evc = s.evc ∧ (modEm n g s).answer = s.answer ∧ (modEm n g s).free = s.free ∧ (modEm n g s).time = s.time ∧
    (modEm n g s).slotLate = s.slotLate ∧ (modEm n g s).slotOff = s.slotOff ∧ (modEm n g s).seqs = s.seqs ∧
    (modEm n g s).inbuf = s.inbuf ∧ (modEm n g s).qWait = s.qWait ∧ (modEm n g s).fences = s.fences ∧ (modEm n g s).qs = s.qs ∧
    (modEm n g s).qCommit = s.qCommit ∧ (modEm n g s).staging = s.staging ∧ (modEm n g s).fenceSrc = s.fenceSrc ∧
    (modEm n g s).alarms = s.alarms ∧ (modEm n g s).alarmEnds = s.alarmEnds ∧ (modEm n g s).alarmRaises = s.alarmRaises ∧
    (modEm n g s).keeperPath = s.keeperPath ∧ (modEm n g s).keeperMiss = s.keeperMiss ∧ (modEm n g s).incident = s.incident ∧
    (modEm n g s).le = s.le ∧ (modEm n g s).exg = s.exg ∧ (modEm n g s).ao = s.ao ∧ (modEm n g s).ax = s.ax ∧
    (modEm n g s).lp = s.lp ∧ (modEm n g s).rg = s.rg ∧ (modEm n g s).lpEval = s.lpEval ∧ (modEm n g s).rs = s.rs ∧
    (modEm n g s).inj = s.inj ∧ (modEm n g s).cap = s.cap ∧ (modEm n g s).pt = s.pt ∧ (modEm n g s).lu = s.lu ∧
    (modEm n g s).sec = s.sec ∧ (modEm n g s).ec = s.ec ∧ (modEm n g s).pwr = s.pwr ∧ (modEm n g s).hp = s.hp ∧
    (modEm n g s).eth = s.eth ∧ (modEm n g s).enven = s.enven ∧ (modEm n g s).keeper = s.keeper ∧
    (modEm n g s).lanes = s.lanes ∧ (modEm n g s).fe = s.fe ∧ (modEm n g s).rc = s.rc ∧ (modEm n g s).ai = s.ai ∧
    (modEm n g s).lens = s.lens ∧ (modEm n g s).pending = s.pending :=
  ⟨rfl, rfl, rfl, rfl, rfl, rfl, rfl, rfl, rfl, rfl, rfl, rfl, rfl, rfl, rfl, rfl, rfl, rfl, rfl, rfl, rfl, rfl, rfl, rfl,
    rfl, rfl, rfl, rfl, rfl, rfl, rfl, rfl, rfl, rfl, rfl, rfl, rfl, rfl, rfl, rfl, rfl, rfl, rfl, rfl, rfl, rfl, rfl, rfl,
    rfl, rfl, rfl, rfl, rfl, rfl, rfl, rfl⟩

@[simp] theorem modLu_rest (n : Fin 32) (g : LuSt → LuSt) (s : State) :
    (modLu n g s).regs = s.regs ∧ (modLu n g s).mem = s.mem ∧ (modLu n g s).ecc = s.ecc ∧ (modLu n g s).flash = s.flash ∧
    (modLu n g s).held = s.held ∧ (modLu n g s).elapsed = s.elapsed ∧ (modLu n g s).cycle = s.cycle ∧
    (modLu n g s).aon = s.aon ∧ (modLu n g s).fresh = s.fresh ∧ (modLu n g s).occ = s.occ ∧ (modLu n g s).evcPrev = s.evcPrev ∧
    (modLu n g s).evc = s.evc ∧ (modLu n g s).answer = s.answer ∧ (modLu n g s).free = s.free ∧ (modLu n g s).time = s.time ∧
    (modLu n g s).slotLate = s.slotLate ∧ (modLu n g s).slotOff = s.slotOff ∧ (modLu n g s).seqs = s.seqs ∧
    (modLu n g s).inbuf = s.inbuf ∧ (modLu n g s).qWait = s.qWait ∧ (modLu n g s).fences = s.fences ∧ (modLu n g s).qs = s.qs ∧
    (modLu n g s).qCommit = s.qCommit ∧ (modLu n g s).staging = s.staging ∧ (modLu n g s).fenceSrc = s.fenceSrc ∧
    (modLu n g s).alarms = s.alarms ∧ (modLu n g s).alarmEnds = s.alarmEnds ∧ (modLu n g s).alarmRaises = s.alarmRaises ∧
    (modLu n g s).keeperPath = s.keeperPath ∧ (modLu n g s).keeperMiss = s.keeperMiss ∧ (modLu n g s).incident = s.incident ∧
    (modLu n g s).le = s.le ∧ (modLu n g s).exg = s.exg ∧ (modLu n g s).ao = s.ao ∧ (modLu n g s).ax = s.ax ∧
    (modLu n g s).lp = s.lp ∧ (modLu n g s).rg = s.rg ∧ (modLu n g s).lpEval = s.lpEval ∧ (modLu n g s).rs = s.rs ∧
    (modLu n g s).inj = s.inj ∧ (modLu n g s).cap = s.cap ∧ (modLu n g s).em = s.em ∧ (modLu n g s).pt = s.pt ∧
    (modLu n g s).sec = s.sec ∧ (modLu n g s).ec = s.ec ∧ (modLu n g s).pwr = s.pwr ∧ (modLu n g s).hp = s.hp ∧
    (modLu n g s).eth = s.eth ∧ (modLu n g s).enven = s.enven ∧ (modLu n g s).keeper = s.keeper ∧
    (modLu n g s).lanes = s.lanes ∧ (modLu n g s).fe = s.fe ∧ (modLu n g s).rc = s.rc ∧ (modLu n g s).ai = s.ai ∧
    (modLu n g s).lens = s.lens ∧ (modLu n g s).pending = s.pending :=
  ⟨rfl, rfl, rfl, rfl, rfl, rfl, rfl, rfl, rfl, rfl, rfl, rfl, rfl, rfl, rfl, rfl, rfl, rfl, rfl, rfl, rfl, rfl, rfl, rfl,
    rfl, rfl, rfl, rfl, rfl, rfl, rfl, rfl, rfl, rfl, rfl, rfl, rfl, rfl, rfl, rfl, rfl, rfl, rfl, rfl, rfl, rfl, rfl, rfl,
    rfl, rfl, rfl, rfl, rfl, rfl, rfl, rfl⟩

@[simp] theorem modSec_rest (n : Fin 64) (g : SecSt → SecSt) (s : State) :
    (modSec n g s).regs = s.regs ∧ (modSec n g s).mem = s.mem ∧ (modSec n g s).ecc = s.ecc ∧ (modSec n g s).flash = s.flash ∧
    (modSec n g s).held = s.held ∧ (modSec n g s).elapsed = s.elapsed ∧ (modSec n g s).cycle = s.cycle ∧
    (modSec n g s).aon = s.aon ∧ (modSec n g s).fresh = s.fresh ∧ (modSec n g s).occ = s.occ ∧
    (modSec n g s).evcPrev = s.evcPrev ∧ (modSec n g s).evc = s.evc ∧ (modSec n g s).answer = s.answer ∧
    (modSec n g s).free = s.free ∧ (modSec n g s).time = s.time ∧ (modSec n g s).slotLate = s.slotLate ∧
    (modSec n g s).slotOff = s.slotOff ∧ (modSec n g s).seqs = s.seqs ∧ (modSec n g s).inbuf = s.inbuf ∧
    (modSec n g s).qWait = s.qWait ∧ (modSec n g s).fences = s.fences ∧ (modSec n g s).qs = s.qs ∧
    (modSec n g s).qCommit = s.qCommit ∧ (modSec n g s).staging = s.staging ∧ (modSec n g s).fenceSrc = s.fenceSrc ∧
    (modSec n g s).alarms = s.alarms ∧ (modSec n g s).alarmEnds = s.alarmEnds ∧ (modSec n g s).alarmRaises = s.alarmRaises ∧
    (modSec n g s).keeperPath = s.keeperPath ∧ (modSec n g s).keeperMiss = s.keeperMiss ∧ (modSec n g s).incident = s.incident ∧
    (modSec n g s).le = s.le ∧ (modSec n g s).exg = s.exg ∧ (modSec n g s).ao = s.ao ∧ (modSec n g s).ax = s.ax ∧
    (modSec n g s).lp = s.lp ∧ (modSec n g s).rg = s.rg ∧ (modSec n g s).lpEval = s.lpEval ∧ (modSec n g s).rs = s.rs ∧
    (modSec n g s).inj = s.inj ∧ (modSec n g s).cap = s.cap ∧ (modSec n g s).em = s.em ∧ (modSec n g s).pt = s.pt ∧
    (modSec n g s).lu = s.lu ∧ (modSec n g s).ec = s.ec ∧ (modSec n g s).pwr = s.pwr ∧ (modSec n g s).hp = s.hp ∧
    (modSec n g s).eth = s.eth ∧ (modSec n g s).enven = s.enven ∧ (modSec n g s).keeper = s.keeper ∧
    (modSec n g s).lanes = s.lanes ∧ (modSec n g s).fe = s.fe ∧ (modSec n g s).rc = s.rc ∧ (modSec n g s).ai = s.ai ∧
    (modSec n g s).lens = s.lens ∧ (modSec n g s).pending = s.pending :=
  ⟨rfl, rfl, rfl, rfl, rfl, rfl, rfl, rfl, rfl, rfl, rfl, rfl, rfl, rfl, rfl, rfl, rfl, rfl, rfl, rfl, rfl, rfl, rfl, rfl,
    rfl, rfl, rfl, rfl, rfl, rfl, rfl, rfl, rfl, rfl, rfl, rfl, rfl, rfl, rfl, rfl, rfl, rfl, rfl, rfl, rfl, rfl, rfl, rfl,
    rfl, rfl, rfl, rfl, rfl, rfl, rfl, rfl⟩

@[simp] theorem modQs_rest (n : Fin 16) (g : QSt → QSt) (s : State) :
    (modQs n g s).regs = s.regs ∧ (modQs n g s).mem = s.mem ∧ (modQs n g s).ecc = s.ecc ∧ (modQs n g s).flash = s.flash ∧
    (modQs n g s).held = s.held ∧ (modQs n g s).elapsed = s.elapsed ∧ (modQs n g s).cycle = s.cycle ∧
    (modQs n g s).aon = s.aon ∧ (modQs n g s).fresh = s.fresh ∧ (modQs n g s).occ = s.occ ∧ (modQs n g s).evcPrev = s.evcPrev ∧
    (modQs n g s).evc = s.evc ∧ (modQs n g s).answer = s.answer ∧ (modQs n g s).free = s.free ∧ (modQs n g s).time = s.time ∧
    (modQs n g s).slotLate = s.slotLate ∧ (modQs n g s).slotOff = s.slotOff ∧ (modQs n g s).seqs = s.seqs ∧
    (modQs n g s).inbuf = s.inbuf ∧ (modQs n g s).qWait = s.qWait ∧ (modQs n g s).fences = s.fences ∧
    (modQs n g s).qCommit = s.qCommit ∧ (modQs n g s).staging = s.staging ∧ (modQs n g s).fenceSrc = s.fenceSrc ∧
    (modQs n g s).alarms = s.alarms ∧ (modQs n g s).alarmEnds = s.alarmEnds ∧ (modQs n g s).alarmRaises = s.alarmRaises ∧
    (modQs n g s).keeperPath = s.keeperPath ∧ (modQs n g s).keeperMiss = s.keeperMiss ∧ (modQs n g s).incident = s.incident ∧
    (modQs n g s).le = s.le ∧ (modQs n g s).exg = s.exg ∧ (modQs n g s).ao = s.ao ∧ (modQs n g s).ax = s.ax ∧
    (modQs n g s).lp = s.lp ∧ (modQs n g s).rg = s.rg ∧ (modQs n g s).lpEval = s.lpEval ∧ (modQs n g s).rs = s.rs ∧
    (modQs n g s).inj = s.inj ∧ (modQs n g s).cap = s.cap ∧ (modQs n g s).em = s.em ∧ (modQs n g s).pt = s.pt ∧
    (modQs n g s).lu = s.lu ∧ (modQs n g s).sec = s.sec ∧ (modQs n g s).ec = s.ec ∧ (modQs n g s).pwr = s.pwr ∧
    (modQs n g s).hp = s.hp ∧ (modQs n g s).eth = s.eth ∧ (modQs n g s).enven = s.enven ∧ (modQs n g s).keeper = s.keeper ∧
    (modQs n g s).lanes = s.lanes ∧ (modQs n g s).fe = s.fe ∧ (modQs n g s).rc = s.rc ∧ (modQs n g s).ai = s.ai ∧
    (modQs n g s).lens = s.lens ∧ (modQs n g s).pending = s.pending :=
  ⟨rfl, rfl, rfl, rfl, rfl, rfl, rfl, rfl, rfl, rfl, rfl, rfl, rfl, rfl, rfl, rfl, rfl, rfl, rfl, rfl, rfl, rfl, rfl, rfl,
    rfl, rfl, rfl, rfl, rfl, rfl, rfl, rfl, rfl, rfl, rfl, rfl, rfl, rfl, rfl, rfl, rfl, rfl, rfl, rfl, rfl, rfl, rfl, rfl,
    rfl, rfl, rfl, rfl, rfl, rfl, rfl, rfl⟩

@[simp] theorem modRs_rest (n : Fin 16) (g : RsSt → RsSt) (s : State) :
    (modRs n g s).regs = s.regs ∧ (modRs n g s).mem = s.mem ∧ (modRs n g s).ecc = s.ecc ∧ (modRs n g s).flash = s.flash ∧
    (modRs n g s).held = s.held ∧ (modRs n g s).elapsed = s.elapsed ∧ (modRs n g s).cycle = s.cycle ∧
    (modRs n g s).aon = s.aon ∧ (modRs n g s).fresh = s.fresh ∧ (modRs n g s).occ = s.occ ∧ (modRs n g s).evcPrev = s.evcPrev ∧
    (modRs n g s).evc = s.evc ∧ (modRs n g s).answer = s.answer ∧ (modRs n g s).free = s.free ∧ (modRs n g s).time = s.time ∧
    (modRs n g s).slotLate = s.slotLate ∧ (modRs n g s).slotOff = s.slotOff ∧ (modRs n g s).seqs = s.seqs ∧
    (modRs n g s).inbuf = s.inbuf ∧ (modRs n g s).qWait = s.qWait ∧ (modRs n g s).fences = s.fences ∧ (modRs n g s).qs = s.qs ∧
    (modRs n g s).qCommit = s.qCommit ∧ (modRs n g s).staging = s.staging ∧ (modRs n g s).fenceSrc = s.fenceSrc ∧
    (modRs n g s).alarms = s.alarms ∧ (modRs n g s).alarmEnds = s.alarmEnds ∧ (modRs n g s).alarmRaises = s.alarmRaises ∧
    (modRs n g s).keeperPath = s.keeperPath ∧ (modRs n g s).keeperMiss = s.keeperMiss ∧ (modRs n g s).incident = s.incident ∧
    (modRs n g s).le = s.le ∧ (modRs n g s).exg = s.exg ∧ (modRs n g s).ao = s.ao ∧ (modRs n g s).ax = s.ax ∧
    (modRs n g s).lp = s.lp ∧ (modRs n g s).rg = s.rg ∧ (modRs n g s).lpEval = s.lpEval ∧ (modRs n g s).inj = s.inj ∧
    (modRs n g s).cap = s.cap ∧ (modRs n g s).em = s.em ∧ (modRs n g s).pt = s.pt ∧ (modRs n g s).lu = s.lu ∧
    (modRs n g s).sec = s.sec ∧ (modRs n g s).ec = s.ec ∧ (modRs n g s).pwr = s.pwr ∧ (modRs n g s).hp = s.hp ∧
    (modRs n g s).eth = s.eth ∧ (modRs n g s).enven = s.enven ∧ (modRs n g s).keeper = s.keeper ∧
    (modRs n g s).lanes = s.lanes ∧ (modRs n g s).fe = s.fe ∧ (modRs n g s).rc = s.rc ∧ (modRs n g s).ai = s.ai ∧
    (modRs n g s).lens = s.lens ∧ (modRs n g s).pending = s.pending :=
  ⟨rfl, rfl, rfl, rfl, rfl, rfl, rfl, rfl, rfl, rfl, rfl, rfl, rfl, rfl, rfl, rfl, rfl, rfl, rfl, rfl, rfl, rfl, rfl, rfl,
    rfl, rfl, rfl, rfl, rfl, rfl, rfl, rfl, rfl, rfl, rfl, rfl, rfl, rfl, rfl, rfl, rfl, rfl, rfl, rfl, rfl, rfl, rfl, rfl,
    rfl, rfl, rfl, rfl, rfl, rfl, rfl, rfl⟩

@[simp] theorem modLe_rest (n : Fin 8) (g : LeSt → LeSt) (s : State) :
    (modLe n g s).regs = s.regs ∧ (modLe n g s).mem = s.mem ∧ (modLe n g s).ecc = s.ecc ∧ (modLe n g s).flash = s.flash ∧
    (modLe n g s).held = s.held ∧ (modLe n g s).elapsed = s.elapsed ∧ (modLe n g s).cycle = s.cycle ∧
    (modLe n g s).aon = s.aon ∧ (modLe n g s).fresh = s.fresh ∧ (modLe n g s).occ = s.occ ∧ (modLe n g s).evcPrev = s.evcPrev ∧
    (modLe n g s).evc = s.evc ∧ (modLe n g s).answer = s.answer ∧ (modLe n g s).free = s.free ∧ (modLe n g s).time = s.time ∧
    (modLe n g s).slotLate = s.slotLate ∧ (modLe n g s).slotOff = s.slotOff ∧ (modLe n g s).seqs = s.seqs ∧
    (modLe n g s).inbuf = s.inbuf ∧ (modLe n g s).qWait = s.qWait ∧ (modLe n g s).fences = s.fences ∧ (modLe n g s).qs = s.qs ∧
    (modLe n g s).qCommit = s.qCommit ∧ (modLe n g s).staging = s.staging ∧ (modLe n g s).fenceSrc = s.fenceSrc ∧
    (modLe n g s).alarms = s.alarms ∧ (modLe n g s).alarmEnds = s.alarmEnds ∧ (modLe n g s).alarmRaises = s.alarmRaises ∧
    (modLe n g s).keeperPath = s.keeperPath ∧ (modLe n g s).keeperMiss = s.keeperMiss ∧ (modLe n g s).incident = s.incident ∧
    (modLe n g s).exg = s.exg ∧ (modLe n g s).ao = s.ao ∧ (modLe n g s).ax = s.ax ∧ (modLe n g s).lp = s.lp ∧
    (modLe n g s).rg = s.rg ∧ (modLe n g s).lpEval = s.lpEval ∧ (modLe n g s).rs = s.rs ∧ (modLe n g s).inj = s.inj ∧
    (modLe n g s).cap = s.cap ∧ (modLe n g s).em = s.em ∧ (modLe n g s).pt = s.pt ∧ (modLe n g s).lu = s.lu ∧
    (modLe n g s).sec = s.sec ∧ (modLe n g s).ec = s.ec ∧ (modLe n g s).pwr = s.pwr ∧ (modLe n g s).hp = s.hp ∧
    (modLe n g s).eth = s.eth ∧ (modLe n g s).enven = s.enven ∧ (modLe n g s).keeper = s.keeper ∧
    (modLe n g s).lanes = s.lanes ∧ (modLe n g s).fe = s.fe ∧ (modLe n g s).rc = s.rc ∧ (modLe n g s).ai = s.ai ∧
    (modLe n g s).lens = s.lens ∧ (modLe n g s).pending = s.pending :=
  ⟨rfl, rfl, rfl, rfl, rfl, rfl, rfl, rfl, rfl, rfl, rfl, rfl, rfl, rfl, rfl, rfl, rfl, rfl, rfl, rfl, rfl, rfl, rfl, rfl,
    rfl, rfl, rfl, rfl, rfl, rfl, rfl, rfl, rfl, rfl, rfl, rfl, rfl, rfl, rfl, rfl, rfl, rfl, rfl, rfl, rfl, rfl, rfl, rfl,
    rfl, rfl, rfl, rfl, rfl, rfl, rfl, rfl⟩

@[simp] theorem raiseF_rest (b : Blk) (f : Fld) (s : State) :
    (raiseF b f s).mem = s.mem ∧ (raiseF b f s).ecc = s.ecc ∧ (raiseF b f s).flash = s.flash ∧ (raiseF b f s).held = s.held ∧
    (raiseF b f s).elapsed = s.elapsed ∧ (raiseF b f s).cycle = s.cycle ∧ (raiseF b f s).aon = s.aon ∧
    (raiseF b f s).occ = s.occ ∧ (raiseF b f s).evcPrev = s.evcPrev ∧ (raiseF b f s).evc = s.evc ∧
    (raiseF b f s).answer = s.answer ∧ (raiseF b f s).free = s.free ∧ (raiseF b f s).time = s.time ∧
    (raiseF b f s).slotLate = s.slotLate ∧ (raiseF b f s).slotOff = s.slotOff ∧ (raiseF b f s).seqs = s.seqs ∧
    (raiseF b f s).inbuf = s.inbuf ∧ (raiseF b f s).qWait = s.qWait ∧ (raiseF b f s).fences = s.fences ∧
    (raiseF b f s).qs = s.qs ∧ (raiseF b f s).qCommit = s.qCommit ∧ (raiseF b f s).staging = s.staging ∧
    (raiseF b f s).fenceSrc = s.fenceSrc ∧ (raiseF b f s).alarms = s.alarms ∧ (raiseF b f s).alarmEnds = s.alarmEnds ∧
    (raiseF b f s).alarmRaises = s.alarmRaises ∧ (raiseF b f s).keeperPath = s.keeperPath ∧
    (raiseF b f s).keeperMiss = s.keeperMiss ∧ (raiseF b f s).incident = s.incident ∧ (raiseF b f s).le = s.le ∧
    (raiseF b f s).exg = s.exg ∧ (raiseF b f s).ao = s.ao ∧ (raiseF b f s).ax = s.ax ∧ (raiseF b f s).lp = s.lp ∧
    (raiseF b f s).rg = s.rg ∧ (raiseF b f s).lpEval = s.lpEval ∧ (raiseF b f s).rs = s.rs ∧ (raiseF b f s).inj = s.inj ∧
    (raiseF b f s).cap = s.cap ∧ (raiseF b f s).em = s.em ∧ (raiseF b f s).pt = s.pt ∧ (raiseF b f s).lu = s.lu ∧
    (raiseF b f s).sec = s.sec ∧ (raiseF b f s).ec = s.ec ∧ (raiseF b f s).pwr = s.pwr ∧ (raiseF b f s).hp = s.hp ∧
    (raiseF b f s).eth = s.eth ∧ (raiseF b f s).enven = s.enven ∧ (raiseF b f s).keeper = s.keeper ∧
    (raiseF b f s).lanes = s.lanes ∧ (raiseF b f s).fe = s.fe ∧ (raiseF b f s).rc = s.rc ∧ (raiseF b f s).ai = s.ai ∧
    (raiseF b f s).lens = s.lens ∧ (raiseF b f s).pending = s.pending :=
  by unfold raiseF; simp only; split <;> exact ⟨rfl, rfl, rfl, rfl, rfl, rfl, rfl, rfl, rfl, rfl, rfl, rfl, rfl, rfl, rfl,
    rfl, rfl, rfl, rfl, rfl, rfl, rfl, rfl, rfl, rfl, rfl, rfl, rfl, rfl, rfl, rfl, rfl, rfl, rfl, rfl, rfl, rfl, rfl, rfl,
    rfl, rfl, rfl, rfl, rfl, rfl, rfl, rfl, rfl, rfl, rfl, rfl, rfl, rfl, rfl, rfl⟩

@[simp] theorem occurs_rest (c i : Nat) (s : State) :
    (occurs c i s).regs = s.regs ∧ (occurs c i s).mem = s.mem ∧ (occurs c i s).ecc = s.ecc ∧ (occurs c i s).flash = s.flash ∧
    (occurs c i s).held = s.held ∧ (occurs c i s).elapsed = s.elapsed ∧ (occurs c i s).cycle = s.cycle ∧
    (occurs c i s).aon = s.aon ∧ (occurs c i s).fresh = s.fresh ∧ (occurs c i s).evcPrev = s.evcPrev ∧
    (occurs c i s).evc = s.evc ∧ (occurs c i s).answer = s.answer ∧ (occurs c i s).free = s.free ∧
    (occurs c i s).time = s.time ∧ (occurs c i s).slotLate = s.slotLate ∧ (occurs c i s).slotOff = s.slotOff ∧
    (occurs c i s).seqs = s.seqs ∧ (occurs c i s).inbuf = s.inbuf ∧ (occurs c i s).qWait = s.qWait ∧
    (occurs c i s).fences = s.fences ∧ (occurs c i s).qs = s.qs ∧ (occurs c i s).qCommit = s.qCommit ∧
    (occurs c i s).staging = s.staging ∧ (occurs c i s).fenceSrc = s.fenceSrc ∧ (occurs c i s).alarms = s.alarms ∧
    (occurs c i s).alarmEnds = s.alarmEnds ∧ (occurs c i s).alarmRaises = s.alarmRaises ∧
    (occurs c i s).keeperPath = s.keeperPath ∧ (occurs c i s).keeperMiss = s.keeperMiss ∧ (occurs c i s).incident = s.incident ∧
    (occurs c i s).le = s.le ∧ (occurs c i s).exg = s.exg ∧ (occurs c i s).ao = s.ao ∧ (occurs c i s).ax = s.ax ∧
    (occurs c i s).lp = s.lp ∧ (occurs c i s).rg = s.rg ∧ (occurs c i s).lpEval = s.lpEval ∧ (occurs c i s).rs = s.rs ∧
    (occurs c i s).inj = s.inj ∧ (occurs c i s).cap = s.cap ∧ (occurs c i s).em = s.em ∧ (occurs c i s).pt = s.pt ∧
    (occurs c i s).lu = s.lu ∧ (occurs c i s).sec = s.sec ∧ (occurs c i s).ec = s.ec ∧ (occurs c i s).pwr = s.pwr ∧
    (occurs c i s).hp = s.hp ∧ (occurs c i s).eth = s.eth ∧ (occurs c i s).enven = s.enven ∧ (occurs c i s).keeper = s.keeper ∧
    (occurs c i s).lanes = s.lanes ∧ (occurs c i s).fe = s.fe ∧ (occurs c i s).rc = s.rc ∧ (occurs c i s).ai = s.ai ∧
    (occurs c i s).lens = s.lens ∧ (occurs c i s).pending = s.pending :=
  by unfold occurs; split <;> exact ⟨rfl, rfl, rfl, rfl, rfl, rfl, rfl, rfl, rfl, rfl, rfl, rfl, rfl, rfl, rfl, rfl, rfl,
    rfl, rfl, rfl, rfl, rfl, rfl, rfl, rfl, rfl, rfl, rfl, rfl, rfl, rfl, rfl, rfl, rfl, rfl, rfl, rfl, rfl, rfl, rfl, rfl,
    rfl, rfl, rfl, rfl, rfl, rfl, rfl, rfl, rfl, rfl, rfl, rfl, rfl, rfl, rfl⟩

@[simp] theorem raiseIf_rest (c : Bool) (b : Blk) (f : Fld) (s : State) :
    (raiseIf c b f s).mem = s.mem ∧ (raiseIf c b f s).ecc = s.ecc ∧ (raiseIf c b f s).flash = s.flash ∧
    (raiseIf c b f s).held = s.held ∧ (raiseIf c b f s).elapsed = s.elapsed ∧ (raiseIf c b f s).cycle = s.cycle ∧
    (raiseIf c b f s).aon = s.aon ∧ (raiseIf c b f s).occ = s.occ ∧ (raiseIf c b f s).evcPrev = s.evcPrev ∧
    (raiseIf c b f s).evc = s.evc ∧ (raiseIf c b f s).answer = s.answer ∧ (raiseIf c b f s).free = s.free ∧
    (raiseIf c b f s).time = s.time ∧ (raiseIf c b f s).slotLate = s.slotLate ∧ (raiseIf c b f s).slotOff = s.slotOff ∧
    (raiseIf c b f s).seqs = s.seqs ∧ (raiseIf c b f s).inbuf = s.inbuf ∧ (raiseIf c b f s).qWait = s.qWait ∧
    (raiseIf c b f s).fences = s.fences ∧ (raiseIf c b f s).qs = s.qs ∧ (raiseIf c b f s).qCommit = s.qCommit ∧
    (raiseIf c b f s).staging = s.staging ∧ (raiseIf c b f s).fenceSrc = s.fenceSrc ∧ (raiseIf c b f s).alarms = s.alarms ∧
    (raiseIf c b f s).alarmEnds = s.alarmEnds ∧ (raiseIf c b f s).alarmRaises = s.alarmRaises ∧
    (raiseIf c b f s).keeperPath = s.keeperPath ∧ (raiseIf c b f s).keeperMiss = s.keeperMiss ∧
    (raiseIf c b f s).incident = s.incident ∧ (raiseIf c b f s).le = s.le ∧ (raiseIf c b f s).exg = s.exg ∧
    (raiseIf c b f s).ao = s.ao ∧ (raiseIf c b f s).ax = s.ax ∧ (raiseIf c b f s).lp = s.lp ∧ (raiseIf c b f s).rg = s.rg ∧
    (raiseIf c b f s).lpEval = s.lpEval ∧ (raiseIf c b f s).rs = s.rs ∧ (raiseIf c b f s).inj = s.inj ∧
    (raiseIf c b f s).cap = s.cap ∧ (raiseIf c b f s).em = s.em ∧ (raiseIf c b f s).pt = s.pt ∧ (raiseIf c b f s).lu = s.lu ∧
    (raiseIf c b f s).sec = s.sec ∧ (raiseIf c b f s).ec = s.ec ∧ (raiseIf c b f s).pwr = s.pwr ∧ (raiseIf c b f s).hp = s.hp ∧
    (raiseIf c b f s).eth = s.eth ∧ (raiseIf c b f s).enven = s.enven ∧ (raiseIf c b f s).keeper = s.keeper ∧
    (raiseIf c b f s).lanes = s.lanes ∧ (raiseIf c b f s).fe = s.fe ∧ (raiseIf c b f s).rc = s.rc ∧
    (raiseIf c b f s).ai = s.ai ∧ (raiseIf c b f s).lens = s.lens ∧ (raiseIf c b f s).pending = s.pending :=
  by unfold raiseIf; split
     · exact raiseF_rest b f s
     · exact ⟨rfl, rfl, rfl, rfl, rfl, rfl, rfl, rfl, rfl, rfl, rfl, rfl, rfl, rfl, rfl, rfl, rfl, rfl, rfl, rfl, rfl, rfl,
    rfl, rfl, rfl, rfl, rfl, rfl, rfl, rfl, rfl, rfl, rfl, rfl, rfl, rfl, rfl, rfl, rfl, rfl, rfl, rfl, rfl, rfl, rfl, rfl,
    rfl, rfl, rfl, rfl, rfl, rfl, rfl, rfl, rfl⟩

@[simp] theorem raiseBit_rest (b : Blk) (f : Fld) (i : Nat) (s : State) :
    (raiseBit b f i s).mem = s.mem ∧ (raiseBit b f i s).ecc = s.ecc ∧ (raiseBit b f i s).flash = s.flash ∧
    (raiseBit b f i s).held = s.held ∧ (raiseBit b f i s).elapsed = s.elapsed ∧ (raiseBit b f i s).cycle = s.cycle ∧
    (raiseBit b f i s).aon = s.aon ∧ (raiseBit b f i s).occ = s.occ ∧ (raiseBit b f i s).evcPrev = s.evcPrev ∧
    (raiseBit b f i s).evc = s.evc ∧ (raiseBit b f i s).answer = s.answer ∧ (raiseBit b f i s).free = s.free ∧
    (raiseBit b f i s).time = s.time ∧ (raiseBit b f i s).slotLate = s.slotLate ∧ (raiseBit b f i s).slotOff = s.slotOff ∧
    (raiseBit b f i s).seqs = s.seqs ∧ (raiseBit b f i s).inbuf = s.inbuf ∧ (raiseBit b f i s).qWait = s.qWait ∧
    (raiseBit b f i s).fences = s.fences ∧ (raiseBit b f i s).qs = s.qs ∧ (raiseBit b f i s).qCommit = s.qCommit ∧
    (raiseBit b f i s).staging = s.staging ∧ (raiseBit b f i s).fenceSrc = s.fenceSrc ∧ (raiseBit b f i s).alarms = s.alarms ∧
    (raiseBit b f i s).alarmEnds = s.alarmEnds ∧ (raiseBit b f i s).alarmRaises = s.alarmRaises ∧
    (raiseBit b f i s).keeperPath = s.keeperPath ∧ (raiseBit b f i s).keeperMiss = s.keeperMiss ∧
    (raiseBit b f i s).incident = s.incident ∧ (raiseBit b f i s).le = s.le ∧ (raiseBit b f i s).exg = s.exg ∧
    (raiseBit b f i s).ao = s.ao ∧ (raiseBit b f i s).ax = s.ax ∧ (raiseBit b f i s).lp = s.lp ∧ (raiseBit b f i s).rg = s.rg ∧
    (raiseBit b f i s).lpEval = s.lpEval ∧ (raiseBit b f i s).rs = s.rs ∧ (raiseBit b f i s).inj = s.inj ∧
    (raiseBit b f i s).cap = s.cap ∧ (raiseBit b f i s).em = s.em ∧ (raiseBit b f i s).pt = s.pt ∧
    (raiseBit b f i s).lu = s.lu ∧ (raiseBit b f i s).sec = s.sec ∧ (raiseBit b f i s).ec = s.ec ∧
    (raiseBit b f i s).pwr = s.pwr ∧ (raiseBit b f i s).hp = s.hp ∧ (raiseBit b f i s).eth = s.eth ∧
    (raiseBit b f i s).enven = s.enven ∧ (raiseBit b f i s).keeper = s.keeper ∧ (raiseBit b f i s).lanes = s.lanes ∧
    (raiseBit b f i s).fe = s.fe ∧ (raiseBit b f i s).rc = s.rc ∧ (raiseBit b f i s).ai = s.ai ∧
    (raiseBit b f i s).lens = s.lens ∧ (raiseBit b f i s).pending = s.pending :=
  by
    unfold raiseBit
    simp only
    generalize (if bitAt (getF s b f) i = 1 then getF s b f else getF s b f + 2 ^ i) = v
    split <;> exact ⟨rfl, rfl, rfl, rfl, rfl, rfl, rfl, rfl, rfl, rfl, rfl, rfl, rfl, rfl, rfl, rfl, rfl, rfl, rfl, rfl, rfl,
    rfl, rfl, rfl, rfl, rfl, rfl, rfl, rfl, rfl, rfl, rfl, rfl, rfl, rfl, rfl, rfl, rfl, rfl, rfl, rfl, rfl, rfl, rfl, rfl,
    rfl, rfl, rfl, rfl, rfl, rfl, rfl, rfl, rfl, rfl⟩

@[simp] theorem getF_setByte (a : Nat) (v : Byte) (s : State) (b : Blk) (fd : Fld) : getF (setByte a v s) b fd = getF s b fd := rfl
@[simp] theorem getF_setFlash (a : Nat) (v : Byte) (s : State) (b : Blk) (fd : Fld) : getF (setFlash a v s) b fd = getF s b fd := rfl
@[simp] theorem getF_setWord (a : Nat) (w : Word) (s : State) (b : Blk) (fd : Fld) : getF (setWord a w s) b fd = getF s b fd := rfl
@[simp] theorem getF_eraseFlash (a n : Nat) (s : State) (b : Blk) (fd : Fld) : getF (eraseFlash a n s) b fd = getF s b fd := rfl
@[simp] theorem getF_freeNext (s : State) (b : Blk) (fd : Fld) : getF (freeNext s) b fd = getF s b fd := rfl
@[simp] theorem getF_seqNext (c i : Nat) (s : State) (b : Blk) (fd : Fld) : getF (seqNext c i s) b fd = getF s b fd := rfl
@[simp] theorem getF_State.take (r : List Instr) (s : State) (b : Blk) (fd : Fld) : getF (s.take r) b fd = getF s b fd := rfl
@[simp] theorem getF_State.enqueueFront (c : Instr) (s : State) (b : Blk) (fd : Fld) : getF (s.enqueueFront c) b fd = getF s b fd := rfl
@[simp] theorem getF_setAlarm (i : Fin 132) (e : AlarmEntry) (s : State) (b : Blk) (fd : Fld) : getF (setAlarm i e s) b fd = getF s b fd := rfl
@[simp] theorem getF_modTime (g : TimeSt → TimeSt) (s : State) (b : Blk) (fd : Fld) : getF (modTime g s) b fd = getF s b fd := rfl
@[simp] theorem getF_modCap (g : CapSt → CapSt) (s : State) (b : Blk) (fd : Fld) : getF (modCap g s) b fd = getF s b fd := rfl
@[simp] theorem getF_modEc (g : EcSt → EcSt) (s : State) (b : Blk) (fd : Fld) : getF (modEc g s) b fd = getF s b fd := rfl
@[simp] theorem getF_modEnven (g : EnvenSt → EnvenSt) (s : State) (b : Blk) (fd : Fld) : getF (modEnven g s) b fd = getF s b fd := rfl
@[simp] theorem getF_modHp (g : HpSt → HpSt) (s : State) (b : Blk) (fd : Fld) : getF (modHp g s) b fd = getF s b fd := rfl
@[simp] theorem getF_modPwr (g : PwrSt → PwrSt) (s : State) (b : Blk) (fd : Fld) : getF (modPwr g s) b fd = getF s b fd := rfl
@[simp] theorem getF_modKeeper (g : KeeperSt → KeeperSt) (s : State) (b : Blk) (fd : Fld) : getF (modKeeper g s) b fd = getF s b fd := rfl
@[simp] theorem getF_modRc (n : Fin 16) (g : RcSt → RcSt) (s : State) (b : Blk) (fd : Fld) : getF (modRc n g s) b fd = getF s b fd := rfl
@[simp] theorem getF_modAi (n : Fin 8) (g : AiSt → AiSt) (s : State) (b : Blk) (fd : Fld) : getF (modAi n g s) b fd = getF s b fd := rfl
@[simp] theorem getF_modLane (n : Fin 40) (g : LaneSt → LaneSt) (s : State) (b : Blk) (fd : Fld) : getF (modLane n g s) b fd = getF s b fd := rfl
@[simp] theorem getF_modLp (n : Fin 64) (g : LpSt → LpSt) (s : State) (b : Blk) (fd : Fld) : getF (modLp n g s) b fd = getF s b fd := rfl
@[simp] theorem getF_modAx (n : Fin 16) (g : AxSt → AxSt) (s : State) (b : Blk) (fd : Fld) : getF (modAx n g s) b fd = getF s b fd := rfl
@[simp] theorem getF_modExg (n : Fin 16) (g : ExgSt → ExgSt) (s : State) (b : Blk) (fd : Fld) : getF (modExg n g s) b fd = getF s b fd := rfl
@[simp] theorem getF_modAo (n : Fin 8) (g : AoSt → AoSt) (s : State) (b : Blk) (fd : Fld) : getF (modAo n g s) b fd = getF s b fd := rfl
@[simp] theorem getF_modInj (n : Fin 4) (g : InjSt → InjSt) (s : State) (b : Blk) (fd : Fld) : getF (modInj n g s) b fd = getF s b fd := rfl
@[simp] theorem getF_modEth (n : Fin 2) (g : EthSt → EthSt) (s : State) (b : Blk) (fd : Fld) : getF (modEth n g s) b fd = getF s b fd := rfl
@[simp] theorem getF_modLens (n : Fin 16) (g : LensSt → LensSt) (s : State) (b : Blk) (fd : Fld) : getF (modLens n g s) b fd = getF s b fd := rfl
@[simp] theorem getF_modRg (n : Fin 4) (g : RgSt → RgSt) (s : State) (b : Blk) (fd : Fld) : getF (modRg n g s) b fd = getF s b fd := rfl
@[simp] theorem getF_modEm (n : Fin 16) (g : EmSt → EmSt) (s : State) (b : Blk) (fd : Fld) : getF (modEm n g s) b fd = getF s b fd := rfl
@[simp] theorem getF_modLu (n : Fin 32) (g : LuSt → LuSt) (s : State) (b : Blk) (fd : Fld) : getF (modLu n g s) b fd = getF s b fd := rfl
@[simp] theorem getF_modSec (n : Fin 64) (g : SecSt → SecSt) (s : State) (b : Blk) (fd : Fld) : getF (modSec n g s) b fd = getF s b fd := rfl
@[simp] theorem getF_modQs (n : Fin 16) (g : QSt → QSt) (s : State) (b : Blk) (fd : Fld) : getF (modQs n g s) b fd = getF s b fd := rfl
@[simp] theorem getF_modRs (n : Fin 16) (g : RsSt → RsSt) (s : State) (b : Blk) (fd : Fld) : getF (modRs n g s) b fd = getF s b fd := rfl
@[simp] theorem getF_modLe (n : Fin 8) (g : LeSt → LeSt) (s : State) (b : Blk) (fd : Fld) : getF (modLe n g s) b fd = getF s b fd := rfl

end Sys2Proof.Machine
end

