-- ==== Sys2Proof/Laws/Regs.lean ====
section
/-!
SUPPORT. Register fields: what a field reads after a field is set, and what an accepted write does.
-/

namespace Sys2Proof.Machine

/-- A field set reads as its value, cut to its width. -/
@[simp] theorem getF_setF_self (b : Blk) (f : Fld) (v : Nat) (s : State) : getF (setF b f v s) b f = v % 2 ^ f.width := by
  unfold getF setF
  simp only
  have h := assocGet_set_self (f.rst (blkIndex b) % 2 ^ f.width) (fkey b f) (v % 2 ^ f.width) s.regs
  cases e : assocGet (fkey b f)
      (assocSet (f.rst (blkIndex b) % 2 ^ f.width) (fkey b f) (v % 2 ^ f.width) s.regs) with
  | none => rw [e] at h; simp only [Option.getD_none] at h ⊢; rw [h]
  | some x => rw [e] at h; simp only [Option.getD_some] at h ⊢; rw [h, Nat.mod_mod]

/-- A field of another key reads as before. -/
theorem getF_setF_ne {b c : Blk} {f g : Fld} (h : fkey c g ≠ fkey b f) (v : Nat) (s : State) :
    getF (setF b f v s) c g = getF s c g := by
  unfold getF setF
  simp only [assocGet_set_ne h]

/-- A field is below the bound of its width. -/
theorem getF_lt (s : State) (b : Blk) (f : Fld) : getF s b f < 2 ^ f.width := Nat.mod_lt _ (Nat.two_pow_pos _)

/-- A field reads its register file alone. -/
theorem getF_congr {s t : State} (h : s.regs = t.regs) (b : Blk) (f : Fld) : getF s b f = getF t b f := by
  unfold getF; rw [h]

/-- Fields of one block at different places have different keys. -/
theorem fkey_ne {b : Blk} {f g : Fld} (hf : f.lo < 32) (hg : g.lo < 32) (h : f.off ≠ g.off ∨ f.lo ≠ g.lo) :
    fkey b f ≠ fkey b g := by
  unfold fkey; omega

/-- A field at another place of the same block reads as before. -/
theorem getF_setF_other {b : Blk} {f g : Fld} (hf : f.lo < 32) (hg : g.lo < 32) (h : g.off ≠ f.off ∨ g.lo ≠ f.lo)
    (v : Nat) (s : State) : getF (setF b f v s) b g = getF s b g :=
  getF_setF_ne (fkey_ne hg hf h) v s

/-- An accepted write beside BLK_CTRL makes the block's own store and nothing else. -/
theorem judgedWrite_ok {ag : Agent} {b : Blk} {off : Nat} {w : Word} {store : State → State} {s : State}
    (h : judge ag b off w s = .ok) (h4 : off ≠ 4) : judgedWrite ag b off w store s = store s := by
  unfold judgedWrite; rw [h]; simp [h4]

/-- The judgement of an accepted write. -/
theorem judge_ok_iff (ag : Agent) (b : Blk) (off : Nat) (w : Word) (s : State) :
    judge ag b off w s = .ok ↔ Accepts ag b off w s := by
  unfold judge Accepts
  cases awake s <;> cases underReset s b <;> cases isolated s b <;> simp
  by_cases h : ag.code = owner s b <;> simp [h]

/-- An accepted write makes the block's own store. -/
theorem judgedWrite_accepts {ag : Agent} {b : Blk} {off : Nat} {w : Word} {store : State → State} {s : State}
    (h : Accepts ag b off w s) (h4 : off ≠ 4) : judgedWrite ag b off w store s = store s :=
  judgedWrite_ok ((judge_ok_iff ..).2 h) h4

/-- A write by another than the owner is rejected and recorded (R8). -/
theorem judgedWrite_own {ag : Agent} {b : Blk} {off : Nat} {w : Word} {store : State → State} {s : State}
    (h : judge ag b off w s = .own) : judgedWrite ag b off w store s = blkErr b .own ag.code off s := by
  unfold judgedWrite; rw [h]

/-! ### A field after the basic updates -/

/-- A field of a register file: reads of fields depend on `regs` alone. -/
def getR (r : List (Nat × Nat)) (b : Blk) (f : Fld) : Nat :=
  ((assocGet (fkey b f) r).getD (f.rst (blkIndex b))) % 2 ^ f.width

theorem getF_eq (s : State) (b : Blk) (f : Fld) : getF s b f = getR s.regs b f := rfl

/-- Hardware sets a bit: the field reads 1. -/
@[simp] theorem getF_raiseF_self (b : Blk) (f : Fld) (s : State) : getF (raiseF b f s) b f = 1 % 2 ^ f.width := by
  have h : (raiseF b f s).regs = (setF b f 1 s).regs := by unfold raiseF; simp only; split <;> rfl
  rw [getF_congr h]; simp

/-- Hardware sets a bit: every field of another key reads as before. -/
theorem getF_raiseF_ne {b c : Blk} {f g : Fld} (h : fkey c g ≠ fkey b f) (s : State) :
    getF (raiseF b f s) c g = getF s c g := by
  have e : (raiseF b f s).regs = (setF b f 1 s).regs := by unfold raiseF; simp only; split <;> rfl
  rw [getF_congr e, getF_setF_ne h]

theorem getF_raiseF_other {b : Blk} {f g : Fld} (hf : f.lo < 32) (hg : g.lo < 32) (h : g.off ≠ f.off ∨ g.lo ≠ f.lo)
    (s : State) : getF (raiseF b f s) b g = getF s b g :=
  getF_raiseF_ne (fkey_ne hg hf h) s

/-! ### Registers outside a list of fields -/

theorem RegsBut.refl (l : List (Blk × Fld)) (s : State) : RegsBut l s s := fun _ _ _ => rfl

theorem RegsBut.of_regs {l : List (Blk × Fld)} {s t u : State} (h : RegsBut l s t) (e : u.regs = t.regs) : RegsBut l s u :=
  fun b f hf => by rw [getF_congr e]; exact h b f hf

theorem RegsBut.setF {b : Blk} {f : Fld} {v : Nat} {l : List (Blk × Fld)} {s t : State} (h : RegsBut l s t)
    (m : (b, f) ∈ l) : RegsBut l s (setF b f v t) := fun c g hg => by
  rw [getF_setF_ne (hg _ m)]; exact h c g hg

theorem RegsBut.raiseF {b : Blk} {f : Fld} {l : List (Blk × Fld)} {s t : State} (h : RegsBut l s t)
    (m : (b, f) ∈ l) : RegsBut l s (raiseF b f t) := fun c g hg => by
  rw [getF_raiseF_ne (hg _ m)]; exact h c g hg

theorem RegsBut.raiseIf {c : Bool} {b : Blk} {f : Fld} {l : List (Blk × Fld)} {s t : State} (h : RegsBut l s t)
    (m : (b, f) ∈ l) : RegsBut l s (raiseIf c b f t) := by
  unfold Machine.raiseIf; split
  · exact h.raiseF m
  · exact h

end Sys2Proof.Machine
end

