-- ==== Sys2Proof/Laws/Store.lean ====
section
/-!
SUPPORT. The register map's own facts, and what a word stored field by field does to each field (R8 to R10).
-/

namespace Sys2Proof.Machine

/-- A register of the map is sound: its fields stand at its first field's offset, inside the word, at different places. -/
def regSound (r : List Fld) : Bool :=
  match r with
  | [] => true
  | f :: _ => r.all (fun g => g.off == f.off && decide (g.lo ≤ g.hi) && decide (g.hi < 32))
      && decide ((r.map Fld.lo).Pairwise (· ≠ ·))

set_option maxRecDepth 4000 in
theorem regMap_sound (b : Blk) : (blkRegs b).all regSound = true := by
  cases b <;> simp only [blkRegs] <;> decide

/-- The fields of a register stand at its offset, inside the word, at different places. -/
theorem fieldsAt_sound (b : Blk) (off : Nat) :
    (∀ f ∈ fieldsAt b off, f.off = off ∧ f.lo ≤ f.hi ∧ f.hi < 32) ∧ (fieldsAt b off).Pairwise (fun f g => f.lo ≠ g.lo) := by
  unfold fieldsAt
  cases h : (blkRegs b).find? (fun r => match r with | f :: _ => f.off == off | [] => false) with
  | none => simp
  | some r =>
    have hm := List.mem_of_find?_eq_some h
    have hp := List.find?_some h
    have hs := (List.all_eq_true.1 (regMap_sound b)) r hm
    simp only [Option.getD_some]
    cases r with
    | nil => simp
    | cons f t =>
      simp only [beq_iff_eq] at hp
      simp only [regSound, Bool.and_eq_true, List.all_eq_true, decide_eq_true_eq, beq_iff_eq] at hs
      refine ⟨fun g hg => ⟨(hs.1 g hg).1.1.trans hp, (hs.1 g hg).1.2, (hs.1 g hg).2⟩, ?_⟩
      exact List.pairwise_map.1 hs.2

theorem getF_clearBit_ne {b c : Blk} {f g : Fld} (h : fkey c g ≠ fkey b f) (i : Nat) (s : State) :
    getF (clearBit b f i s) c g = getF s c g := by
  unfold clearBit; simp only; exact getF_setF_ne h _ _

theorem getF_clearW1c_ne {b c : Blk} {f g : Fld} (h : fkey c g ≠ fkey b f) (w : Word) (s : State) :
    getF (clearW1c b f w s) c g = getF s c g := by
  unfold clearW1c
  generalize List.range f.width = l
  induction l generalizing s with
  | nil => rfl
  | cons i t ih =>
    simp only [List.foldl_cons]
    rw [ih]
    split
    · exact getF_clearBit_ne h _ _
    · rfl

/-- Storing one field leaves every other field alone. -/
theorem getF_storeField_ne {b c : Blk} {f g : Fld} (h : fkey c g ≠ fkey b f) (run : Bool) (w : Word) (s : State) :
    getF (storeField run b w f s) c g = getF s c g := by
  unfold storeField
  split
  · exact getF_setF_ne h _ _
  · split
    · rfl
    · exact getF_setF_ne h _ _
  · exact getF_clearW1c_ne h _ _
  · rfl
  · rfl
  · rfl

theorem getF_storeList_ne {b c : Blk} {g : Fld} (run : Bool) (w : Word) (l : List Fld)
    (h : ∀ f ∈ l, fkey c g ≠ fkey b f) (s : State) : getF (forAll l (storeField run b w) s) c g = getF s c g := by
  unfold forAll
  induction l generalizing s with
  | nil => rfl
  | cons f t ih =>
    simp only [List.foldl_cons]
    rw [ih (fun f' hf => h f' (List.mem_cons_of_mem _ hf)), getF_storeField_ne (h f List.mem_cons_self)]

theorem clearW1c_fresh (b : Blk) (f : Fld) (w : Word) (s : State) : (clearW1c b f w s).fresh = s.fresh := by
  unfold clearW1c
  generalize List.range f.width = l
  have : ∀ u : State, u.fresh = s.fresh → (l.foldl (fun s i =>
      if bitAt (fieldOf w f) i = 1 ∧ ¬ s.fresh.contains (bitKey b f i) then clearBit b f i s else s) u).fresh = s.fresh := by
    induction l with
    | nil => exact fun _ h => h
    | cons i t ih =>
      intro u h
      simp only [List.foldl_cons]
      refine ih _ ?_
      split
      · exact h
      · exact h
  exact this s rfl

theorem storeField_fresh (run : Bool) (b : Blk) (w : Word) (f : Fld) (s : State) :
    (storeField run b w f s).fresh = s.fresh := by
  unfold storeField
  split
  · rfl
  · split <;> rfl
  · exact clearW1c_fresh b f w s
  · rfl
  · rfl
  · rfl

/-- A stored register leaves the fields of every other register alone. -/
theorem getF_storeFields_off {b : Blk} {off : Nat} {g : Fld} (hg : g.lo < 32) (h : g.off ≠ off) (w : Word) (s : State) :
    getF (storeFields b off w s) b g = getF s b g := by
  unfold storeFields
  refine getF_storeList_ne _ w _ (fun f hf => ?_) s
  have e := (fieldsAt_sound b off).1 f hf
  exact fkey_ne hg (by omega) (.inl (by omega))

/-- One field of a stored register is stored from a state in which it still has its value. -/
theorem storeFields_mem {b : Blk} {off : Nat} {f : Fld} (hf : f ∈ fieldsAt b off) (w : Word) (s : State) :
    ∃ u, getF u b f = getF s b f ∧ u.fresh = s.fresh ∧
      getF (storeFields b off w s) b f = getF (storeField (running s b) b w f u) b f := by
  unfold storeFields forAll
  simp only
  generalize running s b = run
  have hs := fieldsAt_sound b off
  generalize fieldsAt b off = l at hf hs
  induction l generalizing s with
  | nil => simp at hf
  | cons g t ih =>
    simp only [List.foldl_cons]
    have hp := List.pairwise_cons.1 hs.2
    have ho : ∀ x ∈ g :: t, x.off = off ∧ x.lo < 32 := fun x hx => ⟨(hs.1 x hx).1, by have := hs.1 x hx; omega⟩
    rcases List.mem_cons.1 hf with e | hm
    · subst e
      refine ⟨s, rfl, rfl, getF_storeList_ne run w t (fun x hx => ?_) _⟩
      exact fkey_ne (ho f List.mem_cons_self).2 (ho x (List.mem_cons_of_mem _ hx)).2 (.inr (hp.1 x hx))
    · obtain ⟨u, h1, h2, h3⟩ := ih (storeField run b w g s) hm ⟨fun x hx => hs.1 x (List.mem_cons_of_mem _ hx), hp.2⟩
      have hk : fkey b f ≠ fkey b g :=
        fkey_ne (ho f (List.mem_cons_of_mem _ hm)).2 (ho g List.mem_cons_self).2 (.inr (fun e => hp.1 f hm e.symm))
      exact ⟨u, h1.trans (getF_storeField_ne hk run w s), h2.trans (storeField_fresh run b w g s), h3⟩

/-- An RW field takes the written value, moved into its range (R7, R10). -/
theorem getF_storeFields_rw {b : Blk} {off : Nat} {f : Fld} (hf : f ∈ fieldsAt b off) (ha : f.acc = .rw) (w : Word)
    (s : State) : getF (storeFields b off w s) b f = f.fit (fieldOf w f) % 2 ^ f.width := by
  obtain ⟨u, -, -, h⟩ := storeFields_mem hf w s
  rw [h]; simp [storeField, ha]

/-- An RWO field of a block that does not run takes the written value, moved into its range (R8). -/
theorem getF_storeFields_rwo {b : Blk} {off : Nat} {f : Fld} (hf : f ∈ fieldsAt b off) (ha : f.acc = .rwo) (w : Word)
    (s : State) (hr : running s b = false) : getF (storeFields b off w s) b f = f.fit (fieldOf w f) % 2 ^ f.width := by
  obtain ⟨u, -, -, h⟩ := storeFields_mem hf w s
  rw [h]; simp [storeField, ha, hr]

/-- An RWO field of a running block keeps its value (R8). -/
theorem getF_storeFields_running {b : Blk} {off : Nat} {f : Fld} (hf : f ∈ fieldsAt b off) (ha : f.acc = .rwo) (w : Word)
    (s : State) (hr : running s b = true) : getF (storeFields b off w s) b f = getF s b f := by
  obtain ⟨u, h1, -, h⟩ := storeFields_mem hf w s
  rw [h]; simp [storeField, ha, hr, h1]

/-- A field that a write does not reach keeps its value (R7). -/
theorem getF_storeFields_ro {b : Blk} {off : Nat} {f : Fld} (hf : f ∈ fieldsAt b off)
    (ha : f.acc = .ro ∨ f.acc = .wo ∨ f.acc = .snap) (w : Word) (s : State) :
    getF (storeFields b off w s) b f = getF s b f := by
  obtain ⟨u, h1, -, h⟩ := storeFields_mem hf w s
  rw [h]; rcases ha with ha | ha | ha <;> simp [storeField, ha, h1]

end Sys2Proof.Machine
end

