-- ==== Sys2Proof/Tests/Witness.lean ====
section
/-!
SUPPORT. Witnesses: for every statement of Certificates/Slice0/Obligations.lean that has hypotheses, a concrete state and operands
that meet the hypotheses of each of its clauses together. `test_witness_<Name>` belongs to `Obligations.<Name>`.
-/

namespace Sys2Proof.Tests

set_option Elab.async false

open Sys2Proof Sys2Proof.Machine

/-- An awake device in FULL, its clocks running, bring-up over, every block as after reset. -/
def base : State :=
  setF .pwr Pwr.CLK_PLLLOCK 1 (setF .pwr Pwr.MODE_MODE 0 ({ pwr := { stage := 8, good := true }, ec := { safeLow := false, safePin := false } } : State))

/-- Ten seconds later. -/
def later : State := { base with elapsed := 10000000000 * 2 ^ 28 }

/-- Fields of registers set in a state. -/
def put (l : List (Blk × Fld × Nat)) (s : State) : State := l.foldl (fun s p => setF p.1 p.2.1 p.2.2 s) s

/-- The word that holds a value in a field. -/
def fw (f : Fld) (v : Nat) : Word := wordOf (v * 2 ^ f.lo)

/-- The device in DORMANT. -/
def asleep : State := put [(.pwr, Pwr.MODE_MODE, 4)] base

theorem test_witness_StepRunsTheFrontCommand :
    ({ base with pending := [.nop 0] } : State).pending = .nop 0 :: [] ∧ base.pending = [] := by decide +kernel

theorem test_witness_EveryStepKeepsTheBounds :
    State.reset.memWf = true ∧ State.reset.enginesWf = true ∧ (blkFixed .time = true ∧ owner State.reset .time = resetOwner .time) ∧
    (0x4FEB851F ≤ incr State.reset ∧ incr State.reset ≤ 0x50147AE1) ∧ ∃ t, step State.reset = .next t :=
  ⟨by decide +kernel, by decide +kernel, by decide +kernel, by decide +kernel, _, rfl⟩

theorem test_witness_EveryStepTakesOneCommand : ∃ t, step { base with pending := [.brownout 0] } = .next t := ⟨_, rfl⟩

theorem test_witness_JarharusDecodeOfEncode :
    (Instr.add_ 0 3 1 2).wellFormed = true ∧ encodeJar (.add_ 0 3 1 2) = some 0x04611000 ∧ (Instr.add_ 0 3 1 2).jarharus = true ∧
    (Instr.illop 7 0x04610013).wellFormed = true := by decide +kernel

theorem test_witness_TimeAdjustments :
    Accepts .keeper .time 0x28 0 base ∧ Accepts .keeper .time 0x28 5 base ∧ Accepts .keeper .time 0x28 0x7FFFFFFF base ∧
    base.time.stepPend = none ∧ getF base .time Time.SLEW_LIMIT < 0x7FFFFFFF ∧ 5 ≤ getF base .time Time.SLEW_LIMIT ∧
    Accepts .keeper .time 0x28 5 { base with time := { base.time with stepPend := some (-(5 * 2 ^ 28)) } } := by
  decide +kernel

theorem test_witness_IncrIsClamped :
    Accepts .keeper .time 0x20 0x50000000 base ∧ Accepts .keeper .time 0x20 0x4FEB851F base ∧
    Accepts .keeper .time 0x20 0x4FEB851E base ∧ Accepts .keeper .time 0x20 0x50147AE1 base ∧
    Accepts .keeper .time 0x20 0x50147AE2 base := by decide +kernel

theorem test_witness_TickAddsTheEffectiveIncrement :
    base.time.stepPend = none ∧ base.time.slewRem = 0 ∧
    (∀ r ∈ [(2 : Int) ^ 40, -2 ^ 40], let s : State := { base with time := { base.time with slewRem := r } };
     s.time.stepPend = none ∧ s.time.slewRem ≠ 0 ∧ s.time.kAdj = false ∧
       roundEven ((incr s * getF s .time Time.SLEW_RATE : Nat) : Int) 1000000 < s.time.slewRem.natAbs) ∧
    (let s : State :=
       { base with time := { base.time with slewRem := 2 ^ 20, now := 2 ^ 32 - 1, frac := 2 ^ 28 - 1, zeroPend := true, kAdj := true } }
     s.time.stepPend = none ∧ s.time.slewRem ≠ 0 ∧ s.time.kAdj = true ∧ s.time.zeroPend = true ∧ (timeTick s).time.slewRem = 0 ∧
     (nowUnits s + tickUnits s) / 2 ^ 60 ≠ nowUnits s / 2 ^ 60) := by decide +kernel

theorem test_witness_TickRowsComplete :
    clocked base .system = true ∧ base.time.zeroPend = false ∧ base.time.slewRem = 0 ∧ base.time.stepPend = none ∧
    (let s : State := { base with time := { base.time with slewRem := 2 ^ 20, zeroPend := true, stepPend := some 1, now := 10 ^ 9 - 1 } }
     clocked s .system = true ∧ s.time.zeroPend = true ∧ s.time.slewRem ≠ 0 ∧ (nextIncr s).2 = 0 ∧
     s.time.stepPend = some 1 ∧ (cycleEnd s).time.stepPend = some 1 ∧ getF (cycleEnd s) .time Time.CFG_ROLE ≠ 2 ∧
     (nowUnits s + tickUnits s) / secUnits ≠ nowUnits s / secUnits) ∧
    (let s : State := { base with time := { base.time with slewRem := 2 ^ 20, zeroPend := true, kAdj := true } }
     (cycleEnd s).time.stepPend = none ∧ (cycleEnd s).time.zeroPend = true ∧ (cycleEnd s).time.kAdj = true ∧
     (cycleEnd s).time.slewRem ≠ 0 ∧ (nextIncr (cycleEnd s)).2 = 0) ∧
    (let s : State := { base with time := { base.time with now := 2 ^ 32 - 1 } }
     clocked s .system = true ∧ (nowUnits s + tickUnits s) / 2 ^ 60 ≠ nowUnits s / 2 ^ 60) ∧
    (let s : State := { put [(.evc, Evc.EVCN_CFG_EN 31, 1), (.evc, Evc.EVCN_CFG_KIND 31, 1)] base with
                        evc := base.evc.set 31 (2 ^ 48 - 1) }
     clocked s .system = true ∧ evcWraps (cycleSettle s) 31 = true) := by
  decide +kernel

theorem test_witness_MasterAndSyncEvents :
    clocked base .port = true ∧ devNow base 15 = 0 ∧
    getF base .time Time.CFG_ROLE ≠ 2 ∧ getF base .time Time.STATUS_HOLDOVER = 0 ∧
    (let s := put [(.time, Time.STATUS_HOLDOVER, 1)] base
     clocked s .system = true ∧ getF s .time Time.CFG_ROLE ≠ 2 ∧ getF s .time Time.STATUS_HOLDOVER = 1) ∧
    (let s := put [(.time, Time.CFG_ROLE, 1)] base
     clocked s .system = true ∧ getF s .time Time.CFG_ROLE = 1 ∧ s.time.syncStop = false ∧
     timeUnits s % (1000000 * 2 ^ 28) < s.time.inc ∧ s.time.syncAt = none) ∧
    (let s := put [(.time, Time.CFG_ROLE, 2)] later
     clocked s .system = true ∧ getF s .time Time.CFG_ROLE = 2 ∧ getF s .time Time.STATUS_SYNCLOST = 0 ∧
     s.time.stepPend = none ∧ s.time.gotEdge = false ∧ 10000000 ≤ sinceNs s s.time.roleAt ∧
     crc16 80 0 ≠ (1 : BitVec 96).toNat % 2 ^ 16 ∧
     (let x : BitVec 96 := BitVec.ofNat 96 (crc16 80 0)
      crc16 80 (x.toNat / 2 ^ 16) = x.toNat % 2 ^ 16 ∧ x.toNat / 2 ^ 48 = timeSec s ∧
        x.toNat / 2 ^ 32 % 2 ^ 16 = timeEpoch s)) ∧
    (let s : State := { put [(.time, Time.CFG_ROLE, 2)] later with time := { later.time with gotEdge := true } }
     clocked s .system = true ∧ getF s .time Time.STATUS_SYNCLOST = 0 ∧ s.time.gotEdge = true ∧
     3000000 < sinceNs s s.time.edgeAt) ∧
    (let s : State := { put [(.time, Time.CFG_ROLE, 2), (.time, Time.STATUS_SYNCLOST, 1)] base with
                        time := { base.time with syncGood := 2 } }
     clocked s .system = true ∧ getF s .time Time.CFG_ROLE = 2 ∧ getF s .time Time.STATUS_SYNCLOST = 1 ∧ 2 ≤ s.time.syncGood) ∧
    (let s : State := { put [(.time, Time.CFG_PPSEN, 1)] later with time := { later.time with ppsOut := true } }
     clocked s .system = true ∧ getF s .time Time.CFG_PPSEN = 1 ∧ s.time.ppsOut = true ∧
     1000 * getF s .time Time.CFG_PPSW ≤ sinceNs s s.time.ppsAt) ∧
    (let s := put [(.time, Time.CFG_PPSEN, 1)] base
     clocked s .system = true ∧ getF s .time Time.CFG_PPSEN = 1 ∧ timeUnits s % (1000000000 * 2 ^ 28) < s.time.inc ∧
     s.time.ppsOut = false) ∧
    (∀ p ∈ ([(true, 0, false), (false, 2, false), (false, 0, true)] : List (Bool × Nat × Bool)),
     let s : State := { put [(.time, Time.CFG_ROLE, 2)] later with
                        time := { later.time with edgeFar := p.1, syncBad := p.2.1, gotEdge := p.2.2 } }
     clocked s .system = true ∧ getF s .time Time.CFG_ROLE = 2 ∧ getF s .time Time.STATUS_SYNCLOST = 0 ∧
     (s.time.edgeFar = true ∨ 2 ≤ s.time.syncBad ∨ (s.time.gotEdge = true ∧ 3000000 < sinceNs s s.time.edgeAt))) := by decide +kernel

theorem test_witness_WritesStoreOrAreRejected :
    (target (BitVec.ofNat 32 (blkBase (.pt 63) + 8)).toNat = .reg (.pt 63) 8 ∧ Accepts .keeper (.pt 63) 8 1 base) ∧
    (target (BitVec.ofNat 32 (blkBase .pwr + 8)).toNat = .reg .pwr 8 ∧ Accepts .keeper .pwr 8 0 base) ∧
    (target (0x28000010 : Word).toNat = .pool 0x10 ∧ awake base = true ∧ regionReset base .control = false ∧
      ringAt base 0x10 = none) ∧
    target (0x0FFFFFFC : Word).toNat = .unmapped ∧ awake asleep = false ∧
    (let s := put [(.ec, Ec.RERR_RSTBUSY 2, 1)] base
     awake s = true ∧ underReset s (.exg 0) = true) ∧
    (let s := put [(.exg 0, Hdr.ISOLATED, 1), (.exg 0, Hdr.ISOLATE, 1)] base
     awake s = true ∧ underReset s (.exg 0) = false ∧ isolated s (.exg 0) = true) ∧
    (awake base = true ∧ underReset base (.exg 0) = false ∧ isolated base (.exg 0) = false ∧
      Agent.host.code ≠ owner base (.exg 0)) := by decide +kernel

/-- Word of an address. -/
def at_ (b : Blk) (off : Nat) : Word := wordOf (blkBase b + off)

theorem test_witness_WritesStoreOrAreRejected_rows :
    (clocked base .system = true ∧ frozen base = false ∧ ¬ (1 ≤ owner base (.exg 0) ∧ owner base (.exg 0) ≤ 8) ∧
      getF base .ec Ec.GRADE_OWN ≠ 3 ∧ bitAt (getF base .ec Ec.ISOEN) 0 = 0) ∧
    (target (at_ (.exg 0) Exg.STATUS_STATE.off).toNat = .reg (.exg 0) Exg.STATUS_STATE.off ∧
      target (at_ (.slot 63) Slot.STATUS_STATE.off).toNat = .reg (.slot 63) Slot.STATUS_STATE.off ∧
      target (at_ (.q 15) Q.STATUS_EMPTY.off).toNat = .reg (.q 15) Q.STATUS_EMPTY.off ∧
      target (at_ .time Time.STATUS_SET.off).toNat = .reg .time Time.STATUS_SET.off ∧
      Accepts .keeper (.exg 0) Exg.STATUS_STATE.off 0xFFFFFFFF base ∧ Accepts .keeper (.slot 63) Slot.STATUS_STATE.off 0xFFFFFFFF base ∧
      Accepts .keeper (.q 15) Q.STATUS_EMPTY.off 0xFFFFFFFF base ∧ Accepts .keeper .time Time.STATUS_SET.off 0xFFFFFFFF base) ∧
    (let s := put [(.slot 0, Slot.STATUS_STATE, 1)] base;
     target (at_ (.slot 0) 0xC).toNat = .reg (.slot 0) 0xC ∧ awake s = true ∧ underReset s (.slot 0) = false ∧
     isolated s (.slot 0) = false ∧ Agent.keeper.code = owner s (.slot 0) ∧ running s (.slot 0) = true ∧
     rwoChanged s (.slot 0) 0xC 7 = true) ∧
    (target (at_ (.exg 0) 4).toNat = .reg (.exg 0) 4 ∧ Accepts .keeper (.exg 0) 4 0xFFFFFFFF base) ∧
    (target (at_ .chip 0).toNat = .reg .chip 0 ∧ blkFixed .chip = true ∧ underReset base .chip = false ∧ Agent.host.code = owner base .chip) ∧
    target (0x40050200 : Word).toNat = .ident 0x40050200 ∧
    (target (0x10028000 : Word).toNat = .lensTab 0 true 0 ∧ awake base = true ∧ underReset base (.lens 0) = false ∧
      isolated base (.lens 0) = false ∧ Agent.keeper.code = owner base (.lens 0)) ∧
    (target (0x29000000 : Word).toNat = .capMem 0 ∧ underReset base .cap = false ∧ isolated base .cap = false) ∧
    (target (0x2170BFFC : Word).toNat = .iram 7 0xBFFC ∧ target (0x21710000 : Word).toNat = .dram 7 0 ∧
      regionReset base .control = false ∧ isolated base (.le 7) = false ∧ Agent.keeper.code = owner base (.le 7) ∧
      running base (.le 7) = false ∧
      (let s := put [(.le 7, Le.STATUS_STATE, 1)] base
       awake s = true ∧ isolated s (.le 7) = false ∧ Agent.keeper.code = owner s (.le 7) ∧ running s (.le 7) = true ∧
       memWord s (dramBase 7) ≠ 5)) := by
  refine ⟨?_, ?_, ?_, ?_, ?_, ?_, ?_, ?_, ?_⟩ <;> decide +kernel

theorem test_witness_OwnerCommand :
    Accepts .host .chip 0x100 0 base ∧ blkOfBase 0x20 = none ∧
    blkOfBase (blkBase .chip) = some .chip ∧ blkFixed .chip = true ∧
    blkOfBase (blkBase (.exg 3)) = some (.exg 3) ∧ blkFixed (.exg 3) = false ∧
    (let w := wordOf (blkBase (.exg 3) + 14)
     Accepts .host .chip 0x100 w base ∧ fieldOf w Chip.OWN_CMD_BASE * 32 = blkBase (.exg 3) ∧
       fieldOf w Chip.OWN_CMD_OWNER = 14) ∧
    (let w := wordOf (blkBase (.exg 3) + 9)
     Accepts .host .chip 0x100 w base ∧ fieldOf w Chip.OWN_CMD_BASE * 32 = blkBase (.exg 3) ∧
       fieldOf w Chip.OWN_CMD_OWNER = 9) := by decide +kernel

theorem test_witness_IsolationCommands :
    (awake base = true ∧ underReset base (.exg 0) = false ∧ Agent.keeper.code = owner base (.exg 0) ∧
      blkFixed (.exg 0) = false ∧ fieldOf (0x100 : Word) Hdr.ISOLATE = 1 ∧ fieldOf (0 : Word) Hdr.ISOLATE = 0 ∧
      getF base (.exg 0) Hdr.ISOLATED = 0) ∧
    (let s := put [(.exg 0, Hdr.ISOLATE, 1)] base
     awake s = true ∧ 4 ≤ s.pwr.stage ∧ getF s (.exg 0) Hdr.ISOLATE = 1 ∧ getF s (.exg 0) Hdr.ISOLATED = 0) ∧
    (let s := put [(.exg 0, Hdr.ISOLATE, 1), (.exg 0, Hdr.ISOLATED, 1)] base
     awake s = true ∧ underReset s (.exg 0) = false ∧ Agent.keeper.code = owner s (.exg 0) ∧
       getF s (.exg 0) Hdr.ISOLATED = 1) := by decide +kernel

theorem test_witness_SlotArmAndDisarm :
    (Accepts .keeper (.slot 63) 8 2 base ∧ fieldOf (2 : Word) Slot.CMD_DISARM = 1 ∧ slotDue base 63 = false) ∧
    (let s := put [(.slot 63, Slot.STATUS_STATE, 1)] base
     Accepts .keeper (.slot 63) 8 2 s ∧ slotDue s 63 = true) ∧
    (Accepts .keeper (.slot 63) 8 1 base ∧ fieldOf (1 : Word) Slot.CMD_ARM = 1 ∧ fieldOf (1 : Word) Slot.CMD_DISARM = 0 ∧
      getF base (.slot 63) Slot.STATUS_STATE ≠ 1 ∧ passed base (getF base (.slot 63) Slot.TARGET) = true ∧
      getF base (.slot 63) Slot.PERIOD = 0 ∧ getF base (.slot 63) Slot.CFG_STRICT = 0) ∧
    (∀ p ∈ ([(0, 0), (1, 0), (0, 320), (1, 320)] : List (Nat × Nat)),
     let s := put [(.slot 63, Slot.CFG_STRICT, p.1), (.slot 63, Slot.PERIOD, p.2)] base
     Accepts .keeper (.slot 63) 8 1 s ∧ getF s (.slot 63) Slot.CFG_STRICT = p.1 ∧ getF s (.slot 63) Slot.PERIOD = p.2 ∧
       getF s (.slot 63) Slot.CFG_ACTION = 0 ∧ passed s (getF s (.slot 63) Slot.TARGET) = true ∧ getF s (.slot 63) Slot.STATUS_STATE ≠ 1) ∧
    (let s := put [(.slot 63, Slot.TARGET, 1)] base
     Accepts .keeper (.slot 63) 8 1 s ∧ passed s (getF s (.slot 63) Slot.TARGET) = false) ∧
    (let s := put [(.slot 63, Slot.PERIOD, 319)] base
     Accepts .keeper (.slot 63) 8 1 s ∧ getF s (.slot 63) Slot.PERIOD = 319) ∧
    (let s := put [(.slot 63, Slot.STATUS_STATE, 1)] base
     Accepts .keeper (.slot 63) 8 1 s ∧ getF s (.slot 63) Slot.STATUS_STATE = 1) := by decide +kernel

theorem test_witness_SlotFiresAndSteps :
    (let s := put [(.slot 0, Slot.STATUS_STATE, 1)] base
     slotDue s 0 = true ∧ getF s (.slot 0) Slot.PERIOD = 0 ∧ s.slotLate[(0 : Fin 64)] = false ∧
       s.slotOff[(0 : Fin 64)] = false ∧ (∀ m < (0 : Fin 64), slotDue s m = false) ∧
       getF s (.slot 0) Slot.CFG_NETTIME = 0) ∧
    (let s : State := { put [(.slot 63, Slot.STATUS_STATE, 1)] base with slotOff := base.slotOff.set 63 true }
     (∀ m < (63 : Fin 64), slotDue s m = false) ∧ slotDue s 63 = true ∧ s.slotOff[(63 : Fin 64)] = true) ∧
    (let s : State := { put [(.slot 0, Slot.STATUS_STATE, 1), (.slot 0, Slot.PERIOD, 320)] base with
                        slotLate := base.slotLate.set 0 true }
     slotDue s 0 = true ∧ getF s (.slot 0) Slot.PERIOD = 320 ∧ s.slotLate[(0 : Fin 64)] = true) ∧
    (let s := put [(.slot 0, Slot.STATUS_STATE, 1), (.slot 0, Slot.TARGET, 7), (.slot 0, Slot.CFG_NETTIME, 1)] base
     getF s (.slot 0) Slot.STATUS_STATE = 1 ∧ getF s (.slot 0) Slot.CFG_NETTIME = 1 ∧ (∀ m < (0 : Fin 64), slotDue s m = false) ∧
       passed s (getF s (.slot 0) Slot.TARGET) = false) := by decide +kernel

/-- A generator in RAMP that stops in a fabric cycle in which it has taken a row of the table of R79. -/
def exgTook (row : Nat) : State :=
  { put [(.exg 0, Exg.STATUS_STATE, 3)] base with
    exg := base.exg.set 0 { base.exg[0] with turn := some { cyc := 0, row := row, en := false, st := 1, amp := 0, scAt := none,
                                                            retries := 0 } } }

theorem test_witness_GeneratorCommands :
    (Accepts .keeper (.exg 15) 8 (fw Exg.CTRL_EN 1) base ∧ fieldOf (fw Exg.CTRL_EN 1) Exg.CTRL_EN = 1 ∧
      getF base (.exg 15) Exg.CTRL_EN = 0 ∧ exgBase base 15 true = 0 ∧ exgPrior base 15 true = none ∧ exgCause base 15 = false) ∧
    (let s := exgTook 3
     exgBase s 0 true = 1 ∧ exgPrior s 0 true = (s.exg[0]).turn ∧ ∀ p, (s.exg[0]).turn = some p → p.row = 3) ∧
    (let s := put [(.ec, Ec.STATE_FATAL, 1)] base
     Accepts .keeper (.exg 15) 8 (fw Exg.CTRL_EN 1) s ∧ exgBase s 15 true = 0 ∧ exgPrior s 15 true = none ∧ exgCause s 15 = true) ∧
    (let s := put [(.exg 0, Exg.STATUS_STATE, 3)] base
     let w := wordOf (storedWord s (.exg 0) 8 + 2 ^ Exg.CTRL_EN.lo)
     Accepts .keeper (.exg 0) 8 w s ∧ fieldOf w Exg.CTRL_EN = 1 ∧ getF s (.exg 0) Exg.CTRL_EN = 0 ∧ exgBase s 0 true = 3 ∧ exgPrior s 0 true = none) ∧
    (∀ st ∈ ([1, 2, 4, 5] : List Nat), let s := put [(.exg 0, Exg.STATUS_STATE, st), (.exg 0, Exg.CTRL_EN, 1)] base
     let w := wordOf (storedWord s (.exg 0) 8 - 2 ^ Exg.CTRL_EN.lo)
     Accepts .keeper (.exg 0) 8 w s ∧ fieldOf w Exg.CTRL_EN = 0 ∧ getF s (.exg 0) Exg.CTRL_EN = 1 ∧
     exgBase s 0 true = st ∧ exgPrior s 0 true = none) ∧
    Accepts .keeper (.exg 15) 0x14 0x1FFF base := by decide +kernel

theorem test_witness_GeneratorProtection :
    (let s : State := { put [(.exg 0, Exg.STATUS_STATE, 2)] later with exg := later.exg.set 0 { later.exg[0] with scAt := some 0 } }
     live s (.exg 0) = true ∧ exgDrives s 0 = true ∧ (s.exg[0]).burst = 0 ∧
       getF s (.exg 0) Exg.STATUS_STATE = 2 ∧ 1000000000 ≤ sinceNs s (s.exg[0]).cleanAt) ∧
    (∀ p ∈ ([(1, 0, 0, 0), (0, 0, 0, 0), (0, 1, 0, 0), (0, 1, 3, 2), (0, 1, 3, 3)] : List (Nat × Nat × Nat × Nat)),
     let s : State := { put [(.exg 0, Exg.STATUS_STATE, 1), (.exg 0, Exg.CTRL_SCMODE, p.1), (.exg 0, Exg.CTRL_RETRY, p.2.1),
        (.exg 0, Exg.CTRL_RETRYMAX, p.2.2.1), (.exg 0, Exg.COUNT_RETRIES, p.2.2.2)] later with
        exg := later.exg.set 0 { later.exg[0] with scAt := some 0 } }
     live s (.exg 0) = true ∧ scDue s (s.exg[0]).scAt = true ∧ exgPrior s 0 false = none ∧ getF s (.exg 0) Exg.CTRL_SCMODE = p.1 ∧
       getF s (.exg 0) Exg.CTRL_RETRY = p.2.1 ∧ getF s (.exg 0) Exg.CTRL_RETRYMAX = p.2.2.1 ∧
       getF s (.exg 0) Exg.COUNT_RETRIES = p.2.2.2) ∧
    (∀ n ∈ ([0, 254, 255] : List Nat), let s := put [(.exg 0, Exg.STATUS_STATE, 4), (.exg 0, Exg.COUNT_RETRIES, n)] later
     live s (.exg 0) = true ∧ getF s (.exg 0) Exg.STATUS_STATE = 4 ∧ exgPrior s 0 false = none ∧
       getF s (.exg 0) Exg.COUNT_RETRIES = n ∧ 100000000 ≤ sinceNs s (s.exg[0]).retryAt) ∧
    (let s : State := { base with exg := base.exg.set 15 { base.exg[15] with burst := 3 } };
     0 < (s.exg[15]).burst ∧ exgDrives s 15 = true) ∧
    (∀ st ∈ ([1, 2, 3, 5] : List Nat), let s : State := { put [(.exg 0, Exg.STATUS_STATE, st)] later with
        exg := later.exg.set 0 { later.exg[0] with scAt := some 0 } }
     live s (.exg 0) = true ∧ scDue s (s.exg[0]).scAt = true ∧ exgPrior s 0 false = none ∧ getF s (.exg 0) Exg.CTRL_SCMODE = 0) ∧
    clocked base .port = true ∧ clocked asleep .port = false := by decide +kernel

theorem test_witness_AnalogueOutputs :
    (Accepts .keeper (.ao 7) 8 (fw Ao.CTRL_EN 1) base ∧ fieldOf (fw Ao.CTRL_EN 1) Ao.CTRL_EN = 1 ∧
      getF base (.ao 7) Ao.CTRL_EN = 0 ∧ outCause base (.ao 7) = false) ∧
    (let s := put [(.ec, Ec.STATE_FATAL, 1)] base
     Accepts .keeper (.ao 7) 8 (fw Ao.CTRL_EN 1) s ∧ outCause s (.ao 7) = true) ∧
    (let s := put [(.ao 0, Ao.STATUS_STATE, 1), (.ao 0, Ao.CTRL_EN, 1)] base
     let w := wordOf (storedWord s (.ao 0) 8 - 2 ^ Ao.CTRL_EN.lo)
     Accepts .keeper (.ao 0) 8 w s ∧ fieldOf w Ao.CTRL_EN = 0 ∧ getF s (.ao 0) Ao.CTRL_EN = 1 ∧
       getF s (.ao 0) Ao.STATUS_STATE ≠ 6) ∧
    (let s := put [(.ao 0, Ao.STATUS_STATE, 1), (.ao 0, Ao.DGL_EN, 1)] base
     Accepts .keeper (.ao 0) 0xC 0xFFFF s ∧ getF s (.ao 0) Ao.CTRL_SRC = 0 ∧ getF s (.ao 0) Ao.STATUS_STATE = 1 ∧
       getF s (.ao 0) Ao.DGL_EN = 1) ∧
    (let s := put [(.ao 7, Ao.STATUS_STATE, 1)] later
     live s (.ao 7) = true ∧ getF s (.ao 7) Ao.STATUS_STATE = 1 ∧ 1000000000 ≤ sinceNs s (s.ao[7]).cleanAt) ∧
    (let s := put [(.ao 0, Ao.STATUS_STATE, 1), (.ao 0, Ao.CTRL_EN, 1)] base
     let w := wordOf (storedWord s (.ao 0) 8 + 2 ^ Ao.CTRL_RANGE.lo)
     Accepts .keeper (.ao 0) 8 w s ∧ fieldOf w Ao.CTRL_EN = 1 ∧ fieldOf w Ao.CTRL_RANGE ≠ getF s (.ao 0) Ao.CTRL_RANGE) ∧
    (let s := put [(.ao 0, Ao.STATUS_STATE, 2)] base
     live s (.ao 0) = true ∧ getF s (.ao 0) Ao.STATUS_STATE = 2 ∧ (s.ao[0]).hold = 0 ∧ aoDrives s 0 = true) ∧
    (∀ p ∈ ([(1, 8), (2, 20)] : List (Nat × Nat)), let s : State := { put [(.ao 0, Ao.STATUS_STATE, 3)] base with
       ao := base.ao.set 0 { base.ao[0] with rstep := p.1, rcnt := p.2, rail := getF base (.ao 0) Ao.CTRL_RANGE } }
     live s (.ao 0) = true ∧ getF s (.ao 0) Ao.STATUS_STATE = 3 ∧ (s.ao[0]).rstep = p.1 ∧ p.2 ≤ (s.ao[0]).rcnt ∧
       getF s (.ao 0) Ao.CTRL_RANGE = (s.ao[0]).rail) ∧
    (∀ r ∈ ([0, 1] : List Nat), let s : State := { put [(.ao 0, Ao.STATUS_STATE, 1), (.ao 0, Ao.CTRL_RETRY, r)] later with
       ao := later.ao.set 0 { later.ao[0] with scAt := some 0, limAt := later.elapsed } }
     live s (.ao 0) = true ∧ aoDrives s 0 = true ∧ scDue s (s.ao[0]).scAt = true ∧ sinceNs s (s.ao[0]).limAt < 256000 ∧
       getF s (.ao 0) Ao.CTRL_SCMODE = 0 ∧ getF s (.ao 0) Ao.CTRL_RETRY = r ∧ (s.ao[0]).retries < 3 ∧
       1000000000 ≤ sinceNs s (s.ao[0]).cleanAt) ∧
    (let s := put [(.ao 0, Ao.STATUS_STATE, 4)] later
     live s (.ao 0) = true ∧ getF s (.ao 0) Ao.STATUS_STATE = 4 ∧ 100000000 ≤ sinceNs s (s.ao[0]).retryAt) := by
  refine ⟨?_, ?_, ?_, ?_, ?_, ?_, ?_, ?_, ?_, ?_⟩ <;> decide +kernel

/-- A sentinel burst of generator 0 that has run `u` / 2^32 cycles, `n` of them still to end. -/
def burst (n u : Nat) : State :=
  { asleep with pwr := { asleep.pwr with phase := 2 },
                exg := asleep.exg.set 0 { asleep.exg[0] with burst := n, burstPh := u } }

theorem test_witness_CarrierAndPwm :
    (∀ st ∈ ([1, 2, 3] : List Nat), let s : State := put [(.exg 15, Exg.STATUS_STATE, st)] base
     live s (.exg 15) = true ∧ clocked s .acquisition = true ∧ bursting s = false ∧ cycleDue s 15 = true ∧
       exgPrior s 15 false = none ∧ getF s (.exg 15) Exg.STATUS_STATE = st) ∧
    (∀ n ∈ ([3, 2, 1] : List Nat), bursting (burst n ((4 - n) * 2 ^ 32)) = true ∧ cycleDue (burst n ((4 - n) * 2 ^ 32)) 0 = true) ∧
    cycleDue (burst 3 0) 0 = false ∧ clocked base .port = true ∧ clocked (burst 3 0) .port = false ∧
    bursting (burst 3 0) = true ∧ clocked asleep .port = false ∧ bursting asleep = false := by decide +kernel

theorem test_witness_SnapshotReads :
    Readable base .time ∧ Readable base (.ai 7) ∧ Readable base (.rc 15) ∧ Readable base (.lu 31) ∧ Readable base (.rs 15) ∧
    Readable base (.ax 15) ∧ Readable base (.lp 63) ∧ Readable base .cap ∧ Readable base (.le 7) ∧ Readable base .ec ∧
    Readable base .mb ∧ Readable base (.eth 1) ∧ Readable base .sns ∧ Readable base .evc := by decide +kernel

/-- The filter engine runs the schedule of FULL, and every input is enabled. -/
def feOn (s : State) : State := put [(.fe, Fe.STATUS_SCHED, 0), (.ai 0, Ai.CTRL_EN, 1), (.ai 7, Ai.CTRL_EN, 1)] s

/-- The frame whose sample instant a schedule serves at elapsed time 10 s. -/
def frame : FrameRec := { t := 0, el := 0, ix := 0, ph := Vector.replicate 16 0 }

theorem test_witness_AcquisitionRows :
    (laneRuns (feOn base) 0 = true ∧ laneRuns (feOn base) 31 = true ∧ laneRuns (feOn base) 39 = true) ∧
    (let s : State := { burst 3 0 with pwr := { (burst 3 0).pwr with sent := base.pwr.sent.set 0 { used := true, ch := 15 } } }
     burstLane s 30 = true ∧ burstLane s 31 = true) ∧
    (∀ st ∈ ([1, 2] : List Nat), let s : State := { feOn (put [(.rc 0, Rc.TRK_STATUS_STATE, st)] later) with
                                                    fe := { later.fe with frames := [frame] } }
     live s .fe = true ∧ sched s < 4 ∧ feInstant s = some frame ∧ s.fe.lastEl ≠ some frame.el ∧
       (served s 0 && live s (.rc 0)) = true ∧ trkState s 0 = st) ∧
    (let s : State := { put [(.fe, Fe.STATUS_SCHED, 3)] later with fe := { later.fe with frames := [frame], lastEl := some 0 } }
     live s .fe = true ∧ sched s < 4 ∧ feInstant s = some frame ∧ s.fe.lastEl = some frame.el ∧
       (served s 15 && live s (.rc 15)) = false) ∧
    (let s : State := { feOn base with ai := base.ai.set 0 { base.ai[0] with cnt := 2 ^ getF base (.ai 0) Ai.DET_RMSW, sxx := 7 } }
     live s (.ai 0) = true ∧ getF s (.ai 0) Ai.CTRL_EN = 1 ∧ getF s (.ai 0) Ai.CTRL_TSEL ≠ 2 ∧
       getF s (.ai 0) Ai.CTRL_TSEL ≠ 3 ∧ 2 ^ getF s (.ai 0) Ai.DET_RMSW ≤ (s.ai[0]).cnt ∧
       Accepts .keeper (.ai 0) 0xC 0 s ∧ 0 < (s.ai[0]).cnt) ∧
    (Accepts .keeper (.ai 7) 8 (fw Ai.CTRL_EN 1) base ∧ fieldOf (fw Ai.CTRL_EN 1) Ai.CTRL_EN = 1 ∧
      getF base (.ai 7) Ai.CTRL_EN = 0) := by decide +kernel

/-- DORMANT with sentinel channel 0, in a phase. -/
def sentinel (phase : Nat) : State :=
  { asleep with aon := 100000, pwr := { asleep.pwr with phase := phase, sent := asleep.pwr.sent.set 0 { used := true } } }

/-- The clause on sums that are not both 0 has no closed witness: the sums rest on the gain trims, which the spec leaves open. -/
theorem test_witness_SentinelRows :
    (dormant (sentinel 0) = true ∧ (sentinel 0).pwr.waking = false ∧ (sentinel 0).pwr.phase = 0 ∧
      (∃ j : Fin 4, ((sentinel 0).pwr.sent[j]).used = true) ∧
      sentPeriod (sentinel 0) ≤ aonMs ((sentinel 0).aon - (sentinel 0).pwr.wakeAt)) ∧
    (∀ n ∈ ([1, 2, 3] : List Nat), dormant (sentinel n) = true ∧ (sentinel n).pwr.phase = n ∧
      ((sentinel n).pwr.sent[(0 : Fin 4)]).used = true ∧ ((sentinel n).pwr.sent[(0 : Fin 4)]).got = false) ∧
    bursting (burst 3 (3 * 2 ^ 32)) = true ∧ burstDone (burst 3 (3 * 2 ^ 32)) = true ∧ burstDone (burst 3 (3 * 2 ^ 32 - 1)) = false ∧
    (let b := (burstSums 0 [] [] (put [(.exg 0, Exg.REFMASK, 0)] (sentinel 3))).1; b.ss = 0 ∧ b.sc = 0) ∧
    (let s : State := { sentinel 3 with pwr := { (sentinel 3).pwr with sent := asleep.pwr.sent.set 0 { used := true, seen := true } } }
     dormant s = true ∧ s.pwr.phase = 3 ∧ (s.pwr.sent[0]).used = true ∧ (s.pwr.sent[0]).got = false ∧
     (s.pwr.sent[0]).seen = true) ∧
    (let s : State := { sentinel 1 with pwr := { (sentinel 1).pwr with pllDead := true } }; s.pwr.pllDead = true ∧ (sentinel 1).pwr.pllDead = false) ∧
    (∀ st ∈ ([0, 4, 5, 6] : List Nat), getF (put [(.exg 0, Exg.STATUS_STATE, st)] base) (.exg 0) Exg.STATUS_STATE = st) := by decide +kernel

theorem test_witness_ConverterCommands :
    (let w := fw Rc.TRK_CTRL_EN 1
     Accepts .keeper (.rc 15) 0x20 w base ∧ fieldOf w Rc.TRK_CTRL_EN = 1 ∧ fieldOf w Rc.TRK_CTRL_REACQ = 0 ∧
       trkState base 15 = 0) ∧
    (∀ st ∈ ([0, 1, 2] : List Nat), let s := put [(.rc 0, Rc.TRK_STATUS_STATE, st)] base
     let w := wordOf (storedWord s (.rc 0) 0x20)
     Accepts .keeper (.rc 0) 0x20 w s ∧ fieldOf w Rc.TRK_CTRL_EN = 0 ∧ trkState s 0 = st) ∧
    (∀ st ∈ ([1, 2] : List Nat), let s := put [(.rc 0, Rc.TRK_STATUS_STATE, st), (.rc 0, Rc.TRK_CTRL_EN, 1)] base
     let w := wordOf (storedWord s (.rc 0) 0x20 + 2 ^ Rc.TRK_CTRL_REACQ.lo)
     Accepts .keeper (.rc 0) 0x20 w s ∧ fieldOf w Rc.TRK_CTRL_EN = 1 ∧ fieldOf w Rc.TRK_CTRL_REACQ = 1 ∧
       trkState s 0 = st) ∧
    Accepts .keeper (.rc 0) 0x24 1 base ∧ Accepts .keeper (.rc 0) 0x28 1 base ∧
    Accepts .keeper (.rc 0) 0x100 (fw Rc.ACQ_CNTCLR 1) base ∧ fieldOf (fw Rc.ACQ_CNTCLR 1) Rc.ACQ_CNTCLR = 1 := by
  decide +kernel

theorem test_witness_ConverterEvents :
    (∀ p ∈ ([(1, true, false), (1, false, false), (2, false, true), (1, false, true)] : List (Nat × Bool × Bool)),
     let s : State := { feOn (put [(.rc 0, Rc.TRK_STATUS_STATE, p.1)] base) with
       rc := base.rc.set 0 { base.rc[0] with hands := [{ inv := p.2.1 }], thawed := p.2.2 } }
     live s (.rc 0) = true ∧ live s .fe = true ∧ trkState s 0 = p.1 ∧ (s.rc[0]).hands = { inv := p.2.1 } :: [] ∧
       (s.rc[0]).thawed = p.2.2 ∧ getF s (.rc 0) Rc.TRK_CTRL_AFFEN = 0 ∧ getF s .fe Fe.STATUS_SRPEND = 0 ∧
       -vMax ≤ (s.rc[0]).v ∧ (s.rc[0]).v ≤ vMax) ∧
    (∀ p ∈ ([(false, false, 0), (true, true, 1)] : List (Bool × Bool × Nat)), 
     let s : State := { put [(.rc 15, Rc.TRK_STATUS_STATE, 2), (.rc 15, Rc.INT_CTRL_PHAUTO, p.2.2)] base with
       rc := base.rc.set 15 { base.rc[15] with lock := p.1, reacq := p.2.1, lockN := 1024, phAcq := true, phN := 1024 } }
     live s (.rc 15) = true ∧ trkState s 15 = 2 ∧ 1024 ≤ (s.rc[15]).lockN ∧ ((s.rc[15]).lock = false ∨ (s.rc[15]).reacq = true) ∧
       (s.rc[15]).phAcq = true ∧ 1024 ≤ (s.rc[15]).phN ∧ getF s (.rc 15) Rc.INT_CTRL_PHAUTO = p.2.2) ∧
    (let s : State := { put [(.rc 15, Rc.TRK_STATUS_STATE, 1)] base with
       rc := base.rc.set 15 { base.rc[15] with lockN := 1024, lock := false } }
     live s (.rc 15) = true ∧ trkState s 15 = 1 ∧ 1024 ≤ (s.rc[15]).lockN ∧ (s.rc[15]).lock = false) ∧
    (let h : HandOff := { r := 131071 }
     let s : State := { put [(.rc 0, Rc.TRK_STATUS_STATE, 2), (.rc 0, Rc.TRK_WMIN, 6554)] base with
       rc := base.rc.set 0 { base.rc[0] with amp := 2 ^ 23 } }
     trkState s 0 = 2 ∧ h.inv = false ∧ h.noref = false ∧ h.ovlS = false ∧ h.ovlC = false ∧ h.r ≠ 0 ∧
       2 * getF s (.rc 0) Rc.TRK_WMIN ≤ h.r.natAbs ∧ (s.rc[0]).kPend = none ∧
       aFloor ≤ (predict s 0 (updDt (s.rc[0]) h) (s.rc[0])).amp) ∧
    (base.ecc = [] ∧ mode base ≠ 3 ∧ mode (put [(.pwr, Pwr.MODE_MODE, 3)] base) = 3) := by
  refine ⟨?_, ?_, ?_, ?_, ?_⟩ <;> decide +kernel

theorem test_witness_SynchronisingResetClearsTheLanes :
    (let s : State := { put [(.fe, Fe.STATUS_SRPEND, 1)] base with time := { base.time with srCause := some 0 } }
     clocked s .acquisition = true ∧ srDue s = true) ∧
    (∀ m ∈ ([0, 3] : List Nat), let s := put [(.fe, Fe.STATUS_SRPEND, 1), (.pwr, Pwr.MODE_MODE, m)] { base with time := { base.time with srCause := some 0 } }
     clocked s .acquisition = true ∧ srDue s = true ∧ mode s = m) := by decide +kernel

theorem test_witness_LensRows :
    (∀ k ∈ ([0, 1, 2, 3] : List Nat), Accepts .keeper (.lens 15) 8 (fw Lens.CTRL_STATE k) base ∧
      fieldOf (fw Lens.CTRL_STATE k) Lens.CTRL_STATE = k ∧ fieldOf (fw Lens.CTRL_STATE k) Lens.CTRL_RESTART = 0 ∧
      fieldOf (fw Lens.CTRL_STATE k) Lens.CTRL_COMMIT = 0 ∧ live base (.lens 15) = true ∧ (base.lens[15]).commit = false) ∧
    (Accepts .keeper (.lens 0) 8 (fw Lens.CTRL_RESTART 1) base ∧
      fieldOf (fw Lens.CTRL_RESTART 1) Lens.CTRL_RESTART = 1 ∧ fieldOf (fw Lens.CTRL_RESTART 1) Lens.CTRL_COMMIT = 0) ∧
    (∀ c ∈ ([0, 1] : List Nat), let s := put [(.lens 0, Lens.STATUS_CAND, c)] base
     Accepts .keeper (.lens 0) 8 (fw Lens.CTRL_COMMIT 1) s ∧ fieldOf (fw Lens.CTRL_COMMIT 1) Lens.CTRL_COMMIT = 1 ∧
       fieldOf (fw Lens.CTRL_COMMIT 1) Lens.CTRL_RESTART = 0 ∧ getF s (.lens 0) Lens.STATUS_CAND = c) ∧
    (∀ fwd ∈ [true, false], let r : Rev := { fwd := fwd }
     let s : State := { put [(.lens 0, Lens.CTRL_STATE, 1)] base with
       lens := base.lens.set 0 { base.lens[0] with state := 1, ended := some r, proc := some r } }
     (s.lens[0]).ended = some r ∧ (s.lens[0]).proc = some r ∧ live s (.lens 0) = true ∧ lensLearns s 0 = true) ∧
    (∀ p ∈ ([(0, 1), (1, 3), (3, 0), (2, 1)] : List (Nat × Nat)),
     let s : State := { put [(.lens 0, Lens.CTRL_STATE, p.2)] base with lens := base.lens.set 0 { base.lens[0] with state := p.1 } }
     live s (.lens 0) = true ∧ (s.lens[0]).commit = false ∧ lensState s 0 = p.1 ∧ getF s (.lens 0) Lens.CTRL_STATE = p.2) ∧
    (let s : State := { put [(.rc 0, Rc.TRK_STATUS_STATE, 2)] base with
                        lens := base.lens.set 0 { base.lens[0] with commit := true },
                        rc := base.rc.set 0 { base.rc[0] with hands := [{}] } }
     live s (.lens 0) = true ∧ (s.lens[0]).commit = true ∧ live s (.rc 0) = true ∧ trkState s 0 = 2 ∧ (s.rc[0]).hands ≠ [] ∧ getF s (.rc 0) Rc.INT_ACTIVE = 0) := by
  decide +kernel

end Sys2Proof.Tests
end

