-- ==== Sys2Proof/Tests/Slice0.lean ====
section
/-!
SUPPORT. Tests: words of the instruction set against the encodings of R295 to R318, a command that each check of
`Instr.wellFormed` refuses, and figures the spec works out. Expected values are from the spec, named at each test.
-/

namespace Sys2Proof.Tests

set_option Elab.async false

open Sys2Proof Sys2Proof.Machine

/-! ### Words of the instruction set -/

/-- The six words of the worked example "an eight-tap product written to a loop" (chapter 13). -/
theorem test_decode_worked_example :
    decodeJar 1 0x48000000 = .aclr 1 0 ∧ decodeJar 1 0x98102008 = .loop_ 1 258 8 ∧
    decodeJar 1 0x44070000 = .macd 1 0 0 1 true true false .ss ∧ decodeJar 1 0x00000000 = .nop 1 ∧
    decodeJar 1 0x4C2007C0 = .mvr 1 0 4 31 ∧ decodeJar 1 0x648A0000 = .st 1 4 2 .c false := by decide +kernel

/-- One word of each further family, written out from the fields of R296 to R318. -/
theorem test_decode_families :
    decodeJar 0 0x04611000 = .add_ 0 3 1 2 ∧ decodeJar 0 0x20A0FFFE = .movi 0 5 0xFFFE ∧ decodeJar 0 0xC4000000 = .rtf 0 ∧
    decodeJar 0 0xC8000000 = .halt 0 := by decide +kernel

/-- A word whose reserved bits are not 0, and one of an opcode that R297 does not assign, stand for no instruction. -/
theorem test_decode_reserved :
    decodeJar 0 0x04610013 = .illop 0 0x04610013 ∧ decodeJar 0 0xFC000000 = .illop 0 0xFC000000 := by decide +kernel

/-- The opcode table gives no bits: no word spells a command. -/
theorem test_decodeTableWord : decodeTableWord 32 0 = none ∧ decodeTableWord 32 0x48000000 = none := ⟨rfl, rfl⟩

/-! ### Ill-formed commands -/

/-- Operands outside the instruction set are refused. -/
theorem test_illformed_operands :
    (Instr.mvs 0 1 9).wellFormed = false ∧ (Instr.mvs 0 1 12).wellFormed = false ∧ (Instr.msv 0 6 1).wellFormed = false ∧
    (Instr.ald 0 0 1 41).wellFormed = false ∧ (Instr.rnd 0 0 0).wellFormed = false ∧ (Instr.mva 0 0 1 4).wellFormed = false ∧
    (Instr.ldp 0 1 0 .d false).wellFormed = false ∧ (Instr.stp 0 31 0 .d false).wellFormed = false ∧
    (Instr.lda 0 4 0 .d false).wellFormed = false ∧ (Instr.sta 0 4 0 .d false).wellFormed = false ∧
    (Instr.crb 0 31 0 1 false).wellFormed = false ∧ (Instr.cwb 0 29 0 3 false).wellFormed = false ∧
    (Instr.wait_ 0 0 0 0 0 0).wellFormed = false ∧ (Instr.illop 0 0).wellFormed = false := by decide +kernel

/-- A word that does not carry its row's command is refused: blocks of the grid, the converters and the ports. -/
theorem test_illformed_commands_a :
    (Instr.registerWrite .host 2 0).wellFormed = false ∧ (Instr.isolateRequest .host (.exg 0) 0).wellFormed = false ∧
    (Instr.isolationRelease .host (.exg 0) 0x100).wellFormed = false ∧ (Instr.slotArm .host 0 3).wellFormed = false ∧
    (Instr.slotDisarm .host 0 1).wellFormed = false ∧ (Instr.exgEnable .host 0 0).wellFormed = false ∧
    (Instr.exgDisable .host 0 (fw Exg.CTRL_EN 1)).wellFormed = false ∧ (Instr.aoEnable .host 0 0).wellFormed = false ∧
    (Instr.aoDisable .host 0 (fw Ao.CTRL_EN 1)).wellFormed = false ∧ (Instr.aiEnable .host 0 0).wellFormed = false ∧
    (Instr.converterEnable .host 0 0).wellFormed = false ∧
    (Instr.converterDisable .host 0 (fw Rc.TRK_CTRL_EN 1)).wellFormed = false ∧
    (Instr.reacquire .host 0 0).wellFormed = false ∧ (Instr.lensOff .host 0 (fw Lens.CTRL_STATE 1)).wellFormed = false ∧
    (Instr.lensLearn .host 0 0).wellFormed = false ∧ (Instr.lensApply .host 0 0).wellFormed = false ∧
    (Instr.lensLearnApply .host 0 0).wellFormed = false ∧ (Instr.lensRestart .host 0 0).wellFormed = false ∧
    (Instr.lensCommit .host 0 0).wellFormed = false ∧ (Instr.axisFallback .host 0 0).wellFormed = false ∧
    (Instr.axisSafe .host 0 0).wellFormed = false ∧ (Instr.axisClear .host 0 0).wellFormed = false ∧
    (Instr.emEnable .host 0 0).wellFormed = false ∧ (Instr.emDisable .host 0 (fw Em.CTRL_EN 1)).wellFormed = false ∧
    (Instr.latchSwtrig .host 0 0).wellFormed = false ∧ (Instr.latchArm .host 0 0).wellFormed = false ∧
    (Instr.latchEnable .host 0 0).wellFormed = false ∧ (Instr.rsEnable .host 0 0).wellFormed = false ∧
    (Instr.rsDisable .host 0 (fw Rs.CFG_EN 1)).wellFormed = false ∧ (Instr.shapeEnable .host 0 0).wellFormed = false ∧
    (Instr.shapeDisable .host 0 (fw Rs.SH_CTRL_SHEN 1)).wellFormed = false ∧
    (Instr.shapeRequest .host 0 0).wellFormed = false ∧ (Instr.encoderEnable .host 0 0).wellFormed = false := by
  decide +kernel

/-- The same for loops, injection, capture, engines, queues, the host port, the MACs, Enven and the error controller. -/
theorem test_illformed_commands_b :
    (Instr.loopOpen .host 0 0).wellFormed = false ∧ (Instr.loopTrack .host 0 0).wellFormed = false ∧
    (Instr.loopClose .host 0 0).wellFormed = false ∧ (Instr.loopOff .host 0 0).wellFormed = false ∧
    (Instr.injArm .host 0 0).wellFormed = false ∧ (Instr.injStart .host 0 0).wellFormed = false ∧
    (Instr.injStop .host 0 0).wellFormed = false ∧ (Instr.capArm .host 0).wellFormed = false ∧
    (Instr.capStop .host 0).wellFormed = false ∧ (Instr.capTrig .host 0).wellFormed = false ∧
    (Instr.leRun .host 0 0).wellFormed = false ∧ (Instr.leStop .host 0 0).wellFormed = false ∧
    (Instr.leStep .host 0 0).wellFormed = false ∧ (Instr.leResume .host 0 0).wellFormed = false ∧
    (Instr.leReset .host 0 0).wellFormed = false ∧ (Instr.leSwi .host 0 0).wellFormed = false ∧
    (Instr.queueEnable .host 0 0).wellFormed = false ∧ (Instr.queueFlush .host 0 0).wellFormed = false ∧
    (Instr.queueCountClear .host 0 0).wellFormed = false ∧ (Instr.mbConsume .host 0).wellFormed = false ∧
    (Instr.hostSwi .host 0).wellFormed = false ∧ (Instr.ethLinkChange 0 true true 3).wellFormed = false ∧
    (Instr.forceFatal .host 0).wellFormed = false ∧ (Instr.regionResetRequest .host 0).wellFormed = false ∧
    (Instr.freezeCmd .host 0).wellFormed = false ∧ (Instr.evcSnapall .host 0).wellFormed = false ∧
    (Instr.evcClrall .host 0).wellFormed = false ∧ (Instr.evcClr .host 0 0).wellFormed = false := by decide +kernel

theorem test_illformed_frames :
    (let f : Frame := { cmd := 6, addr := 0, len := 0, data := [], crc := 0 };
     ∀ i ∈ [Instr.qspiPing f, .qspiRead f, .qspiWrite f, .qspiWritep f, .qspiFence f, .qspiRepeat f], i.wellFormed = false) ∧
    (let m : EnvenMsg := { type := 9, flevel := 0, mlevel := 0, group := 0, node := 0, chip := 0, seq := 0 };
     ∀ i ∈ [Instr.envenHeartbeat m, .envenAlarm m, .envenEvent m, .envenTrace m, .envenData m, .envenActivate m,
       .envenLevel m, .envenAck m], i.wellFormed = false) := by decide +kernel

/-! ### Figures of the spec -/

/-- The CRC of R351 has the check value 0x29B1 and that of R386 the check value 0xCBF43926 on the ASCII digits 1 to 9, the
published check values of the two polynomials that those rules name. -/
theorem test_crc_check_values :
    crc16Bytes [0x31, 0x32, 0x33, 0x34, 0x35, 0x36, 0x37, 0x38, 0x39] = 0x29B1 ∧
    crc32 [0x31, 0x32, 0x33, 0x34, 0x35, 0x36, 0x37, 0x38, 0x39] = 0xCBF43926 := by decide +kernel

/-- "A change of master on node 2" (chapter 2): TIME_ADJ = −180,000 is a step, here in units of 2^-28 ns. -/
theorem test_step_is_decided :
    (timeWrite .keeper 0x28 4294787296 base).time.stepPend.getD 0 = -48318382080000 := by decide +kernel

/-- It is applied at the tick at 500,050,000 (5 ns after the tick before), which runs to 499,870,000. -/
theorem test_step_is_applied :
    (let t := timeTick { base with time := { base.time with now := 500049995, stepPend := some (-180000 * 2 ^ 28) } };
     t.time.now = 499870000) := by decide +kernel

/-- The command byte 0x81 of the example in chapter 15 is a READ in quad width of 5 words from 0x1000_0008. -/
theorem test_frame_example :
    (let f : Frame := { cmd := 0x81, addr := 0x10000008, len := 5, data := [], crc := 0 };
     frameOp f = 1 ∧ frameWidth f = 2 ∧ frameBody f = [0x81, 0x10, 0x00, 0x00, 0x08, 0x00, 0x05]) := by decide +kernel

/-- LP1_FF lies at 0x2000_0120 (chapter 13), and RC0_ANGLE at 0x1000_0008 (chapter 15). -/
theorem test_addresses : blkBase (.lp 1) + Lp.FF.off = 0x20000120 ∧ blkBase (.rc 0) + Rc.ANGLE_ANGLE.off = 0x10000008 := by
  decide +kernel

/-- ADDS saturates and leaves the result to the next instruction (R281, R301). -/
theorem test_adds_saturates :
    (let s := modLe 0 (fun e => { e with g := (e.g.set 1 0x7FFFFFFF).set 2 1 })
       (put [(.le 0, Le.STATUS_STATE, 1), (.le 0, Le.PC, 100)] base);
     let t := leRun 0 false (jAdds 0 3 1 2) s;
     rd t 0 3 = 0x7FFFFFFF ∧ lePc t 0 = 101) := by
  decide +kernel

end Sys2Proof.Tests
end

