-- ==== Sys2Proof/Tests/WitnessControl.lean ====
section
/-!
SUPPORT. Witnesses, continued: the statements about integrity, axes, ports, resampling, loops, injection and capture.
-/

namespace Sys2Proof.Tests

set_option Elab.async false

open Sys2Proof Sys2Proof.Machine

/-- Axis 0 in FB_HOLDOVER since the present instant, with a HOLDT of `t`. -/
def holdover (t : Nat) (s : State) : State :=
  modAx 0 (fun x => { x with holdT := t, holdAt := s.elapsed }) (put [(.ax 0, Ax.FB_STATUS_STATE, 2)] s)

theorem test_witness_MonitorsAndHoldover :
    (∀ m ∈ [Monitor.los, .dos, .lot, .stuck, .phase, .exc],
      (let s := modRc 15 (fun x => { x with due := Vector.replicate 6 true }) base;
       live s (.rc 15) = true ∧ (s.rc[(15 : Fin 16)]).due[monBit m] = true ∧ monActive s 15 m = false) ∧
      (let s := modRc 15 (fun x => { x with due := Vector.replicate 6 true }) (put [(.rc 15, Rc.INT_ACTIVE, 63)] base);
       live s (.rc 15) = true ∧ (s.rc[(15 : Fin 16)]).due[monBit m] = true ∧ monActive s 15 m = true)) ∧
    (∀ p ∈ ([(5000, true), (0, true), (0, false)] : List (Nat × Bool)),
      let s := modRc 0 (fun x => { x with winAt := some 0, winHi := p.1, winHeld := p.2 }) later;
      (s.rc[(0 : Fin 16)]).winAt = some 0 ∧ live s (.rc 0) = true ∧ getF s (.rc 0) Rc.INT_STK_WIN * 1000000 ≤ sinceNs s 0) ∧
    (let s := put [(.ax 5, Ax.SRC_SRC, 3)] base;
     channelAxes s 3 ≠ [] ∧ channelAxes s 5 = []) ∧
    (let x := modAx 0 (fun x => { x with xcAt := some 0 })
       (put [(.ax 0, Ax.FB_CFG_XCEN, 1), (.ax 0, Ax.SRC_SRC, 0), (.ax 0, Ax.FB_SRC_FBSRC, 1)] later);
     let acting := put [(.rc 0, Rc.INT_ACTIVE, 1)] x;
     let secActive := put [(.rc 1, Rc.INT_ACTIVE, 1)] x;
     let sound := modRc 1 (fun c => { c with live := true }) x;
     (∀ s ∈ [acting, secActive, x, sound], live s (.ax 0) = true ∧ getF s (.ax 0) Ax.FB_CFG_XCEN = 1 ∧
       (s.ax[(0 : Fin 16)]).xcFault = false ∧ xcDue s 0 (s.ax[(0 : Fin 16)]).xcAt = true) ∧
     srcActing acting 0 (axPrim acting 0) = true ∧
     (srcActing secActive 0 (axPrim secActive 0) = false ∧ srcActiveAny secActive 0 (axSec secActive 0) = true) ∧
     (srcActing x 0 (axPrim x 0) = false ∧ srcPublishes x 0 (axSec x 0) = false) ∧
     (srcActing sound 0 (axPrim sound 0) = false ∧ srcActiveAny sound 0 (axSec sound 0) = false ∧
       srcPublishes sound 0 (axSec sound 0) = true)) ∧
    (let s := modAx 15 (fun x => { x with xcFault := true, xcClrAt := some 0 }) later;
     live s (.ax 15) = true ∧ (s.ax[(15 : Fin 16)]).xcFault = true ∧ xcDue s 15 (s.ax[(15 : Fin 16)]).xcClrAt = true) ∧
    (let s := modAx 15 (fun x => { x with holdT := 50 }) (put [(.ax 15, Ax.FB_STATUS_STATE, 2)] later);
     live s (.ax 15) = true ∧ axFb s 15 = 2 ∧
       2000 * (s.ax[(15 : Fin 16)]).holdT ≤ sinceNs s (s.ax[(15 : Fin 16)]).holdAt) ∧
    (axFb base 15 ≠ 2 ∧ (let s := holdover 50 base; axFb s 0 = 2 ∧ sinceNs s (s.ax[(0 : Fin 16)]).holdAt < 2000 * (s.ax[(0 : Fin 16)]).holdT)) ∧
    (target (BitVec.ofNat 32 (blkBase (.ax 0) + 0x60)).toNat = .reg (.ax 0) 0x60 ∧ Accepts .keeper (.ax 0) 0x60 7 (holdover 50 base)) := by
  refine ⟨by decide +kernel, by decide +kernel, by decide +kernel, ?_, by decide +kernel, by decide +kernel, by decide +kernel,
    by decide +kernel⟩
  refine ⟨by decide +kernel, ?_, ?_, ?_, ?_⟩ <;> decide +kernel

theorem test_witness_AxisRows :
    (let w := fw Ax.FB_CMD_FALLBACK 1;
     Accepts .keeper (.ax 15) 0x80 w base ∧ fieldOf w Ax.FB_CMD_SAFE = 0 ∧ fieldOf w Ax.FB_CMD_FALLBACK = 1 ∧
       fieldOf w Ax.FB_CMD_CLEAR = 0 ∧ axFb (axEval 15 (holdExpiry 15 (storeFields (.ax 15) 0x80 w base))) 15 ≠ 2) ∧
    (let s := modRc 1 (fun c => { c with live := true })
       (put [(.ax 0, Ax.SRC_SRC, 0), (.ax 0, Ax.FB_SRC_FBSRC, 1), (.rc 1, Rc.ANGLE_STATUS, 128)] (holdover 50 base));
     let w := fw Ax.FB_CMD_FALLBACK 1;
     let u := axEval 0 (holdExpiry 0 (storeFields (.ax 0) 0x80 w s));
     Accepts .keeper (.ax 0) 0x80 w s ∧ axFb u 0 = 2 ∧ secUsable u 0 = true) ∧
    (∀ st ∈ ([0, 1, 2, 3] : List Nat), let s := put [(.ax 0, Ax.FB_STATUS_STATE, st)] (holdover 50 base);
     let w := fw Ax.FB_CMD_SAFE 1;
     Accepts .keeper (.ax 0) 0x80 w s ∧ fieldOf w Ax.FB_CMD_SAFE = 1 ∧ fieldOf w Ax.FB_CMD_FALLBACK = 0 ∧
       fieldOf w Ax.FB_CMD_CLEAR = 0 ∧ axFb (holdExpiry 0 (storeFields (.ax 0) 0x80 w s)) 0 = st) ∧
    (∀ st ∈ ([0, 1, 2, 3] : List Nat),
     let s := modRc 0 (fun c => { c with live := true })
       (put [(.ax 0, Ax.FB_STATUS_STATE, st), (.ax 0, Ax.SRC_SRC, 0)] base);
     let w := fw Ax.FB_CMD_CLEAR 1;
     let u := fbCauses 0 (axEval 0 (holdExpiry 0 (storeFields (.ax 0) 0x80 w s)));
     Accepts .keeper (.ax 0) 0x80 w s ∧ fieldOf w Ax.FB_CMD_SAFE = 0 ∧ fieldOf w Ax.FB_CMD_FALLBACK = 0 ∧
       fieldOf w Ax.FB_CMD_CLEAR = 1 ∧
       (st = 0 ∨ st = 3 → axFb u 0 ≠ 2 ∧ primLost u 0 = false ∧ (axLoops u 0).any (lpClosed u) = false)) ∧
    (Accepts .keeper (.ax 0) 0x7C (fw Ax.TEN_ARM 1) base ∧ fieldOf (fw Ax.TEN_ARM 1) Ax.TEN_ARM = 1) ∧
    (Accepts .keeper (.ax 0) 8 0 base ∧ Accepts .keeper (.ax 15) 0xC 1 base ∧ Accepts .keeper (.ax 15) 0x10 1 base) ∧
    (let s := modRc 0 (fun c => { c with live := true, pub := { no := 7 } })
       (modAx 0 (fun x => { x with prim := { init := true } })
         (put [(.ax 0, Ax.SRC_SRC, 0), (.ax 0, Ax.FB_SRC_FBSRC, 0xFF), (.ax 0, Ax.FB_STATUS_STATE, 0)] base));
     live s (.ax 0) = true ∧ srcNew s 0 (axPrim s 0) (s.ax[(0 : Fin 16)]).prim = true ∧ axSec s 0 = 0xFF ∧
       (s.ax[(0 : Fin 16)]).prim.init = true ∧ getF s (.ax 0) Ax.FB_CFG_XCEN = 0 ∧ axFb s 0 = 0 ∧
       srcActing s 0 (axPrim s 0) = false ∧ getF s (.ax 0) Ax.FB_STATUS_XCHK = 0) ∧
    (let w := fw Ax.ENC_CFG_EN 1;
     Accepts .keeper (.ax 0) 0x34 w base ∧ fieldOf w Ax.ENC_CFG_EN = 1 ∧ getF base (.ax 0) Ax.ENC_CFG_EN = 0) ∧
    (∀ p ∈ ([(true, false), (false, true), (false, false)] : List (Bool × Bool)),
     let s := put [(.ax 0, Ax.ENC_CFG_EN, 1), (.ax 0, Ax.ENC_CFG_PTB, 63)] base;
     live s (.ax 0) = true ∧ getF s (.ax 0) Ax.ENC_CFG_EN = 1 ∧
       fin64 (getF s (.ax 0) Ax.ENC_CFG_PTA) ≠ fin64 (getF s (.ax 0) Ax.ENC_CFG_PTB) ∧
       cellDrive s (fin64 (getF s (.ax 0) Ax.ENC_CFG_PTA)) = none ∧ cellDrive s (fin64 (getF s (.ax 0) Ax.ENC_CFG_PTB)) = none ∧
       (quadIndex p.1 p.2 + 4 - quadIndex (s.ax[(0 : Fin 16)]).enc.a (s.ax[(0 : Fin 16)]).enc.b) % 4
         = (if p.1 then 3 else if p.2 then 1 else 2)) ∧
    (let s := put [(.ax 0, Ax.ENC_CFG_EN, 1)] base;
     live s (.ax 0) = true ∧ getF s (.ax 0) Ax.ENC_CFG_EN = 1 ∧ (s.ax[(0 : Fin 16)]).enc.no = 0) := by
  refine ⟨?_, ?_, ?_, ?_, ?_, ?_, ?_, ?_, ?_, ?_⟩ <;> decide +kernel

/-- An emulator that runs, `e` edges from its position, which a delivery has brought. -/
def emBehind (e : Int) (at_ : Nat) : State :=
  modEm 0 (fun x => { x with e := e, del := { at_ := at_ } })
    (put [(.em 0, Em.STATUS_STATE, 2), (.em 0, Em.CTRL_MODE, 0), (.em 0, Em.CPR, 4)] { later with cycle := 100 })

/-- An emulator that serves SSI. -/
def emSsi : State := put [(.em 0, Em.STATUS_STATE, 2), (.em 0, Em.CTRL_MODE, 2)] later

/-- A latch unit enabled and armed on both edges, with `k` edges waiting. -/
def latch (k : Nat) : State :=
  modLu 31 (fun x => { x with alarmed := true,
                              edges := List.replicate k { te2 := 0, el2 := 0, edge := true, epoch := 0, disc := false, seen := {} } })
    (put [(.lu 31, Lu.CFG_EN, 1), (.lu 31, Lu.STATUS_ARMED, 1), (.lu 31, Lu.CFG_EDGE, 3), (.lu 31, Lu.CFG_MODE, 1)] base)

theorem test_witness_PortRows :
    (let w := fw Em.CTRL_EN 1;
     Accepts .keeper (.em 15) 8 w base ∧ fieldOf w Em.CTRL_EN = 1 ∧ getF base (.em 15) Em.CTRL_EN = 0 ∧ emState base 15 = 0) ∧
    (let s := put [(.em 0, Em.STATUS_STATE, 2), (.em 0, Em.CTRL_EN, 1)] base;
     let w := wordOf (storedWord s (.em 0) 8 - 2 ^ Em.CTRL_EN.lo);
     Accepts .keeper (.em 0) 8 w s ∧ fieldOf w Em.CTRL_EN = 0 ∧ getF s (.em 0) Em.CTRL_EN = 1) ∧
    (∀ e ∈ ([0, 1] : List Nat), let s := put [(.em 0, Em.CTRL_EN, e)] base; let w := fw Em.CTRL_EN e;
     Accepts .keeper (.em 0) 8 w s ∧ fieldOf w Em.CTRL_EN = getF s (.em 0) Em.CTRL_EN) ∧
    (∀ p ∈ ([(-10, true), (10, false)] : List (Int × Bool)),
     (let s := emBehind p.1 0
      emRuns s 0 = true ∧ (emDebt s 0 0).natAbs ≤ 65536 ∧ emDue (emTick 0 s) 0 1 = some p.2) ∧
     (let s := emBehind p.1 later.elapsed
      emRuns s 0 = true ∧ (emDebt s 0 0).natAbs ≤ 65536 ∧ emDue (emTick 0 s) 0 1 = none ∧ emDue (emTick 0 s) 0 0 = some p.2)) ∧
    (let s := emBehind 0 0
     emRuns s 0 = true ∧ (emDebt s 0 0).natAbs ≤ 65536 ∧ emDue (emTick 0 s) 0 1 = none ∧ emDue (emTick 0 s) 0 0 = none) ∧
    (emRuns (emBehind (-65537) 0) 0 = true ∧ 65536 < (emDebt (emBehind (-65537) 0) 0 0).natAbs ∧ emRuns base 0 = false) ∧
    (let s := put [(.pwr, Pwr.MODE_MODE, 3)] base
     let w := fw Em.CTRL_EN 1
     Accepts .keeper (.em 4) 8 w s ∧ fieldOf w Em.CTRL_EN = 1 ∧ emState s 4 = 0 ∧ mode s = 3) ∧
    (ssiServes emSsi 0 = true ∧ (emSsi.em[(0 : Fin 16)]).mono = none ∧ (emSsi.em[(0 : Fin 16)]).run = false ∧
      cellDrive emSsi (fin64 (getF emSsi (.em 0) Em.PORT_PTA)) = none) ∧
    (∀ low ∈ [true, false], let s := modEm 0 (fun x => { x with mono := some 0, low := low }) emSsi;
     ssiServes s 0 = true ∧ (s.em[(0 : Fin 16)]).mono = some 0 ∧ (s.em[(0 : Fin 16)]).run = false ∧
       (s.em[(0 : Fin 16)]).low = low ∧ cellDrive s (fin64 (getF s (.em 0) Em.PORT_PTA)) = none) ∧
    (let s := put [(.pt 0, Pt.OUT_OE, 1)] emSsi;
     (cellDrive s (fin64 (getF s (.em 0) Em.PORT_PTA))).isSome = true) ∧
    (∀ p ∈ ([(0, 0), (0, 5)] : List (Nat × Nat)), let s := modEm 0 (fun x => { x with run := true, left := p.2, lastEdge := p.1 }) emSsi;
     ssiServes s 0 = true ∧ cellDrive s (fin64 (getF s (.em 0) Em.PORT_PTA)) = none ∧ (s.em[(0 : Fin 16)]).run = true ∧
       50 ≤ sinceNs s (s.em[(0 : Fin 16)]).lastEdge) ∧
    (let s := modEm 0 (fun x => { x with run := true, left := 5, lastEdge := later.elapsed }) emSsi;
     ssiServes s 0 = true ∧ cellDrive s (fin64 (getF s (.em 0) Em.PORT_PTA)) = none ∧ (s.em[(0 : Fin 16)]).run = true ∧
       sinceNs s (s.em[(0 : Fin 16)]).lastEdge < 50) ∧
    (let s := modEm 0 (fun x => { x with mono := some 0 }) emSsi;
     (s.em[(0 : Fin 16)]).mono = some 0 ∧ live s (.em 0) = true ∧ 1000 * getF s (.em 0) Em.SSI_TM ≤ sinceNs s 0) ∧
    (∀ k ∈ ([3, 4] : List Nat), portRuns (latch k) (.lu 31) = true ∧ getF (latch k) (.lu 31) Lu.CFG_EN = 1 ∧
      getF (latch k) (.lu 31) Lu.STATUS_ARMED = 1 ∧ cellDrive (latch k) (luCell (latch k) 31) = none ∧
      luFiltered (latch k) 31 0 = true ∧ luFiltered (latch k) 31 1 = true ∧ luFiltered (latch k) 31 2 = false ∧
      (latch k).time.marks = [] ∧ getF (latch k) (.lu 31) Lu.CFG_EDGE = 3 ∧
      ((latch k).lu[(31 : Fin 32)]).edges.length = k ∧ ((latch k).lu[(31 : Fin 32)]).alarmed = true) ∧
    (let s := latch 1;
     let e : PendEdge := { te2 := 0, el2 := 0, edge := true, epoch := 0, disc := false, seen := {} };
     portRuns s (.lu 31) = true ∧ (s.lu[(31 : Fin 32)]).edges = e :: [] ∧ edgeResult s 31 e ≠ none) ∧
    (let w := fw Lu.CFG_EN 1;
     Accepts .keeper (.lu 0) 8 w base ∧ getF base (.lu 0) Lu.CFG_EN = 0 ∧ fieldOf w Lu.CFG_EN = 1 ∧ fieldOf w Lu.CFG_SWTRIG = 0) ∧
    (let s := latch 3;
     let w := wordOf (storedWord s (.lu 31) 8 + 2 ^ Lu.CFG_ARM.lo);
     let x := wordOf (storedWord s (.lu 31) 8 + 2 ^ Lu.CFG_SWTRIG.lo);
     (Accepts .keeper (.lu 31) 8 w s ∧ fieldOf w Lu.CFG_EN = 1 ∧ fieldOf w Lu.CFG_SWTRIG = 0 ∧ fieldOf w Lu.CFG_ARM = 1) ∧
     (Accepts .keeper (.lu 31) 8 x s ∧ fieldOf x Lu.CFG_EN = 1 ∧ fieldOf x Lu.CFG_SWTRIG = 1 ∧ fieldOf x Lu.CFG_ARM = 0 ∧
       portRuns s (.lu 31) = true ∧ (s.lu[(31 : Fin 32)]).edges.length < 4)) ∧
 (∀ c ∈ [true, false], let s := if c then put [(.pt 0, Pt.OUT_OE, 1)] (latch 3) else modLu 31 (fun x => { x with edges := [] }) (latch 0);
     cellDrive s (luCell s 31) ≠ none ∨ luFiltered s 31 2 = false) ∧
    Accepts .keeper (.sec 63) 0x18 0x7FFFFFFF base := by
  refine ⟨?_, ?_, ?_, ?_, ?_, ?_, ?_, ?_, ?_, ?_, ?_, ?_, ?_, ?_, ?_, ?_, ?_, ?_, ?_⟩ <;> decide +kernel

theorem test_witness_DeliveriesAndServoInstants :
    (let s := modAx 15 (fun x => { x with toPort := true }) base;
     clocked s .port = true ∧ (s.ax[(15 : Fin 16)]).toPort = true ∧ (base.ax[(15 : Fin 16)]).toPort = false) ∧
    (∀ st ∈ ([2, 3] : List Nat),
     let s : State := { put [(.ax 0, Ax.FB_STATUS_STATE, st)] base with time := { base.time with now := 320000 } };
     clocked s .control = true ∧ (s.ax[(0 : Fin 16)]).del.t ≠ s.time.now / frameNs s * frameNs s ∧ axFb s 0 = st ∧
       isolated s (.ax 0) = false ∧ regionReset s .control = false ∧
       srcPublishes s 0 (if (s.ax[(0 : Fin 16)]).useSec then axSec s 0 else axPrim s 0) = false) ∧
    (clocked (put [(.pwr, Pwr.MODE_MODE, 4)] base) .port = false ∧ axFb (put [(.ax 0, Ax.FB_STATUS_STATE, 1)] base) 0 < 2) ∧
    (∀ st ∈ ([1, 2] : List Nat), let s := modRs 0 (fun x => { x with win := [{ validity := 2 }] }) (put [(.rs 0, Rs.STATUS_STATE, st), (.rs 0, Rs.CFG_REC, 0)] base);
     live s (.rs 0) = true ∧ rsState s 0 = st ∧ servoDue s 0 ≠ none ∧ (s.rs[(0 : Fin 16)]).win ≠ [] ∧
       getF s (.rs 0) Rs.CFG_REC = 0 ∧ ((s.rs[(0 : Fin 16)]).win.headD {}).validity = 2) := by
  refine ⟨?_, ?_, ?_, ?_⟩ <;> decide +kernel

theorem test_witness_ResamplerCommands :
    (let w := fw Rs.CFG_EN 1;
     Accepts .keeper (.rs 15) 8 w base ∧ fieldOf w Rs.CFG_EN = 1 ∧ getF base (.rs 15) Rs.CFG_EN = 0) ∧
    (let s := put [(.rs 0, Rs.CFG_EN, 1), (.rs 0, Rs.STATUS_STATE, 2)] base;
     let w := wordOf (storedWord s (.rs 0) 8 - 2 ^ Rs.CFG_EN.lo);
     Accepts .keeper (.rs 0) 8 w s ∧ fieldOf w Rs.CFG_EN = 0 ∧ getF s (.rs 0) Rs.CFG_EN = 1) ∧
    (let w := fw Rs.SH_CTRL_SHEN 1;
     Accepts .keeper (.rs 0) 0x38 w base ∧ fieldOf w Rs.SH_CTRL_SHEN = 1 ∧ getF base (.rs 0) Rs.SH_CTRL_SHEN = 0) ∧
    (∀ f ∈ ([0, 1] : List Nat), let s := put [(.rs 0, Rs.SH_CTRL_SHEN, 1), (.rs 0, Rs.SH_STATUS_FADING, f)] base;
     let w := wordOf (storedWord s (.rs 0) 0x38 - 2 ^ Rs.SH_CTRL_SHEN.lo);
     Accepts .keeper (.rs 0) 0x38 w s ∧ fieldOf w Rs.SH_CTRL_SHEN = 0 ∧ getF s (.rs 0) Rs.SH_CTRL_SHEN = 1 ∧
       getF s (.rs 0) Rs.SH_STATUS_FADING = f) ∧
    (let s := modRs 0 (fun x => { x with reqDue := true }) (put [(.rs 0, Rs.SH_STATUS_REQPEND, 1), (.rs 0, Rs.SH_STATUS_REQTGT, 1)] base);
     (s.rs[(0 : Fin 16)]).reqDue = true ∧ (s.rs[(0 : Fin 16)]).switchTo = none ∧
       getF s (.rs 0) Rs.SH_STATUS_REQTGT ≠ (shActive s 0).val) ∧
    (Accepts .keeper (.rs 15) (0x60 + 4 * 19) 1 base ∧ Accepts .keeper (.rs 15) (0xB0 + 4 * 19) 1 base ∧ shActive base 15 = 0 ∧
      getF base (.rs 15) Rs.SH_STATUS_FADING = 0) ∧
    (∀ p ∈ ([(0, 0, 0), (0, 0, 1), (0, 1, 0), (1, 1, 0), (1, 1, 1)] : List (Nat × Nat × Nat)),
     let s := put [(.rs 0, Rs.SH_STATUS_FADING, p.1), (.rs 0, Rs.SH_CTRL_SHEN, p.2.1), (.rs 0, Rs.SH_STATUS_REQPEND, p.2.2)] base;
     ∀ tgt ∈ ([0, 1] : List Nat), let w := wordOf (2 ^ Rs.SH_CMD_REQ.lo + tgt * 2 ^ Rs.SH_CMD_TGT.lo);
     Accepts .keeper (.rs 0) 0x3C w s ∧ fieldOf w Rs.SH_CMD_REQ = 1 ∧ fieldOf w Rs.SH_CMD_TGT = tgt ∧
       getF s (.rs 0) Rs.SH_STATUS_FADING = p.1 ∧ getF s (.rs 0) Rs.SH_CTRL_SHEN = p.2.1 ∧
       fadeEnded s 0 = none ∧ getF s (.rs 0) Rs.SH_STATUS_REQPEND = p.2.2 ∧ (shActive s 0).val = 0) ∧
    (∀ pend ∈ [true, false], ∀ tgt ∈ ([0, 1] : List Nat),
     let s := modRs 0 (fun x => { x with ended := some (0, pend, 0) }) base;
     let w := wordOf (2 ^ Rs.SH_CMD_REQ.lo + tgt * 2 ^ Rs.SH_CMD_TGT.lo);
     Accepts .keeper (.rs 0) 0x3C w s ∧ fieldOf w Rs.SH_CMD_REQ = 1 ∧ fadeEnded s 0 = some (pend, 0) ∧
       fieldOf w Rs.SH_CMD_TGT = tgt ∧ (shActive s 0).val = 0) ∧
    (∀ p ∈ ([(0, 0), (1, 0), (1, 1)] : List (Nat × Nat)),
     let s := modRs 0 (fun x => { x with fadeF := 4, fadeJ := 4 })
       (put [(.rs 0, Rs.SH_STATUS_FADING, 1), (.rs 0, Rs.SH_STATUS_REQPEND, p.1), (.rs 0, Rs.SH_STATUS_REQTGT, p.2)] base);
     live s (.rs 0) = true ∧ getF s (.rs 0) Rs.SH_STATUS_FADING = 1 ∧ (s.rs[(0 : Fin 16)]).startFade = false ∧
       (s.rs[(0 : Fin 16)]).fadeF ≤ (s.rs[(0 : Fin 16)]).fadeJ ∧ getF s (.rs 0) Rs.SH_STATUS_REQPEND = p.1 ∧
       getF s (.rs 0) Rs.SH_STATUS_REQTGT = p.2) := by
  refine ⟨?_, ?_, ?_, ?_, ?_, ?_, ?_, ?_, ?_⟩ <;> decide +kernel

/-- An evaluation of loop 63 in progress. -/
def evaluating : LpEval := { grp := 0, loop := 63, start := 0, ns := 1, inst := 0, y := 0, noLane := false, co := [], old := false }

/-- Loop `n` in a state, on axis 0. -/
def loopIn (n : Fin 64) (st : Nat) : State := put [(.lp n, Lp.STATUS_STATE, st)] base

theorem test_witness_LoopCommands :
    (∀ st ∈ ([0, 1, 2, 3, 4, 5, 6] : List Nat), ∀ c ∈ ([1, 2, 4] : List Nat),
      Accepts .keeper (.lp 63) 0x10 (fw Lp.CMD c) (loopIn 63 st) ∧ fieldOf (fw Lp.CMD c) Lp.CMD = c ∧ lpState (loopIn 63 st) 63 = st) ∧
    (let s := put [(.ax 15, Ax.FB_STATUS_STATE, 0)] base;
     lpState s 63 = 0 ∧ roleOk s 63 = true ∧ axFb s (lpAxis s 63) ≠ 3 ∧ axFb (put [(.ax 15, Ax.FB_STATUS_STATE, 3)] base) (lpAxis s 63) = 3 ∧ Accepts .keeper (.lp 63) 0x10 (fw Lp.CMD 1) s ∧
     Accepts .keeper (.lp 63) 0x10 (fw Lp.CMD 2) s) ∧
    (let s := put [(.lp 16, Lp.STATUS_STATE, 1)] base;
     lpState s 0 = 0 ∧ roleOk s 0 = false ∧ Accepts .keeper (.lp 0) 0x10 (fw Lp.CMD 1) s) ∧
    (∀ st ∈ ([1, 2] : List Nat), let s := loopIn 0 st;
     Accepts .keeper (.lp 0) 0x10 (fw Lp.CMD 3) s ∧ fieldOf (fw Lp.CMD 3) Lp.CMD = 3 ∧ lpState s 0 = st ∧ closeOk s 0 = false ∧
     (let t := modAx 0 (fun x => { x with del := { validity := 0 } }) (put [(.ax 0, Ax.FB_STATUS_STATE, 0)] s);
      Accepts .keeper (.lp 0) 0x10 (fw Lp.CMD 3) t ∧ lpState t 0 = st ∧ closeOk t 0 = true)) ∧
    (let s := put [(.lp 0, Lp.CTRL_RLIM, 1), (.lp 0, Lp.TARGET_LO, 7)] (loopIn 0 4);
     Accepts .keeper (.lp 0) 0x1C 1 s ∧ lpState s 0 = 4 ∧ getF s (.lp 0) Lp.CTRL_RLIM = 1 ∧ lpMeas s 0 = 0 ∧
       toSigned 64 (getF s (.lp 0) Lp.TARGET_LO + 2 ^ 32 * 1) ≠ (s.lp[(0 : Fin 64)]).seenTarget) ∧
    (Accepts .keeper (.lp 63) 0x3C 0 (loopIn 63 3) ∧ running (loopIn 63 3) (.lp 63) = true) ∧
    (Accepts .keeper (.lp 63) 0x3C 5 base ∧ running base (.lp 63) = false) ∧
    (rampEnded base 0 = none ∧ rampEnded (loopIn 0 3) 0 = none) ∧
    (∀ c ∈ ([1, 2, 3, 4] : List Nat), ∀ ev ∈ ([0, 1] : List Nat), let s := modLp 0 (fun x => { x with ramp := some (0, ev) }) (loopIn 0 4);
     Accepts .keeper (.lp 0) 0x10 (fw Lp.CMD c) s ∧ fieldOf (fw Lp.CMD c) Lp.CMD = c ∧ rampEnded s 0 = some ev) := by
  refine ⟨?_, ?_, ?_, ?_, ?_, ?_, ?_, ?_, ?_⟩ <;> decide +kernel

theorem test_witness_RateGroups :
    (∀ e ∈ [none, some evaluating, some { evaluating with grp := 3, old := true }],
     let s : State := { put [(.lpe, Lpe.RG_CFG_EN 3, 1)] base with lpEval := e }
     lpeRuns s = true ∧ getF s .lpe (Lpe.RG_CFG_EN (3 : Fin 4)) = 1 ∧ groupInstant s 3 ≠ none ∧ (s.rg[(3 : Fin 4)]).batch = [] ∧
       (e.all (fun v => v.grp != 3 || v.old) = true)) ∧
    (∀ e ∈ [evaluating, { evaluating with old := true }], let v : LpEval := { e with grp := 3 }
     let s : State := { base with lpEval := some v }
     s.lpEval = some v ∧ v.start = s.elapsed ∧ (2 : Fin 4) < v.grp ∧ v.old = e.old) ∧
    (let s := modInj 0 (fun x => { x with startAt := 2 ^ 40 }) (modInj 1 (fun x => { x with startAt := 2 ^ 40 })
       (modInj 2 (fun x => { x with startAt := 2 ^ 40 }) (modInj 3 (fun x => { x with startAt := 2 ^ 40 }) base)));
     ∀ i : Fin 4, lpGroup s (fin64 (getF s (.inj i) Inj.CFG_LOOP)) = 0 ∧ 0 + s.time.inc ≤ (s.inj[i]).startAt) ∧
    (∀ st ∈ ([1, 2, 3, 4] : List Nat), let s := modRg 1 (fun g => { g with batch := [0, 63] }) (loopIn 0 st);
     s.lpEval = none ∧ lpeRuns s = true ∧ (∀ j : Fin 4, j < 1 → (s.rg[j]).batch = []) ∧
       (s.rg[(1 : Fin 4)]).batch = (0 : Fin 64).val :: (63 : Fin 64).val :: [] ∧ lpEvaluated s 0 = true ∧ lpState s 0 = st) ∧
    (∀ old ∈ [true, false], let v : LpEval := { evaluating with old := old }
     let s : State := { put [(.lp 63, Lp.STATUS_STATE, 2)] later with lpEval := some v }
     s.lpEval = some v ∧ lpeRuns s = true ∧ v.ns ≤ sinceNs s v.start ∧ live s (.lp v.loop) = true ∧ 1 ≤ lpState s v.loop ∧
       lpState s v.loop ≤ 4 ∧ v.co = [] ∧ (s.rg[v.grp]).batch = []) := by
  refine ⟨?_, ?_, ?_, ?_, ?_⟩ <;> decide +kernel

theorem test_witness_SelectionRespectsTheLimits :
    (let s := put [(.ax 0, Ax.FB_STATUS_STATE, 0), (.lp 0, Lp.CFG_ROLE, 2), (.lp 16, Lp.CFG_ROLE, 1), (.lp 0, Lp.STATUS_STATE, 4),
                   (.lp 16, Lp.STATUS_STATE, 4), (.lp 16, Lp.U, 5)] base;
     axFb s 0 ≠ 3 ∧ (0 : Fin 64) ∈ axLoops s 0 ∧ lpRole s 0 = 2 ∧ lpOutput s 0 = some 0 ∧ (16 : Fin 64) ∈ axLoops s 0 ∧
       lpRole s 16 = 1 ∧ lpOutput s 16 = some 5) := by decide +kernel

/-- Injection generator 3 in a state. -/
def injIn (st : Nat) : State := put [(.inj 3, Inj.STATUS_STATE, st)] base

/-- The capture unit in a state. -/
def capIn (st : Nat) : State := put [(.cap, Cap.STATUS_STATE, st)] base

theorem test_witness_InjectionRows :
    (∀ st ∈ ([0, 4, 5] : List Nat), ∀ pt ∈ ([0, 3] : List Nat), let s := put [(.inj 3, Inj.CFG_POINT, pt)] (injIn st);
     let w := fw Inj.CMD_ARM 1;
     Accepts .keeper (.inj 3) 0x1C w s ∧ fieldOf w Inj.CMD_ARM = 1 ∧ fieldOf w Inj.CMD_STOP = 0 ∧ fieldOf w Inj.CMD_START = 0 ∧
       injState s 3 = st ∧ injOwnerOk s 3 = true ∧ getF s (.inj 3) Inj.CFG_POINT = pt) ∧
    (let w := fw Inj.CMD_START 1;
     Accepts .keeper (.inj 3) 0x1C w (injIn 1) ∧ fieldOf w Inj.CMD_START = 1 ∧ fieldOf w Inj.CMD_STOP = 0 ∧
       fieldOf w Inj.CMD_ARM = 0 ∧ injState (injIn 1) 3 = 1) ∧
    (∀ st ∈ ([0, 1, 2, 3] : List Nat), let w := fw Inj.CMD_STOP 1;
     Accepts .keeper (.inj 3) 0x1C w (injIn st) ∧ fieldOf w Inj.CMD_STOP = 1 ∧ fieldOf w Inj.CMD_ARM = 0 ∧
       injState (injIn st) 3 = st) ∧
    (let s := modInj 3 (fun x => { x with j := 9 }) (put [(.inj 3, Inj.N, 9)] (injIn 2));
     live s (.inj 3) = true ∧ injState s 3 = 2 ∧ getF s (.inj 3) Inj.N ≠ 0 ∧
       getF s (.inj 3) Inj.N ≤ (s.inj[(3 : Fin 4)]).j + getF s (.inj 3) Inj.CFG_TAPER) ∧
    (let s := modInj 3 (fun x => { x with taper := 2 ^ 20 }) (injIn 3);
     live s (.inj 3) = true ∧ injState s 3 = 3 ∧ getF s (.inj 3) Inj.CFG_TAPER ≤ (s.inj[(3 : Fin 4)]).taper) := by
  refine ⟨?_, ?_, ?_, ?_, ?_⟩ <;> decide +kernel

theorem test_witness_InjectionAndCaptureRows :
    (∀ st ∈ ([0, 3] : List Nat), ∀ r ∈ ([0, 1] : List Nat), let s := put [(.cap, Cap.CFG_ROLL, r)] (capIn st);
     let w := fw Cap.CMD_ARM 1;
     Accepts .keeper .cap 0x1C w s ∧ fieldOf w Cap.CMD_STOP = 0 ∧ fieldOf w Cap.CMD_ARM = 1 ∧ fieldOf w Cap.CMD_TRIG = 0 ∧
       capState s = st ∧ getF s .cap Cap.CFG_ROLL = r) ∧
    (∀ st ∈ ([0, 1, 2, 3, 4] : List Nat), let w := fw Cap.CMD_STOP 1;
     Accepts .keeper .cap 0x1C w (capIn st) ∧ fieldOf w Cap.CMD_STOP = 1 ∧ capState (capIn st) = st) ∧
    (let s := put [(.cap, Cap.TRIG_MODE, 4)] (capIn 1);
     let w := fw Cap.CMD_TRIG 1;
     Accepts .keeper .cap 0x1C w s ∧ fieldOf w Cap.CMD_STOP = 0 ∧ fieldOf w Cap.CMD_ARM = 0 ∧ fieldOf w Cap.CMD_TRIG = 1 ∧
       capState s = 1 ∧ getF s .cap Cap.TRIG_MODE = 4) ∧
    (awake base = true ∧ underReset base .cap = false ∧ isolated base .cap = false ∧ Agent.keeper.code = owner base .cap ∧
      running base .cap = false ∧ capState (capIn 4) = 4 ∧ awake (capIn 4) = true ∧
      Agent.keeper.code = owner (capIn 4) .cap) ∧
    (let s := modCap (fun c => { c with due := [(320, false)] }) (capIn 1);
     live s .cap = true ∧ running s .cap = true ∧ capFull s = false ∧ capDue s = some (320, false, none) ∧ s.cap.staged = none ∧
       s.cap.gbDue = false ∧ getF s .cap Cap.WP < capC s) ∧
    (let s := modCap (fun c => { c with post := 2 ^ 20 }) (capIn 2);
     live s .cap = true ∧ capFull s = true) ∧
    (∀ rp ∈ ([0, 15, 16, 7] : List Nat),
     let s := modCap (fun c => { c with staged := some (16, 0), commitDue := true, rp := rp }) (put [(.cap, Cap.WP, 7)] (capIn 4));
     live s .cap = true ∧ s.cap.staged = some (16, 0) ∧ s.cap.commitDue = true ∧ capState s = 4 ∧ s.cap.rp = rp ∧
       (s.cap.rp = getF s .cap Cap.WP ↔ rp = 7)) ∧
    (∀ rp ∈ ([0, 15, 99] : List Nat), let s := modCap (fun c => { c with rp := rp, rpLen := some 100 }) base;
     (s.cap.rpLen.getD 16 = 100 ∧ (rp = 0 → s.cap.rp + 1 < 16) ∧ (rp = 15 → 16 ≤ s.cap.rp + 1) ∧ (rp = 99 → 100 ≤ s.cap.rp + 1))) ∧
    (capIn 4).cap.commitDue = false := by
  refine ⟨?_, ?_, ?_, ?_, ?_, ?_, ?_, ?_, ?_⟩ <;> decide +kernel

end Sys2Proof.Tests
end

