-- ==== Sys2Proof/Tests/WitnessEngines.lean ====
section
/-!
SUPPORT. Witnesses, continued: the statements about the engines, the queues and the alarms.
-/

namespace Sys2Proof.Tests

set_option Elab.async false

open Sys2Proof Sys2Proof.Machine

/-- Engine `k` in RUN at an instruction. -/
def atPc (k : Fin 8) (pc : Nat) (s : State) : State := put [(.le k, Le.STATUS_STATE, 1), (.le k, Le.PC, pc)] s

/-- Engine 0 in RUN with P0 holding a value. -/
def withP0 (a : Nat) : State := modLe 0 (fun e => { e with p := e.p.set 0 (wordOf a) }) (atPc 0 100 base)

theorem test_witness_ResultsAreSeenInTheirTurn :
    (let s := modLe 7 (fun e => { e with slots := 1, target := some 5 }) (atPc 7 12287 base);
     LeOn s 7 ∧ (s.le[(7 : Fin 8)]).stopHeld = false ∧ (s.le[(7 : Fin 8)]).slots = 1 ∧ (s.le[(7 : Fin 8)]).target = some 5) ∧
    (∀ leaves ∈ [true, false], ∀ tgt ∈ ([90, 100, 101] : List Nat), let l : LoopEnt := { start := 90, fin := 100, count := 2 };
     let s := modLe 0 (fun e => { e with slots := 1, target := some tgt, leaves := leaves, loops := [l] }) (atPc 0 95 base);
     LeOn s 0 ∧ (s.le[(0 : Fin 8)]).stopHeld = false ∧ (s.le[(0 : Fin 8)]).slots = 1 ∧ (s.le[(0 : Fin 8)]).target = some tgt ∧
       (s.le[(0 : Fin 8)]).leaves = leaves ∧ (s.le[(0 : Fin 8)]).loops = [l] ∧ l.lv = leLevel s 0 ∧ l.start ≤ lePc s 0 - 2 ∧ lePc s 0 - 2 ≤ l.fin) ∧
    (LeOn (atPc 0 12287 base) 0 ∧ ((atPc 0 12287 base).le[(0 : Fin 8)]).slots = 0 ∧
      ((atPc 0 12287 base).le[(0 : Fin 8)]).loops = []) ∧
    (let l : LoopEnt := { start := 90, fin := 100, count := 2 };
     let s := modLe 0 (fun e => { e with loops := [l] }) (atPc 0 100 base);
     LeOn s 0 ∧ (s.le[(0 : Fin 8)]).slots = 0 ∧ (s.le[(0 : Fin 8)]).loops = l :: [] ∧ l.fin = lePc s 0 ∧ l.lv = leLevel s 0 ∧ 1 < l.count) ∧
    (let l : LoopEnt := { start := 90, fin := 100, count := 2 };
     let s := put [(.le 0, Le.STATUS_LEVEL, 1)] (modLe 0 (fun e => { e with loops := [l] }) (atPc 0 100 base));
     LeOn s 0 ∧ (s.le[(0 : Fin 8)]).stopHeld = false ∧ (s.le[(0 : Fin 8)]).slots = 0 ∧ (s.le[(0 : Fin 8)]).loops = l :: [] ∧
       l.lv ≠ leLevel s 0) := by
  refine ⟨?_, ?_, ?_, ?_, ?_⟩ <;> decide +kernel

theorem test_witness_ArithmeticResults : LeOn (atPc 0 0 base) 0 ∧ LeOn (atPc 7 12287 base) 7 := by decide +kernel

theorem test_witness_SpecialAndAccumulatorRows :
    (LeOn (withP0 0x7FFC) 0 ∧ leLevel (withP0 0) 0 = false) ∧
    (let s := put [(.le 0, Le.STATUS_LEVEL, 1)] (withP0 0);
     LeOn s 0 ∧ leLevel s 0 = true) ∧
    (∀ a ∈ ([0, 0x7FFC, 0x8000, 2] : List Nat), LeOn (withP0 a) 0 ∧
      (pReg ((withP0 a).le[(0 : Fin 8)]) (leLevel (withP0 a) 0) 0).toNat = a ∧ eccAt (withP0 a) (dramBase 0 + a) = none ∧
      (let s : State := { withP0 a with ecc := [(dramBase 0 + a / 4 * 4, true)] }
       LeOn s 0 ∧ eccAt s (dramBase 0 + a) = some true)) ∧
    (∀ n ∈ ([0, 1] : List Nat), let s := modLe 0 (fun e => { e with a := e.a.set 0 { v := 5, nw := n } }) (withP0 0);
     LeOn s 0 ∧ (aReg (s.le[(0 : Fin 8)]) (leLevel s 0) 0).nw = n ∧ roundEven (5 : Int) (2 ^ 2) * 2 ^ 2 ≤ 2 ^ 71 - 1) := by
  refine ⟨?_, ?_, ?_, ?_⟩ <;> decide +kernel

theorem test_witness_LoadsAndStores :
    (∀ a ∈ ([0, 4, 0x7FF8, 0x8000, 0x7FFF8, 0x80000, 1] : List Nat), LeOn (withP0 a) 0 ∧
      (pReg ((withP0 a).le[(0 : Fin 8)]) (leLevel (withP0 a) 0) 0).toNat = a ∧
      ((withP0 a).le[(0 : Fin 8)]).wbuf.length < 4 ∧ eccAt (withP0 a) (dramBase 0 + a) = none ∧
      eccAt (withP0 a) (dramBase 0 + a + 4) = none ∧
      ∀ u ∈ [true, false],
       (let s : State := { withP0 a with ecc := [(dramBase 0 + a / 4 * 4, u)] }
        LeOn s 0 ∧ eccAt s (dramBase 0 + a) = some u) ∧
       (let s : State := { withP0 a with ecc := [(dramBase 0 + a / 4 * 4 + 4, u)] }
        LeOn s 0 ∧ eccAt s (dramBase 0 + a + 4) = some u)) ∧
    ((31 : Fin 32).val + (0 : Fin 4).val ≤ 31 ∧ 31 < (31 : Fin 32).val + (1 : Fin 4).val ∧ (30 : Fin 32).val % 2 = 0 ∧
      (31 : Fin 32).val % 2 = 1 ∧ (3 : Fin 32).val < 4 ∧ 4 ≤ (4 : Fin 32).val) ∧
    (let s := modLe 0 (fun e => { e with wbuf := List.replicate 4 { cspace := false, writes := [(0, 1)] } }) (withP0 8);
     LeOn s 0 ∧ (s.le[(0 : Fin 8)]).wbuf.length = 4) := by
  refine ⟨?_, ?_, ?_⟩ <;> decide +kernel

theorem test_witness_BranchesAndLoops :
    (LeOn (atPc 0 100 base) 0 ∧ LeFree (atPc 0 100 base) 0 ∧ condHolds 0 (rdSt (atPc 0 100 base) 0) = true ∧
      condHolds 1 (rdSt (atPc 0 100 base) 0) = false) ∧
    (∀ n ∈ ([0, 1, 2] : List Nat),
     let s := modLe 0 (fun e => { e with loops := List.replicate n { start := 90, fin := 200, count := 2 } }) (atPc 0 100 base);
     LeOn s 0 ∧ LeFree s 0 ∧ lePc s 0 = 100 ∧ (s.le[(0 : Fin 8)]).loops.length = n ∧ rd s 0 5 = 0) := by
  refine ⟨?_, ?_⟩ <;> decide +kernel

theorem test_witness_EngineControlRows :
    (∀ lv ∈ ([0, 1] : List Nat), let s := put [(.le 0, Le.STATUS_LEVEL, lv)] (atPc 0 100 base);
     LeOn s 0 ∧ LeFree s 0 ∧ (leLevel s 0 = true ↔ lv = 1)) ∧
    (let s := atPc 0 100 base;
     LeOn s 0 ∧ LeFree s 0 ∧ leState s 0 = 1 ∧ (s.le[(0 : Fin 8)]).stopHeld = false ∧
     waitHolds (leResults 0 [] [] s) 0 { q := true, queue := 3, level := 1 } = 0 ∧
     waitHolds (leResults 0 [] [] s) 0 { t := true, target := 0 } ≠ 0) ∧
    (let s := modLe 0 (fun e => { e with stopHeld := true }) (atPc 0 100 base);
     LeOn s 0 ∧ LeFree s 0 ∧ leState s 0 = 1 ∧ (s.le[(0 : Fin 8)]).stopHeld = true) ∧
    (let s := modLe 0 (fun e => { e with stepLeft := 1 }) (put [(.le 0, Le.STATUS_STATE, 3)] (atPc 0 100 base));
     LeOn s 0 ∧ LeFree s 0 ∧ leState s 0 = 3) ∧
    (let s := modLe 0 (fun e => { e with slots := 2 }) (atPc 0 100 base);
     LeOn s 0 ∧ ¬ LeFree s 0) ∧
    (leReady (atPc 0 12288 base) 0 = true ∧ 12287 < lePc (atPc 0 12288 base) 0) := by
  refine ⟨?_, ?_, ?_, ?_, ?_, ?_⟩ <;> decide +kernel

/-- Engine 0 stalled. -/
def stalled (x : Stall) (s : State) : State := modLe 0 (fun e => { e with stall := some x }) (atPc 0 100 s)

/-- Queue 0 enabled in the pool, owned by an agent, with entries. -/
def queueWith (own entries : Nat) : State :=
  put [(.q 0, Hdr.OWNER (.q 0), own), (.q 0, Q.CFG_EN, 1), (.q 0, Q.CFG_WRMASK, 2 ^ 9), (.q 0, Q.LEN, 16), (.q 0, Q.LEVEL_LEVEL, entries),
       (.q 0, Q.PTR_WP, entries), (.q 0, Q.STATUS_EMPTY, if entries = 0 then 1 else 0)] base

theorem test_witness_TimedAndQueueRows :
    (LeOn (atPc 7 100 base) 7 ∧ ((atPc 7 100 base).le[(7 : Fin 8)]).wbuf = []) ∧
    (∀ d ∈ [none, some (true, false), some (false, true)], let s := modLe 0 (fun e => { e with qwDone := d }) base;
     (s.le[(0 : Fin 8)]).qwDone = d) ∧
    (let e : QEntry := { w0 := 0x51000000 };
     let s := put [(.q 0, Q.CFG_WRMASK, 2 ^ 1)] (queueWith 1 14);
     let t := put [(.q 0, Q.CFG_WRMASK, 2 ^ 1), (.q 0, Q.CFG_POLICY, 2)] (queueWith 1 15);
     pushRefused (.le 0) 0 e base = true ∧ (pushRefused (.le 0) 0 e s = false ∧ qwBlocked 0 (qwRec s 0 0 e) s = false ∧ inbufHeld s < 32) ∧
     pushRefused (.le 0) 0 e t = false ∧ qwBlocked 0 (qwRec t 0 0 e) t = true) := by
  refine ⟨?_, ?_, ?_⟩ <;> decide +kernel

theorem test_witness_EngineBusRows :
    (∀ x ∈ [Stall.load false 0 1 31 false, .load false 0x7FFF8 2 3 true, .load true 0x10000 1 0 false],
     let s := stalled x base;
     leStalled s 0 = true ∧ (s.le[(0 : Fin 8)]).wbuf = [] ∧ (s.le[(0 : Fin 8)]).stall = some x ∧ (s.le[(0 : Fin 8)]).lostRd = none ∧
       eccAt s poolBase = none ∧ eccAt s (poolBase + 0x7FFF8) = none ∧ eccAt s (poolBase + 0x7FFF8 + 4) = none ∧
       eccAt { s with ecc := [(poolBase, true)] } poolBase = some true) ∧
    (let s := modLe 0 (fun e => { e with lostRd := some poolBase }) (stalled (.load false 0 1 31 false) base);
     leStalled s 0 = true ∧ (s.le[(0 : Fin 8)]).wbuf = [] ∧ (s.le[(0 : Fin 8)]).stall = some (.load false 0 1 31 false) ∧
       eccAt s poolBase = none ∧ (s.le[(0 : Fin 8)]).lostRd = some (poolBase + 0)) ∧
    (let s := stalled (.qr 0 1) (put [(.qc, Hdr.ISOLATE, 1), (.qc, Hdr.ISOLATED, 1)] (queueWith 1 3));
     leStalled s 0 = true ∧ (s.le[(0 : Fin 8)]).wbuf = [] ∧ (s.le[(0 : Fin 8)]).stall = some (.qr 0 1) ∧ isolated s .qc = true) ∧
    (∀ own ∈ ([1, 9] : List Nat), let s := stalled (.qr 0 1) (queueWith own 3);
     leStalled s 0 = true ∧ (s.le[(0 : Fin 8)]).wbuf = [] ∧ (s.le[(0 : Fin 8)]).stall = some (.qr 0 1) ∧ owner s (.q 0) = own ∧
     isolated s (.q 0) = false ∧ s.qCommit[(0 : Fin 16)] = false ∧ qLevel s 0 ≠ 0 ∧ s.ecc = [] ∧ isolated s .qc = false) ∧
    (let s := stalled (.qr 0 1) (put [(.q 0, Hdr.ISOLATE, 1), (.q 0, Hdr.ISOLATED, 1)] (queueWith 1 3));
     leStalled s 0 = true ∧ (s.le[(0 : Fin 8)]).wbuf = [] ∧ (s.le[(0 : Fin 8)]).stall = some (.qr 0 1) ∧
     isolated s (.q 0) = true) ∧
    (let e : StoreEnt := { cspace := false, writes := [(0x7FFFC, 5)] };
     let s := modLe 0 (fun x => { x with wbuf := [e] }) base;
     clocked s .control = true ∧ underReset s (.le 0) = false ∧ leClock (mode s) 0 = true ∧
     (s.le[(0 : Fin 8)]).wbuf = e :: [] ∧ (s.le[(0 : Fin 8)]).stall = none ∧ (s.le[(0 : Fin 8)]).stopHeld = false ∧
     ringAt s 0x7FFFC = none ∧ regionReset s .control = false) := by
  refine ⟨?_, ?_, ?_, ?_, ?_, ?_⟩ <;> decide +kernel

/-- Engine 0 in a state of R289. -/
def leIn (st : Nat) : State := put [(.le 0, Le.STATUS_STATE, st)] base

theorem test_witness_EngineControl :
    (∀ st ∈ ([0, 1, 2, 3, 4, 5, 6] : List Nat), ∀ c ∈ ([1, 2, 3, 4, 5] : List Nat), let w := fw Le.CMD_CMD c;
     Accepts .keeper (.le 0) 8 w (leIn st) ∧ fieldOf w Le.CMD_CMD = c ∧ fieldOf w Le.CMD_SWI = 0 ∧ leState (leIn st) 0 = st) ∧
    (Accepts .keeper (.le 7) 8 (fw Le.CMD_SWI 1) base ∧ fieldOf (fw Le.CMD_SWI 1) Le.CMD_CMD = 0 ∧
      fieldOf (fw Le.CMD_SWI 1) Le.CMD_SWI = 1) ∧
    (let s := put [(.le 0, Le.STATUS_STATE, 3)] base;
     clocked s .control = true ∧ leClock (mode s) 0 = true ∧ (s.le[(0 : Fin 8)]).stall = none ∧ lePc s 0 ≤ 12287 ∧
     (s.le[(0 : Fin 8)]).slots = 0 ∧ (s.le[(0 : Fin 8)]).loops = [] ∧ eccAt s (iramBase 0 + 4 * lePc s 0) = none ∧
     (s.le[(0 : Fin 8)]).pend = [] ∧ leFetch s 0 = .nop 0) ∧
    (entryPoint (leIn 1) 0 = true ∧ entryPoint (modLe 0 (fun e => { e with slots := 1 }) (leIn 1)) 0 = false) ∧
    (∀ st ∈ ([1, 2] : List Nat),
     let s := put [(.le 0, Le.IEN_GIE, 1), (.le 0, Le.IEN_IEN, 16), (.le 0, Le.IPEND, 16)] (leIn st);
     live s (.le 0) = true ∧ leClock (mode s) 0 = true ∧ leState s 0 = st ∧ leLevel s 0 = false ∧ getF s (.le 0) Le.IEN_GIE = 1 ∧
     leSource s 0 = true ∧ (s.le[(0 : Fin 8)]).slots = 0 ∧ (s.le[(0 : Fin 8)]).stall = none ∧
     (s.le[(0 : Fin 8)]).stopHeld = false ∧ (s.le[(0 : Fin 8)]).pend = []) ∧
    (let s := modLe 0 (fun e => { e with wdogRun := 1000 * 2 ^ 28 }) (put [(.le 0, Le.WDOG, 1)] (leIn 2));
     live s (.le 0) = true ∧ leState s 0 = 2 ∧ getF s (.le 0) Le.WDOG ≠ 0 ∧
     getF s (.le 0) Le.WDOG * 1000 * 2 ^ 28 ≤ (s.le[(0 : Fin 8)]).wdogRun) ∧
    (let w : WaitSt := { t := true, w := true, d := 7 };
     let s := modLe 0 (fun e => { e with wait := some w, wk := true }) (leIn 2);
     live s (.le 0) = true ∧ leClock (mode s) 0 = true ∧ leState s 0 = 2 ∧ (s.le[(0 : Fin 8)]).wait = some w ∧
     waitHolds s 0 w ≠ 0 ∧ (s.le[(0 : Fin 8)]).stopHeld = false) := by
  refine ⟨?_, ?_, ?_, ?_, ?_, ?_, ?_⟩ <;> decide +kernel

theorem test_witness_QueueRows :
    (let w := fw Q.CFG_EN 1;
     let off := put [(.q 15, Q.CFG_EN, 0)] base;
     Accepts .keeper (.q 15) 8 w off ∧ fieldOf w Q.CFG_EN = 1 ∧ getF off (.q 15) Q.CFG_EN = 0 ∧
     ringBad off 15 (qLen off 15) = false ∧
     (let s := put [(.q 15, Q.BASE, 0x7FFF)] off;
      Accepts .keeper (.q 15) 8 w s ∧ getF s (.q 15) Q.CFG_EN = 0 ∧ ringBad s 15 (qLen s 15) = true)) ∧
    (let s : State := { queueWith 9 14 with staging := base.staging.set 9 { w0 := 0x51000000 } };
     awake s = true ∧ underReset s (.q 0) = false ∧ isolated s (.q 0) = false ∧ s.qCommit[(0 : Fin 16)] = false ∧
     qEnabled s 0 = true ∧ bitAt (getF s (.q 0) Q.CFG_WRMASK) Agent.keeper.code = 1 ∧
     softType (s.staging[agentIx .keeper]).w0 = true ∧ inbufHeld s < 32 ∧ isolated s .qc = false ∧
     (let t := put [(.qc, Hdr.ISOLATE, 1), (.qc, Hdr.ISOLATED, 1)] s
      awake t = true ∧ underReset t (.q 0) = false ∧ isolated t (.q 0) = false ∧ qEnabled t 0 = true ∧
      bitAt (getF t (.q 0) Q.CFG_WRMASK) Agent.keeper.code = 1 ∧ inbufHeld t < 32 ∧ isolated t .qc = true)) ∧
    (let r : InRec := { queue := 0, src := 3, entries := [{}] }; let x : InRec := { queue := 1, src := 3, entries := [{}] };
     (∀ y ∈ [{ x with src := 4 }], r.src < y.src) ∧ x.src ≤ r.src) ∧
    (∀ src ∈ ([0, 3] : List Nat), let r : InRec := { queue := 0, src := src, entries := [{}] };
     let s := if src = 0 then queueWith 9 15 else queueWith 9 14;
     r.entries = [{}] ∧ isolated s (.q 0) = false ∧ regionReset s .control = false ∧ qEnabled s 0 = true ∧
     s.qCommit[(0 : Fin 16)] = false ∧ gapPending s 0 = false ∧
     (if r.src = 0 then qLevel s 0 < qCap s 0 else qLevel s 0 + 1 ≤ qCap s 0 - 1) ∧ (r.src = 0 → r.entries.length = 1)) ∧
    (let s := queueWith 9 3;
     softType (s.staging[agentIx .keeper]).w0 = false ∧ bitAt (getF s (.q 0) Q.CFG_WRMASK) Agent.host.code = 0 ∧
     qEnabled (put [(.q 0, Q.CFG_EN, 0)] base) 0 = false) ∧
    (Readable (queueWith 9 1) (.q 0) ∧ (queueWith 9 1).qCommit[(0 : Fin 16)] = false ∧ qLevel (queueWith 9 1) 0 ≠ 0 ∧
      (queueWith 9 1).ecc = [] ∧ isolated (queueWith 9 1) .qc = false ∧
      Agent.keeper.code = owner (queueWith 9 1) (.q 0) ∧ Agent.host.code ≠ owner (queueWith 9 1) (.q 0)) ∧
    (let w := wordOf 32;
     (let s := put [(.q 0, Q.CFG_EN, 0)] base; Accepts .keeper (.q 0) 0x10 w s ∧ qEnabled s 0 = false) ∧
     (∀ n ∈ ([0, 3] : List Nat), Accepts .keeper (.q 0) 0x10 w (queueWith 9 n) ∧ qEnabled (queueWith 9 n) 0 = true ∧
       ringBad (lenCommit 0 (queueWith 9 n)) 0 (Q.LEN.fit (fieldOf w Q.LEN)) = false ∧
       qLevel (lenCommit 0 (queueWith 9 n)) 0 = n ∧ (queueWith 9 n).qCommit[(0 : Fin 16)] = false) ∧
     (let s := put [(.q 0, Q.BASE, 0x7FF0)] (queueWith 9 3);
      Accepts .keeper (.q 0) 0x10 w s ∧ qEnabled s 0 = true ∧ ringBad (lenCommit 0 s) 0 (Q.LEN.fit (fieldOf w Q.LEN)) = true)) ∧
    (∀ rp ∈ ([15, 16, 17] : List Nat), let s : State := { put [(.q 0, Q.STATUS_LENPEND, 1), (.q 0, Q.LENSTG, 16), (.q 0, Q.PTR_RP, rp)]
       (queueWith 9 3) with qCommit := base.qCommit.set 0 true };
     live s (.q 0) = true ∧ s.qCommit[(0 : Fin 16)] = true ∧ getF s (.q 0) Q.STATUS_LENPEND = 1 ∧
     getF s (.q 0) Q.LENSTG = 16 ∧ getF s (.q 0) Q.PTR_RP = rp) ∧
    (∀ f ∈ [(Q.CMD_FLUSH, Q.CMD_CNTCLR), (Q.CMD_CNTCLR, Q.CMD_FLUSH)], let w := fw f.1 1;
     Accepts .keeper (.q 0) 0x28 w (queueWith 9 3) ∧ fieldOf w f.1 = 1 ∧ fieldOf w f.2 = 0 ∧
     (queueWith 9 3).fresh.contains (clearKey (.q 0)) = false ∧
     (let s : State := { queueWith 9 3 with fresh := [clearKey (.q 0)] }
      Accepts .keeper (.q 0) 0x28 w s ∧ s.fresh.contains (clearKey (.q 0)) = true ∧ qLevel (lenCommit 0 s) 0 ≠ 0)) ∧
    (let r : InRec := { queue := 0, src := 1, entries := [{ w0 := 0x41000000 }] };
     let s : State := { queueWith 9 14 with inbuf := [r] };
     live s .qc = true ∧ s.inbuf = r :: []) ∧
    (Readable base .qc ∧ inbufHeld base < 32) ∧
    (let f : FenceRec := { req := 9, seq := 0, time := 0, epoch := 0, mask := 1, id := 5, targets := 1, before := 0, cyc := 7 };
     let s : State := { queueWith 9 3 with fences := [{ f with before := 1 }, f] };
     live s .qc = true ∧ s.fences.find? (fenceReady s) = some f ∧ f.targets = 2 ^ (0 : Fin 16).val ∧ f.cyc ≠ s.cycle) := by
  refine ⟨?_, ?_, ?_, ?_, ?_, ?_, ?_, ?_, ?_, ?_, ?_, ?_⟩ <;> decide +kernel

end Sys2Proof.Tests
end

