-- ==== Sys2Proof/Tests/WitnessServices.lean ====
section
/-!
SUPPORT. Witnesses, continued: the statements about alarms, the host port, the MACs, the Keeper, Enven, power and errors. Where a
clause asks what a signature check answers, which nothing in Lean can tell (log 91), the witness meets every other hypothesis and
one of the clauses holds whatever the check answers.
-/

namespace Sys2Proof.Tests

set_option Elab.async false

open Sys2Proof Sys2Proof.Machine

/-- The alarm table with an entry, and with the first 128 entries taken. -/
def withAlarm (e : AlarmEntry) (s : State) : State := { s with alarms := s.alarms.set 0 e }
def tableFull (s : State) : State := { s with alarms := Vector.replicate 132 { valid := true, code := 1 } }

theorem test_witness_AlarmTable :
    (dormant base = false ∧ frozen base = false ∧ clocked base .system = true ∧
      (let s : State := { base with pwr := { base.pwr with stage := 3 } }
       dormant s = false ∧ frozen s = false ∧ clocked s .system = false)) ∧
    (∀ p ∈ ([(4, 9, 5, 1), (5, 1, 5, 2), (5, 2, 5, 2), (6, 0, 5, 1)] : List (Nat × Nat × Nat × Nat)),
     let r : AlarmRaise := { code := p.2.1, src := p.1, grade := 0, keep := false };
     let x : AlarmRaise := { code := p.2.2.2, src := p.2.2.1, grade := 0, keep := false };
     (r.src < x.src ∨ (r.src = x.src ∧ r.code < x.code) ↔ p.1 = 4 ∨ p.2.1 = 1)) ∧
    (base.alarmEnds = [] ∧ base.alarmRaises = [] ∧ findAlarm base 0x0301 5 = none ∧ freeAlarm base ≠ none) ∧
    (let s := withAlarm { valid := true, code := 0x0301, src := 5 } base;
     s.alarmEnds = [] ∧ findAlarm s 0x0301 5 = some 0 ∧ awake s = true ∧ (s.alarms[(0 : Fin 132)]).acked = false) ∧
    (let s := withAlarm { valid := true, code := 0x0301, src := 5, acked := true } base;
     findAlarm s 0x0301 5 = some 0 ∧ awake s = true ∧ (s.alarms[(0 : Fin 132)]).acked = true) ∧
    (let e : AlarmEntry := { valid := true, code := 0x0301, src := 5, acked := true };
     let s : State := { base with alarmEnds := [(127, e)] };
     s.alarmEnds = [((127 : Fin 132).val, e)] ∧ s.alarmRaises = [] ∧ (127 : Fin 132).val < 128 ∧ e.valid = true ∧
     findAlarm s 0x0301 5 = none) ∧
    ((tableFull base).alarmEnds = [] ∧ findAlarm (tableFull base) 0x0301 5 = none ∧ freeAlarm (tableFull base) = none ∧
      ((tableFull base).alarms[(131 : Fin 132)]).valid = true ∧ (base.alarms[(131 : Fin 132)]).valid = false) ∧
    (let r : AlarmRaise := { code := 0x0301, src := 5, grade := 1, keep := true };
     let s : State := { base with alarmRaises := [r] }; s.alarmRaises = [r] ∧ s.alarmEnds = []) ∧
    (∀ c ∈ [true, false], ∀ k ∈ [true, false], let s := withAlarm { valid := true, code := 1, cond := c, acked := k } base;
     Accepts .host .ec 0x804 0 s ∧ fieldOf (0 : Word) Ec.AT_ACK_ALL = 0 ∧ fieldOf (0 : Word) Ec.AT_ACK_INDEX = 0 ∧
     (s.alarms[(0 : Fin 132)]).valid = true ∧ (s.alarms[(0 : Fin 132)]).cond = c ∧ (s.alarms[(0 : Fin 132)]).acked = k) ∧
    (Accepts .host .ec 0x804 (fw Ec.AT_ACK_ALL 1) base ∧ fieldOf (fw Ec.AT_ACK_ALL 1) Ec.AT_ACK_ALL = 1 ∧
      Accepts .host .ec 0x804 (fw Ec.AT_ACK_INDEX 131) base ∧ fieldOf (fw Ec.AT_ACK_INDEX 131) Ec.AT_ACK_INDEX = 131) ∧
    (let w := wordOf (0xF000 * 2 ^ Ec.AT_RAISE_CODE.lo + 2 * 2 ^ Ec.AT_RAISE_GRADE.lo);
     fieldOf w Ec.AT_RAISE_CODE = 0xF000 ∧ fieldOf w Ec.AT_RAISE_GRADE = 2 ∧ Agent.host ≠ .keeper ∧
     fieldOf (fw Ec.AT_RAISE_GRADE 3) Ec.AT_RAISE_GRADE = 3) ∧
    (let s : State := { later with incident := { opened := true } };
     awake s = true ∧ s.incident.opened = true ∧ 10000000000 ≤ sinceNs s s.incident.lastAt) := by
  refine ⟨?_, ?_, ?_, ?_, ?_, ?_, ?_, ?_, ?_, ?_, ?_, ?_⟩ <;> decide +kernel

/-- A frame of the host with its CRC. -/
def hostFrameOf (cmd : BitVec 8) (addr : Word) (len : BitVec 16) (data : List Word) : Frame :=
  let f : Frame := { cmd := cmd, addr := addr, len := len, data := data, crc := 0 }
  { f with crc := BitVec.ofNat 16 (crc16Bytes (frameBody f)) }

theorem test_witness_HostPortFrames :
    (hostReady base = true ∧ base.ec.jtagIr ≠ 5 ∧ hostReady { base with ec := { base.ec with jtagIr := 5 } } = true) ∧
    (base.hp.posted = [] ∧ base.ecc = [] ∧ regionReset base .control = false ∧ inbufHeld base < 32 ∧
      (hostFrameOf 1 0x28000010 1 []).len = 1 ∧ target ((hostFrameOf 1 0x28000010 1 []).addr.toNat % 2 ^ 32) = .pool 0x10 ∧
      ringAt base 0x10 = none ∧ frameRefusal (hostFrameOf 2 0x28000010 1 [7]) = none ∧ (hostFrameOf 2 0x28000010 1 [7]).data = [7]) ∧
    (hostReady (put [(.ec, Ec.RERR_RSTBUSY 3, 1)] base) = false ∧ hostReady asleep = false ∧
      hostReady { base with pwr := { base.pwr with stage := 4 } } = false) ∧
    (let s : State := { base with hp := { base.hp with posted := [(0x0FFFFFFC, 5)] } };
     hostReady s = true ∧ s.hp.posted = (0x0FFFFFFC, 5) :: [] ∧
     busRes .host 0x0FFFFFFC 5 { s with hp := { s.hp with posted := [] } } = .unmapped ∧ unmappedBlk 0x0FFFFFFC = none) ∧
    (∀ p ∈ ([(0, 0), (1, 0), (0, 9), (1, 9)] : List (Nat × Nat)),
     let a := blkBase (.exg 0) + 0x40
     let s : State := { put [(.exg 0, Hdr.ISOLATE, p.1), (.exg 0, Hdr.ISOLATED, p.1), (.exg 0, Hdr.OWNER (.exg 0), p.2)] base with
                        hp := { base.hp with posted := [(a, 5)] } };
     hostReady s = true ∧ s.hp.posted = (a, 5) :: [] ∧ busRes .host a 5 { s with hp := { s.hp with posted := [] } } = .unmapped ∧
     unmappedBlk a = some (.exg 0, 0x40) ∧ underReset s (.exg 0) = false ∧ isolated s (.exg 0) = (p.1 == 1) ∧
     owner s (.exg 0) = p.2) ∧
    (∀ f ∈ [hostFrameOf 0 0 0 [], hostFrameOf 1 0x40000000 256 [], hostFrameOf 2 0x28000000 2 [1, 2], hostFrameOf 3 0x28000000 1 [5], hostFrameOf 4 1 1 [7],
            hostFrameOf 5 0 0 []], frameRefusal f = none) ∧
    (frameOp (hostFrameOf 0 0 0 []) = 0 ∧ frameOp (hostFrameOf 1 0x40000000 256 []) = 1 ∧ frameOp (hostFrameOf 2 0x28000000 2 [1, 2]) = 2 ∧
      frameOp (hostFrameOf 3 0x28000000 1 [5]) = 3 ∧ frameOp (hostFrameOf 4 1 1 [7]) = 4 ∧ frameOp (hostFrameOf 5 0 0 []) = 5) ∧
    (∀ k ∈ ([0, 255, 256] : List Nat), let s : State := { base with hp := { base.hp with posted := List.replicate k (0, 0) } };
     hostReady s = true ∧ s.hp.posted.length = k) ∧
    (frameRefusal { hostFrameOf 0 0 0 [] with crc := 1 } = some 0x81 ∧ frameRefusal (hostFrameOf 6 0 0 []) = some 0x82 ∧
      frameRefusal (hostFrameOf 1 2 1 []) = some 0x83) ∧
    (let s : State := { base with hp := { base.hp with posted := [(0x28000000, 5)], kept := some [0x80] } };
     hostReady s = true ∧ s.hp.posted = (0x28000000, 5) :: [] ∧
     busRes .host 0x28000000 5 { s with hp := { s.hp with posted := [] } } ≠ .unmapped ∧ s.hp.kept = some [0x80] ∧ base.hp.kept = none) ∧
    (Readable base .hp ∧ fieldOf (fw Hp.IRQ_SET 1) Hp.IRQ_SET = 1) ∧
    (∀ o ∈ [HpOut.response, .waits, .undriven], ∀ n ∈ ([0, 1, 2, 3] : List Nat),
     let s : State := { base with hp := { base.hp with out := o, width := n, sent := [0x80] } };
     s.hp.out = o ∧ s.hp.width = n ∧ 0 < s.hp.sent.length) := by
  refine ⟨?_, ?_, ?_, ?_, ?_, ?_, ?_, ?_, ?_, ?_, ?_, ?_⟩ <;> decide +kernel

/-- Port 1 with its MAC enabled and a link that passes frames. -/
def linked : State := put [(.eth 1, Eth.CFG_EN, 1), (.eth 1, Eth.STATUS_LINK, 1), (.eth 1, Eth.STATUS_FDX, 1)] base

theorem test_witness_EthernetRows :
    (ethClock base 1 = true ∧ flag base (.eth 1) Eth.STATUS_LINK ≠ true ∧ ethPasses linked 1 = true) ∧
    (let f : EthFrame := { bytes := 64, dst := 0x011B19000000, ptpEvent := true };
     f.damaged = false ∧ 64 ≤ f.bytes ∧ f.bytes ≤ 1522 ∧ f.tags ≤ 1 ∧ f.control = false ∧ ethForUs linked 1 f = true) ∧
    (let f : EthFrame := { bytes := 1522, dst := 0x020000000001 };
     f.bytes ≤ 1522 ∧ ethForUs linked 1 f = false) ∧
    (∀ l ∈ [EthLoad.arp 0, .echo 0], let f : EthFrame := { bytes := 64, dst := 0xFFFFFFFFFFFF, load := l };
     let s := put [(.mb, Mb.KS_STATE_FWRUN, 1)] linked;
     ethPasses s 1 = true ∧ ethForUs s 1 f = true ∧ f.load = l ∧ flag s .mb Mb.KS_STATE_FWRUN = true ∧
     (0 : BitVec 32).toNat = (s.eth[(1 : Fin 2)]).ip) ∧
    (∀ n ∈ ([0, 0x1000, 0x3000] : List Nat),
     let s : State := { linked with keeper := { linked.keeper with ptpCfg := #v[n, 0, 0] } };
     ethPasses s 1 = true ∧ bitAt s.keeper.ptpCfg[0] 12 = (if n = 0 then 0 else 1)) := by
  refine ⟨?_, ?_, ?_, ?_, ?_⟩ <;> decide +kernel

theorem test_witness_MailboxHandshake :
    (∀ st ∈ ([0, 1, 2, 3] : List Nat), let s := put [(.mb, Mb.STATE_STATE, st)] base;
     (∀ c ∈ ([0x01, 0x82] : List Nat), Accepts .host .mb 0x40 (wordOf (c * 2 ^ 16 + 0xFF * 2 ^ 8 + 15)) s) ∧
     getF s .mb Mb.STATE_STATE = st) ∧
    (∀ st ∈ ([0, 1, 2, 3] : List Nat), ∀ q ∈ ([0, 7] : List Nat), let s := put [(.mb, Mb.STATE_STATE, st)] base;
     let w := wordOf (2 ^ Mb.CONSUME_CONSUME.lo + q * 2 ^ Mb.CONSUME_SEQ.lo);
     Accepts .host .mb 0xBC w s ∧ fieldOf w Mb.CONSUME_CONSUME = 1 ∧ fieldOf w Mb.CONSUME_SEQ = q ∧
     getF s .mb Mb.STATE_STATE = st ∧ getF s .mb Mb.STATE_SEQ = 0) ∧
    (let s : State := { base with hp := { base.hp with mbRes := some (255, 255, List.replicate 14 9) } };
     keeperRuns s = true ∧ s.hp.mbRes = some (255, 255, List.replicate 14 9) ∧ (List.replicate 14 (9 : Word)).length ≤ 14) := by
  refine ⟨?_, ?_, ?_⟩ <;> decide +kernel

/-- The firmware runs. -/
def fwOn : State := put [(.mb, Mb.KS_STATE_FWRUN, 1)] base

/-- Arguments by a list. -/
def args (l : List Nat) (i : Nat) : Nat := l.getD i 0

theorem test_witness_SettingsCommands :
    (fwRun base = false ∧ romCommand 0x02 = false ∧ fwRun fwOn = true) ∧
    (setModeRes 5 0 fwOn = .refused 2 ∧ setModeRes 0 0 fwOn = .now ∧ setModeRes 1 0 fwOn = .later ∧
      setModeRes 5 0 (alarmGone 0x0B02 (blkBase .pwr) (incFlush false fwOn)) = .refused 2 ∧
      setModeRes 0 0 (alarmGone 0x0B02 (blkBase .pwr) (incFlush false fwOn)) = .now ∧
      setModeRes 1 0 (alarmGone 0x0B02 (blkBase .pwr) (incFlush false fwOn)) = .later) ∧
    (let s := put [(.pwr, Pwr.MODE_MODE, 3)] base;
     5 ≤ s.pwr.stage ∧ mode s = 3 ∧ mode base ≠ 3 ∧ base.ecc = [] ∧ fwOn.ecc = []) ∧
    (let s : State := put [(.le 7, Hdr.OWNER (.le 7), 9)] { base with keeper := { base.keeper with handDue := [7] } };
     (7 : Fin 8) ∈ s.keeper.handDue ∧ owner s (.le 7) = 9 ∧ (6 : Fin 8) ∉ s.keeper.handDue) ∧
    (ptpArgOk 0x02000000 = true ∧ ptpArgOk 0x0A0300F9 = true ∧ ptpArgOk 0 = false ∧ ptpArgOk 0x02000001 = false) ∧
    (poolOk base 0 156 = true ∧ beaconMagic (poolBytes base 0 156) = false ∧ poolOk base 1 156 = false) ∧
    (args [0, 1360, 2080] 0 = 0 ∧ 1360 ≤ args [0, 1360, 2080] 1 ∧ args [0, 1360, 2080] 2 ≤ 2080 ∧
      (10 ≤ args [0, 0, 0, 0, 1000] 4 ∧ args [0, 0, 0, 0, 1000] 4 ≤ 1000)) ∧
    poolOk fwOn 0 0x840 = true ∧ poolOk fwOn 0 1060 = true ∧
    getF fwOn .mb Mb.KS_DBG_LOGERASE = 0 ∧ getF (put [(.mb, Mb.KS_DBG_LOGERASE, 1)] fwOn) .mb Mb.KS_DBG_LOGERASE = 1 := by
  refine ⟨?_, ?_, ?_, ?_, ?_, ?_, ?_, ?_, ?_, ?_, ?_⟩ <;> decide +kernel

/-- 152 bytes of settings with the magic and the version. -/
def settings : List Byte := wordBytes 0x42454143 ++ (wordBytes 1 ++ List.replicate 144 0)

theorem settings_length : settings.length = 0x98 := by simp [settings, wordBytes]

/-- Bytes placed in the pool from offset 0 are read back by the Keeper, which finds the area where it was. -/
theorem pool_placed (b : List Byte) (s : State) :
    poolBytes (setPool 0 b s) 0 b.length = b ∧ ∀ n, poolOk (setPool 0 b s) 0 n = poolOk s 0 n := by
  refine ⟨memBytes_loadBytes b (poolBase + 0) s, fun n => ?_⟩
  have hs : setPool 0 b s = { s with mem := (setPool 0 b s).mem, ecc := (setPool 0 b s).ecc } :=
    (loadBytes_frame b (poolBase + 0) s).1
  rw [hs]; rfl

/-- Settings in the pool with their CRC, and settings with two further words, not both of which are their CRC. -/
theorem test_witness_SettingsCommands_beacon :
    (∀ c : Nat, let s := setPool 0 (settings ++ wordBytes c) base
      poolOk s 0 156 = true ∧ beaconMagic (poolBytes s 0 156) = true ∧
        beaconCrc (poolBytes s 0 156) = (wordBytes c == wordBytes (crc32 settings))) ∧
    (wordBytes (crc32 settings) == wordBytes (crc32 settings)) = true ∧
    ((wordBytes 0 == wordBytes (crc32 settings)) = false ∨ (wordBytes 1 == wordBytes (crc32 settings)) = false) := by
  refine ⟨fun c => ?_, beq_self_eq_true _, ?_⟩
  · have h := pool_placed (settings ++ wordBytes c) base
    have hl : (settings ++ wordBytes c).length = 156 := by simp [settings_length, wordBytes]
    rw [hl] at h
    intro s
    rw [h.1, h.2]
    have hm : beaconMagic (settings ++ wordBytes c) = true := by
      unfold beaconMagic settings
      rw [List.append_assoc, List.take_left' (by rfl : (wordBytes 0x42454143).length = 4),
        List.getElem?_append_right (by decide)]
      rfl
    refine ⟨by decide +kernel, hm, ?_⟩
    unfold beaconCrc
    rw [List.drop_left' settings_length, List.take_left' settings_length]
  · by_cases h : wordBytes 0 = wordBytes (crc32 settings)
    · exact .inr (by rw [← h]; decide)
    · exact .inl (by simpa using h)

theorem crc32_lt (l : List Byte) : crc32 l < 2 ^ 32 := by
  have bit : ∀ c, c < 2 ^ 32 → crc32Bit c < 2 ^ 32 := fun c hc => by
    unfold crc32Bit
    split
    · exact Nat.xor_lt_two_pow (by omega) (by decide)
    · omega
  have fold : ∀ (m : List Nat) (c : Nat), c < 2 ^ 32 → m.foldl (fun c _ => crc32Bit c) c < 2 ^ 32 := by
    intro m
    induction m with
    | nil => exact fun _ h => h
    | cons _ t ih => exact fun c h => ih _ (bit c h)
  have all : ∀ (l : List Byte) (c : Nat), c < 2 ^ 32 →
      l.foldl (fun c b => (List.range 8).foldl (fun c _ => crc32Bit c) (c ^^^ b.toNat)) c < 2 ^ 32 := by
    intro l
    induction l with
    | nil => exact fun _ h => h
    | cons b t ih =>
      exact fun c h => ih _ (fold _ _ (Nat.xor_lt_two_pow h (Nat.lt_trans b.isLt (by decide))))
  exact Nat.xor_lt_two_pow (all l _ (by decide)) (by decide)

theorem listWord_wordBytes (l : List Byte) (w n : Nat) (hl : l.length = n) (hw : w < 2 ^ 32) :
    listWord (l ++ wordBytes w) n = w := by
  subst hl
  unfold listWord
  simp [wordBytes]
  omega

/-- An incident log entry, and a Lens record with its CRC, in the flash. -/
theorem test_witness_SettingsCommands_flash :
    (let b : List Byte := wordBytes 0x494E4344 ++ wordBytes 1 ++ List.replicate 48 0;
     logNumber (setFlashBytes 0x900000 (b ++ wordBytes (crc32 b)) fwOn) 0 = some 1) ∧
    (∀ l : List Byte, l.length = 0x420 →
      let s := setFlashBytes (lensSector 15) (l ++ wordBytes (crc32 l)) fwOn
      let b := flashBytes s (lensSector 15) 1060
      poolOk s 0 1060 = true ∧ fwRun s = true ∧ crc32 (b.take 0x420) = listWord b 0x420) := by
  refine ⟨by decide +kernel, fun l hl => ?_⟩
  intro s b
  have hs : s = { fwOn with flash := s.flash } := (setFlashBytes_frame _ _ _).1
  have hb : b = l ++ wordBytes (crc32 l) := by
    have h := flashBytes_setFlashBytes (l ++ wordBytes (crc32 l)) (lensSector 15) fwOn
    rwa [List.length_append, hl] at h
  refine ⟨?_, ?_, ?_⟩
  · rw [hs]; exact (by decide +kernel : poolOk fwOn 0 1060 = true)
  · rw [hs]; exact (by decide +kernel : fwRun fwOn = true)
  · rw [hb, List.take_left' hl, listWord_wordBytes l _ _ hl (crc32_lt l)]

/-- Slot A in a state, slot B in a state. -/
def slotsIn (a b : Nat) (s : State) : State := setSlot 0 a (setSlot 1 b s)

theorem test_witness_UpdateAndDebugCommands :
    (inactiveSlot (slotsIn 5 1 fwOn) = 1 ∧ slotState (slotsIn 5 1 fwOn) 1 = 1 ∧ slotState (slotsIn 5 0 fwOn) 1 ≠ 1 ∧
      slotState (slotsIn 5 2 fwOn) 1 = 2) ∧
    (let s := slotsIn 5 1 fwOn;
     poolOk s 0 16 = true ∧ crc32 (poolBytes s 0 16) ≠ 0 ∧ args [0, 0, 16, crc32 (poolBytes s 0 16)] 3 = crc32 (poolBytes s 0 16)) ∧
    imgCheck (slotsIn 5 1 fwOn) 1 0 = some 1 ∧
    (activeSlot (slotsIn 5 4 fwOn) = some 0 ∧ activeSlot (slotsIn 4 3 fwOn) = some 0 ∧ slotState (slotsIn 4 3 fwOn) 0 = 4 ∧
      slotState (slotsIn 5 3 fwOn) 0 ≠ 4 ∧
      (let s : State := put [(.le 7, Hdr.OWNER (.le 7), 9)] { slotsIn 5 4 fwOn with keeper := { (slotsIn 5 4 fwOn).keeper with keptEngines := [7] } };
       (7 : Fin 8) ∈ s.keeper.keptEngines ∧ owner s (.le 7) = 9 ∧ s.pwr.hold = false ∧
       (let t : State := { s with pwr := { s.pwr with hold := true } }; fwRun t = true ∧ t.pwr.hold = true ∧ (7 : Fin 8) ∈ t.keeper.keptEngines))) ∧
    (schedule 1 false 0 (slotsIn 5 0 fwOn)).1 ≠ 0 ∧ (schedule 1 false 0 (slotsIn 5 2 fwOn)).1 = 0 ∧
    poolOk fwOn 0 64 = true ∧ fwOn.keeper.keys[(3 : Fin 4)] = none ∧
    (let s : State := { fwOn with keeper := { fwOn.keeper with keys := fwOn.keeper.keys.set 0 (some (5, false)) } };
     (s.keeper.keys[(0 : Fin 4)]).isSome = true ∧ (keysLeft s).length ≤ 1) ∧
    (let s : State := { fwOn with keeper := { fwOn.keeper with keys := Vector.replicate 4 (some (5, false)) } };
     s.keeper.keys[(0 : Fin 4)] = some (5, false) ∧ 1 < (keysLeft s).length) ∧
    (fwOn.keeper.lockAt = none ∧ poolOk fwOn 0 64 = true ∧ dbgAccepted fwOn (args []) = false ∧ fwOn.keeper.failures + 1 < 3) := by
  refine ⟨?_, ?_, ?_, ?_, ?_, ?_, ?_, ?_, ?_, ?_, ?_⟩ <;> decide +kernel

theorem test_witness_KeeperEvents :
    (keeperRuns later = true ∧ 1000000 ≤ sinceNs later later.keeper.sampleAt ∧ 5000000 < sinceNs later later.keeper.sampleAt) ∧
    (∀ c ∈ [SensorCond.twarn, .thigh, .tcrit, .vinlo, .vinhi, .rail], ∀ n ∈ ([0, 3] : List Nat), ∀ v ∈ ([0, 1] : List Nat),
     let k : KeeperSt := { base.keeper with beyond := Vector.replicate 6 n, inside := Vector.replicate 6 n };
     let s : State := { put [(.sns, condFld c, v)] base with keeper := k };
     keeperRuns s = true ∧ getF s .sns (condFld c) = v ∧ s.keeper.beyond[condIndex c] = n ∧ s.keeper.inside[condIndex c] = n) ∧
    (∀ c ∈ [SensorCond.twarn, .rail], ∀ k ∈ [true, false],
     let m : KeeperSt := { base.keeper with inside := Vector.replicate 6 3 };
     let s : State := withAlarm { valid := true, cond := k, code := condCode c, src := snsSrc } { base with keeper := m };
     keeperRuns s = true ∧ getF s .sns (condFld c) = 0 ∧ s.keeper.beyond[condIndex c] < 3 ∧ 3 ≤ s.keeper.inside[condIndex c] ∧
       condKept s c = k) ∧
    (let s : State := { base with time := { base.time with now := 20000000 } };
     keeperRuns s = true ∧ justAt s 10000000 = true ∧ s.time.now / 10000000 ≠ s.keeper.aliveAt / 10000000 ∧ live s .hp = true ∧
     justAt s 1000000 = true ∧ s.time.now / 1000000 ≠ s.hp.msAt / 1000000) ∧
    (let s : State := { fwOn with keeper := { fwOn.keeper with ptpCfg := #v[0x300, 0, 0] } };
     ptpPort s 0 = true ∧ ptpPort s 1 = true) ∧
    (let s : State := { base with keeper := { base.keeper with grant := 7 } };
     keeperRuns s = true ∧ s.keeper.grant ≠ 0 ∧ s.keeper.grantLeft = some 0) ∧
    (let s : State := { base with elapsed := 60000000000 * 2 ^ 28, keeper := { base.keeper with lockAt := some 0 } };
     keeperRuns s = true ∧ s.keeper.lockAt = some 0 ∧ 60000000000 ≤ sinceNs s 0) := by
  refine ⟨?_, ?_, ?_, ?_, ?_, ?_, ?_⟩ <;> decide +kernel

theorem test_witness_TrialsAndSchedules :
    (∀ t ∈ ([0, 1, 1000000000, 1000000001] : List Nat), let c : Sched := { target := t, strict := false, lateMax := 0, slot := 5 };
     let s : State := { fwOn with keeper := { fwOn.keeper with sched := some c } };
     fwRun s = true ∧ s.keeper.sched = some c ∧ c.armed = false ∧ s.time.now = 0) ∧
    (let s := put [(.mb, Mb.KS_STATE_TRIAL, 1), (.mb, Mb.KS_TRIAL, 590)] fwOn;
     awake s = true ∧ getF s .mb Mb.KS_STATE_TRIAL = 1 ∧ getF s .mb Mb.KS_TRIAL + 10 ≤ trialSaved s) ∧
    (let s := slotsIn 4 5 (put [(.mb, Mb.KS_STATE_TRIAL, 1)] fwOn);
     clocked s .system = true ∧ regionReset s .system = false ∧ getF s .mb Mb.KS_STATE_TRIAL = 1 ∧ getF s .mb Mb.KS_TRIAL = 0 ∧
     activeSlot s = some 0) := by
  refine ⟨?_, ?_, ?_⟩ <;> decide +kernel

/-- Enven runs, and ten seconds have passed. -/
def envenOn : State := { fwOn with elapsed := later.elapsed, enven := { fwOn.enven with on := true, group := 3, node := 1 } }

/-- A message from node 2. -/
def msg (type : BitVec 8) (mlevel : BitVec 8) (flags : BitVec 16) : EnvenMsg :=
  { type := type, flevel := 0, mlevel := mlevel, flags := flags, group := 3, node := 2, chip := 0, seq := 9,
    plen := 26, payload := List.replicate 26 0 }

theorem test_witness_EnvenRows :
    (fwRun envenOn = true ∧ envenOn.enven.on = true ∧ envenOn.enven.interval * 1000000 ≤ sinceNs envenOn envenOn.enven.hbAt) ∧
    (let s : State := { envenOn with enven := { envenOn.enven with hbFirst := true, hbAt := envenOn.elapsed } };
     fwRun s = true ∧ s.enven.on = true ∧ s.enven.hbFirst = true) ∧
    (envenMine { msg 1 0 0 with group := 4 } envenOn = false ∧ envenMine (msg 1 0 0) envenOn = true) ∧
    ({ msg 1 0 0 with magic := 0x454F }.magic ≠ 0x454E ∧ { msg 1 0 0 with hver := 2 }.hver ≠ 1 ∧
      1400 < { msg 1 0 0 with plen := 1401 }.plen.toNat ∧
      { msg 1 0 0 with plen := 25 }.plen.toNat ≠ { msg 1 0 0 with plen := 25 }.payload.length) ∧
    (∀ n ∈ ([2, 3, 4, 5, 6, 7, 8] : List Nat), ∀ g ∈ ([0, 1] : List Nat), let t := BitVec.ofNat 8 n;
      let f := BitVec.ofNat 16 g;
      envenMine (msg t 9 f) envenOn = true ∧ levelOk (msg t 9 f) envenOn = false ∧ 2 ≤ t.toNat ∧ t.toNat ≤ 8 ∧
      envenMine (msg t 0 f) envenOn = true ∧ levelOk (msg t 0 f) envenOn = true ∧ bitAt (msg t 0 f).flags.toNat 0 = g) ∧
    (slotState envenOn (inactiveSlot envenOn) ≠ 2 ∧ 26 ≤ (msg 6 0 0).payload.length) ∧
    (∀ c ∈ ([0, 2] : List Nat), let s := slotsIn 2 0 envenOn;
     let m : EnvenMsg := { msg 6 0 0 with payload := List.replicate 10 0 ++ [BitVec.ofNat 8 c, 0] ++ digestPrefix s 0 ++ List.replicate 6 0 };
     envenMine m s = true ∧ levelOk m s = true ∧ 26 ≤ m.payload.length ∧ slotState s (inactiveSlot s) = 2 ∧
     digestPrefix s (inactiveSlot s) = (m.payload.drop 12).take 8) ∧
    (let p : Peer := { node := 2, chip := 0 };
     let s : State := { envenOn with enven := { envenOn.enven with activate := some ([], 2, 0, 7), peers := [p] } };
     fwRun s = true ∧ s.enven.on = true ∧ s.enven.activate = some ([], 2, 0, 7) ∧ 100000000 ≤ sinceNs s 0 ∧
     s.enven.peers.any (fun x => !x.lost && !x.acked) = true ∧ p ∈ s.enven.peers ∧ p.lost = false ∧
     3 * p.interval * 1000000 ≤ sinceNs s p.seenAt) ∧
    (let s : State := { envenOn with elapsed := 30000000000 * 2 ^ 28, enven := { envenOn.enven with riseAt := some (0, 5) } };
     fwRun s = true ∧ s.enven.riseAt = some (0, 5) ∧ 30000000000 + timeSub s ≤ sinceNs s 0 ∧ timeSec s % 10 = 0) ∧
    (let s : State := { envenOn with keeperPath := [{ kind := 0, entry := {} }] };
     s.keeperPath ≠ [] ∧ s.keeper.fwdAlarms < 1000 ∧ envenOn.keeperPath = []) ∧
    (let s : State := { envenOn with keeperMiss := [7] }; s.keeperPath = [] ∧ s.keeperMiss ≠ [] ∧ s.keeper.fwdAlarms < 1000) ∧
    (envenOn.keeper.fwdAt = timeSec envenOn ∧ envenOn.keeperMiss = [] ∧ forwardQueue envenOn (eventNext envenOn) = none ∧ forwardQueue envenOn (traceNext envenOn) = none) ∧
    (let s := put [(.q 1, Hdr.OWNER (.q 1), 9), (.q 1, Q.LEVEL_LEVEL, 1), (.q 1, Q.CFG_CLASS, 0)] envenOn;
     let t := put [(.q 1, Hdr.OWNER (.q 1), 9), (.q 1, Q.LEVEL_LEVEL, 1), (.q 1, Q.CFG_CLASS, 1)] { envenOn with keeper := { envenOn.keeper with traceCap := 1 } };
     (fwRun s = true ∧ s.enven.on = true ∧ s.keeperPath = [] ∧ forwardQueue s (eventNext s) = some 1) ∧
     (t.keeperPath = [] ∧ forwardQueue t (eventNext t) = none ∧ forwardQueue t (traceNext t) = some 1 ∧
       (t.keeper.traceCap * 1000 - t.keeper.fwdBits) / 128 ≠ 0)) := by
  refine ⟨?_, ?_, ?_, ?_, ?_, ?_, ?_, ?_, ?_, ?_, ?_, ?_, ?_⟩ <;> decide +kernel

theorem test_witness_PowerOnAndStages :
    (let s : State := { base with pwr := { base.pwr with vinOk := false } };
     s.pwr.vinOk = false ∧ 5600 < (5601 : Nat)) ∧
    (base.pwr.resetLow = false ∧ ({ base with pwr := { base.pwr with resetLow := true } } : State).pwr.resetLow = true) ∧
    (State.reset.pwr.vinOk = true ∧ State.reset.pwr.resetLow = false ∧ State.reset.pwr.stage ≤ 2) ∧
    (∀ n ∈ ([3, 4] : List Nat), ({ base with pwr := { base.pwr with stage := n } } : State).pwr.stage = n) ∧
    (frozen base = false ∧ getF base .pwr Pwr.CLK_PLLLOCK = 1) ∧
    (let s : State := put [(.pwr, Pwr.CLK_PLLLOCK, 0)] { base with pwr := { base.pwr with stage := 3 } };
     frozen s = false ∧ s.pwr.pllDead = false ∧ s.pwr.stage = 3) ∧
    (let s : State := { asleep with pwr := { asleep.pwr with phase := 1 } };
     frozen s = false ∧ s.pwr.pllDead = false ∧ dormant s = true ∧ s.pwr.phase = 1) ∧
    bootNewest base = none ∧
    (let b : List Byte := wordBytes 0x424F4F54 ++ wordBytes 7 ++ wordBytes 0x14 ++ List.replicate 48 0;
     bootNewest (setFlashBytes 0x8000 (b ++ wordBytes (crc32 b)) base) = some 0x8000) := by
  refine ⟨?_, ?_, ?_, ?_, ?_, ?_, ?_, ?_, ?_⟩ <;> decide +kernel

/-- A stage of bring-up. -/
def inStage (n : Nat) (s : State) : State := { s with pwr := { s.pwr with stage := n } }

theorem test_witness_BringUpToService :
    (inStage 5 base).pwr.stage = 5 ∧
    (∀ a ∈ ([0, 4, 5] : List Nat), ∀ n ∈ ([6, 7] : List Nat), let s := slotsIn a 0 (inStage n base);
     awake s = true ∧ s.pwr.romOnly = false ∧ regionReset s .system = false ∧ getF s .mb Mb.KS_STATE_FWRUN = 0 ∧
     s.pwr.stage = n ∧ activeSlot s = (if a = 0 then none else some 0) ∧ slotState s 0 = a) ∧
    (∀ h ∈ [true, false], ∀ t ∈ ([0, 1] : List Nat),
     let s : State := put [(.mb, Mb.KS_STATE_TRIAL, t), (.le 0, Hdr.OWNER (.le 0), 9)] { base with pwr := { base.pwr with hold := h } };
     getF s .mb Mb.KS_STATE_TRIAL = t ∧ s.pwr.hold = h ∧ owner s (.le 0) = 9) ∧
    (imgRepeat (slotsIn 5 0 (inStage 6 base)) 0 ≠ none ∧ imgRepeat (slotsIn 4 0 (inStage 6 base)) 0 ≠ none) ∧
    (let s := slotsIn 5 0 (inStage 7 fwOn);
     s.pwr.stage = 7 ∧ fwRun s = true ∧ s.pwr.hold = false ∧ s.pwr.romOnly = false ∧ activeSlot s = some 0 ∧
     getF s .mb Mb.KS_STATE_TRIAL = 0 ∧ getF (put [(.mb, Mb.KS_STATE_TRIAL, 1)] s) .mb Mb.KS_STATE_TRIAL = 1) := by
  refine ⟨?_, ?_, ?_, ?_, ?_⟩ <;> decide +kernel

theorem test_witness_ModeTransitions :
    (∀ m ∈ ([0, 1, 2, 3] : List Nat), let s := put [(.pwr, Pwr.MODE_PEND, 1), (.pwr, Pwr.MODE_TARGET, m)] base;
     awake s = true ∧ getF s .pwr Pwr.MODE_PEND = 1 ∧ getF s .pwr Pwr.MODE_TARGET = m ∧ s.hp.mbMode = none ∧ mode s ≤ 2 ∧ s.pwr.hold = false ∧
     modeDue s m = true ∧
     (let t : State := { s with hp := { s.hp with mbMode := some 7 } }; awake t = true ∧ t.hp.mbMode = some 7 ∧ modeDue t m = true) ∧
     (let t : State := { s with time := { s.time with now := 7 } }; awake t = true ∧ modeDue t m = false)) ∧
    (∀ h ∈ [true, false], let s : State := put [(.pwr, Pwr.MODE_PEND, 1), (.pwr, Pwr.MODE_MODE, 3)] { base with pwr := { base.pwr with hold := h } };
     awake s = true ∧ getF s .pwr Pwr.MODE_PEND = 1 ∧ s.pwr.hold = h ∧ getF s .pwr Pwr.MODE_TARGET ≠ 4) ∧
    (let s := put [(.pwr, Pwr.MODE_PEND, 1), (.pwr, Pwr.MODE_TARGET, 4)] later;
     awake s = true ∧ getF s .pwr Pwr.MODE_TARGET = 4 ∧ 2000000 ≤ sinceNs s s.pwr.pendAt) ∧
    (dormant asleep = true ∧ ({ asleep with pwr := { asleep.pwr with waking := true } } : State).pwr.waking = true ∧
      dormant { asleep with pwr := { asleep.pwr with waking := true } } = true) := by
  refine ⟨?_, ?_, ?_, ?_⟩ <;> decide +kernel

theorem test_witness_ErrorsAndSafeState :
    (target 0x20000010 = .reg (.lp 0) 0x10 ∧ blkRegion (.lp 0) = .control ∧ clocked (raiseAlarm 0x0110 (regionBase .control) 2 false
      (raiseF .ec (Ec.RERR_BUSERR (regionNum .control)) base)) .control = true) ∧
    (∀ r ∈ [Region.acquisition, .control, .port, .system], clocked base r = true ∧ regionReset base r = false ∧
      (let s := put [(.ec, Ec.RERR_RSTBUSY (regionNum r), 1)] base;
       awake s = true ∧ regionReset s r = true ∧ ∀ p ∈ s.ec.isoPend, blkRegion p.1 ≠ r)) ∧
    (∀ k ∈ ([0, 0xFA7A] : List Nat), ∀ f ∈ ([0, 1] : List Nat), let w := wordOf (2 ^ Ec.CMD_FORCEFATAL.lo + k * 2 ^ Ec.CMD_KEY.lo);
     let s := put [(.ec, Ec.STATE_FATAL, f)] base;
     Accepts .host .ec 0x10 w s ∧ fieldOf w Ec.CMD_FORCEFATAL = 1 ∧ fieldOf w Ec.CMD_RRESET = 0 ∧ fieldOf w Ec.CMD_KEY = k ∧
     getF s .ec Ec.STATE_FATAL = f) ∧
    chipSafe base = false ∧
    (∀ r ∈ [Region.acquisition, .control, .port, .system], let w := fw Ec.CMD_RRESET (2 ^ regionNum r);
     Accepts .host .ec 0x10 w base ∧ fieldOf w Ec.CMD_FORCEFATAL = 0 ∧ fieldOf w Ec.CMD_RRESET = 2 ^ regionNum r ∧
     Accepts .host .ec 0x10 w (put [(.ec, Ec.RERR_RSTBUSY (regionNum r), 1)] base)) ∧
    (let x : BusAccess := { ag := .le 3, addr := 0x20000010, read := true };
     let u := raiseAlarm 0x0110 (regionBase .control) 2 false (raiseF .ec (Ec.RERR_BUSERR (regionNum .control)) base);
     addrRegion x.addr.toNat = .control ∧ clocked u .control = true ∧ accessBlk u x.addr.toNat = some (.lp 0, 0x10) ∧
     addrRegion x.addr.toNat ≠ .system ∧
     accessBlk u 0x2001FFFC = none ∧ addrRegion 0x2001FFFC = .control) ∧
    (let s := put [(.ec, Ec.STATE_FATAL, 1)] base; getF s .ec Ec.STATE_FATAL = 1 ∧ s.fresh.contains fatalKey = false ∧
      clocked s .system = true) ∧
    (∀ p ∈ ([(.exg 0, Exg.AMP, .port), (.lp 0, Lp.U, .control), (.rc 0, Rc.TRK_K1, .acquisition)] : List (Blk × Fld × Region)),
     p.2.1.lo < 32 ∧ addrBlk (blkBase p.1 + p.2.1.off) = some (p.1, p.2.1.off) ∧ resetKeeps p.1 = false ∧
     keyKept (fkey p.1 p.2.1) = false ∧ addrRegion (blkBase p.1 + p.2.1.off) = p.2.2) ∧
    (base.ec.safePin = false ∧ base.pwr.good = true ∧ clocked base .system = true ∧ clocked asleep .system = false) ∧
    (let s : State := { base with ec := { base.ec with safePin := true, safeLow := true } };
     s.pwr.good = true ∧ s.ec.safePin = true ∧ getF s .ec Ec.STATE_FATAL = 0) ∧
    (∀ p ∈ ([(false, true, false), (true, true, false), (false, false, true), (false, true, true), (false, false, false)] : List (Bool × Bool × Bool)),
     let s : State := { base with ec := { base.ec with safeDue := p.1, safePin := p.2.1, safeTold := p.2.2 } };
     s.ec.safeDue = p.1 ∧ s.ec.safePin = p.2.1 ∧ s.ec.safeTold = p.2.2) ∧
    (let s := put [(.pt 63, Pt.CFG_MODE, 1)] base;
     live s (.pt 63) = true ∧ cellDrive base 0 = none) := by
  refine ⟨?_, ?_, ?_, ?_, ?_, ?_, ?_, ?_, ?_, ?_, ?_, ?_⟩ <;> decide +kernel

theorem test_witness_FreezeDebugAndCounters :
    (∀ r ∈ ([0, 1] : List Nat), let s := put [(.mb, Mb.KS_DBG_FREEZE, r)] base;
     s.ec.freezeLow = false ∧ 4 ≤ s.pwr.stage ∧ frozen s = false ∧ dormant s = false ∧ getF s .mb Mb.KS_DBG_FREEZE = r ∧
     Accepts .host .ec 0x84 (fw Ec.FRZCMD_GO 1) s ∧ fieldOf (fw Ec.FRZCMD_GO 1) Ec.FRZCMD_GO = 1) ∧
    (∀ sw ∈ [true, false], let s : State := { base with ec := { base.ec with frzPin := true, frzSw := sw } };
     s.ec.frzPin = true ∧ s.ec.frzSw = sw) ∧
    (let s : State := { base with aon := 33, ec := { base.ec with frzSw := true, frzTimeout := 1 } };
     s.ec.frzSw = true ∧ s.ec.frzTimeout ≠ 0 ∧ s.ec.frzTimeout ≤ (s.aon - s.ec.frzAt) * 1000 / 32768) ∧
    (let s : State := { put [(.mb, Mb.KS_DBG_DAP, 1)] base with ec := { base.ec with frzPin := true } };
     frozen s = true ∧ getF s .mb Mb.KS_DBG_DAP = 1 ∧ target (0x0FFFFFFC : Word).toNat = .unmapped ∧
     target (0x28000000 : Word).toNat = .pool 0 ∧ eccBad s 0x28000000 = false ∧ frozen base = false ∧
     eccBad { s with ecc := [(0x28000000, true)] } 0x28000000 = true) ∧
    (∀ p ∈ [(0, true), (4, false)], let s := put [(.evc, Evc.EVCN_CFG_EN 31, 1), (.evc, Evc.EVCN_CFG_KIND 31, 1), (.evc, Evc.EVCN_CFG_CODE 31, p.1)] base;
     live s .evc = true ∧ flag s .evc (Evc.EVCN_CFG_EN (31 : Fin 32)) = true ∧ evcOccurs s 31 = p.2) ∧
    (∀ p ∈ [(Evc.CMD_SNAPALL, Evc.CMD_CLRALL), (Evc.CMD_CLRALL, Evc.CMD_SNAPALL)], let w := fw p.1 1;
     Accepts .keeper .evc 8 w base ∧ fieldOf w p.1 = 1 ∧ fieldOf w p.2 = 0) ∧
    (let w := fw (Evc.EVCN_CFG_CLR 31) 1;
     Accepts .keeper .evc (0x100 + 0x20 * 31) w base ∧ fieldOf w (Evc.EVCN_CFG_CLR (31 : Fin 32)) = 1) ∧
    (∀ ir ∈ ([0, 4, 5, 31] : List Nat), ∀ low ∈ [true, false],
     let s : State := { base with ec := { base.ec with jtagIr := BitVec.ofNat 5 ir }, pwr := { base.pwr with resetLow := low } };
     s.ec.jtagIr = BitVec.ofNat 5 ir ∧ s.pwr.resetLow = low ∧ Ball.inputOnly (.ptP 0) = false) ∧
    (0x03#5 ∉ [0x00#5, 0x01#5, 0x02#5, 0x04#5, 0x05#5, 0x18#5, 0x19#5, 0x1A#5]) := by
  refine ⟨?_, ?_, ?_, ?_, ?_, ?_, ?_, ?_, ?_⟩ <;> decide +kernel

end Sys2Proof.Tests
end

section
/-!
SUPPORT. A bit that hardware sets, and a field set under a condition: the field itself, the other fields
and the rest of the state.
-/

namespace Sys2Proof.Machine

/-- Hardware sets a bit: the register file and the marks of the cycle change, nothing else. -/
theorem raiseF_frame (b : Blk) (f : Fld) (s : State) :
    raiseF b f s = { s with regs := (raiseF b f s).regs, fresh := (raiseF b f s).fresh } := by
  by_cases h : (setF b f 1 s).fresh.contains (fkey b f) = true
  · simp only [raiseF, if_pos h]; rfl
  · simp only [raiseF, if_neg h]; rfl

theorem raiseIf_frame (c : Bool) (b : Blk) (f : Fld) (s : State) :
    raiseIf c b f s = { s with regs := (raiseIf c b f s).regs, fresh := (raiseIf c b f s).fresh } := by
  cases c with
  | false => rfl
  | true => exact raiseF_frame b f s

theorem getF_raiseIf_self (c : Bool) (b : Blk) (f : Fld) (s : State) :
    getF (raiseIf c b f s) b f = if c then 1 % 2 ^ f.width else getF s b f := by
  cases c with
  | false => rfl
  | true => exact getF_raiseF_self b f s

theorem getF_raiseIf_other (c : Bool) {b : Blk} {f g : Fld} (hf : f.lo < 32) (hg : g.lo < 32)
    (h : g.off ≠ f.off ∨ g.lo ≠ f.lo) (s : State) : getF (raiseIf c b f s) b g = getF s b g := by
  cases c with
  | false => rfl
  | true => exact getF_raiseF_other hf hg h s

theorem whenOk_setF_rest (c : Bool) (b : Blk) (f : Fld) (v : Nat) (s : State) :
    (whenOk c (setF b f v) s).time = s.time ∧ (whenOk c (setF b f v) s).elapsed = s.elapsed ∧
    (whenOk c (setF b f v) s).cycle = s.cycle := by
  cases c <;> exact ⟨rfl, rfl, rfl⟩

theorem getF_whenOk_setF_self (c : Bool) (b : Blk) (f : Fld) (v : Nat) (s : State) :
    getF (whenOk c (setF b f v) s) b f = if c then v % 2 ^ f.width else getF s b f := by
  cases c with
  | false => rfl
  | true => exact getF_setF_self ..

theorem getF_whenOk_setF_other (c : Bool) {b : Blk} {f g : Fld} (hf : f.lo < 32) (hg : g.lo < 32)
    (h : g.off ≠ f.off ∨ g.lo ≠ f.lo) (v : Nat) (s : State) : getF (whenOk c (setF b f v) s) b g = getF s b g := by
  cases c with
  | false => rfl
  | true => exact getF_setF_other hf hg h ..

theorem RegsBut.whenOk_setF {c : Bool} {b : Blk} {f : Fld} {v : Nat} {l : List (Blk × Fld)} {s t : State}
    (h : RegsBut l s t) (m : (b, f) ∈ l) : RegsBut l s (whenOk c (Machine.setF b f v) t) := by
  cases c with
  | false => exact h
  | true => exact h.setF m

theorem clampN_of_mem {lo hi v : Nat} (h1 : lo ≤ v) (h2 : v ≤ hi) : clampN lo hi v = v := by
  unfold clampN; rw [if_neg (by omega), if_neg (by omega)]

theorem clampN_of_lt {lo hi v : Nat} (h : v < lo) : clampN lo hi v = lo := if_pos h

theorem clampN_of_gt {lo hi v : Nat} (hl : lo ≤ hi) (h : hi < v) : clampN lo hi v = hi := by
  unfold clampN; rw [if_neg (by omega), if_pos h]

end Sys2Proof.Machine
end

section
/-!
SUPPORT. The write of INCR (R36), with the theorem that settles O7.
-/

namespace Sys2Proof.Machine

/-- A 32-bit value is its bits [31:28] and [27:0], the two fields of INCR (R36). -/
theorem bits_incr {c : Nat} (h : c < 2 ^ 32) : bits c 31 28 % 2 ^ 4 * 2 ^ 28 + bits c 27 0 % 2 ^ 28 = c := by
  unfold bits; omega

/-- INCR after a write. -/
theorem incr_incrStore {v : Nat} (h : v < 2 ^ 32) (s : State) :
    incr (incrStore v s) = clampN 0x4FEB851F 0x50147AE1 v := by
  have hc : clampN 0x4FEB851F 0x50147AE1 v < 2 ^ 32 := by unfold clampN; split_ifs <;> omega
  have hi : (Time.INCR_INT).width = 4 := rfl
  have hf : (Time.INCR_FRAC).width = 28 := rfl
  unfold incr incrStore
  simp (disch := decide) only [getF_raiseIf_other, getF_setF_other, getF_setF_self, hi, hf]
  exact bits_incr hc

theorem getF_iclamp_incrStore (v : Nat) (s : State) :
    getF (incrStore v s) .time Time.STATUS_ICLAMP =
      if clampN 0x4FEB851F 0x50147AE1 v = v then getF s .time Time.STATUS_ICLAMP else 1 := by
  have hw : (Time.STATUS_ICLAMP).width = 1 := rfl
  unfold incrStore
  simp (disch := decide) only [getF_raiseIf_self, getF_setF_other, hw, bne_iff_ne, ite_not]
  rfl

theorem regsBut_incrStore (v : Nat) (s : State) :
    RegsBut [(.time, Time.INCR_INT), (.time, Time.INCR_FRAC), (.time, Time.STATUS_ICLAMP)] s (incrStore v s) :=
  (((RegsBut.refl _ s).setF (by simp)).setF (by simp)).raiseIf (by simp)

theorem incrStore_frame (v : Nat) (s : State) :
    incrStore v s = { s with regs := (incrStore v s).regs, fresh := (incrStore v s).fresh } :=
  raiseIf_frame ..

/-- Settles O7: an accepted write stores the clamped value, and ICLAMP is raised where clamping changed it. -/
theorem incrIsClamped : Obligations.IncrIsClamped := by
  unfold Obligations.IncrIsClamped
  intro ag w s hacc
  have hstore : exec (.incrWrite ag w) s = .next (incrStore w.toNat s) :=
    congrArg Host.Outcome.next (judgedWrite_accepts hacc (by decide))
  refine ⟨_, hstore, incrStore_frame .., regsBut_incrStore w.toNat s, ?_, ?_, ?_⟩ <;>
    rw [incr_incrStore w.isLt, getF_iclamp_incrStore]
  · intro h1 h2
    rw [clampN_of_mem h1 h2]
    exact ⟨rfl, if_pos rfl⟩
  · intro h
    rw [clampN_of_lt h]
    exact ⟨rfl, if_neg (by omega)⟩
  · intro h
    rw [clampN_of_gt (by decide) h]
    exact ⟨rfl, if_neg (by omega)⟩

end Sys2Proof.Machine
end

section
/-!
SUPPORT. A tick of the time unit on which no step is applied (R34, R35, R38, R42, R49), with the theorem that settles O8: the tick
is the increment added, then the end of a slew, then an adjustment of total offset 0.
-/

namespace Sys2Proof.Machine

/-! ### The completion of an adjustment -/

/-- The completion of an adjustment leaves what network time, the increment and the other adjustments stand at. -/
@[simp] theorem adjDone_time_rest (k : Bool) (s : State) :
    (adjDone k s).time.now = s.time.now ∧ (adjDone k s).time.frac = s.time.frac ∧
    (adjDone k s).time.slewRem = s.time.slewRem ∧ (adjDone k s).time.zeroPend = s.time.zeroPend ∧
    (adjDone k s).time.stepPend = s.time.stepPend := by
  cases k <;> exact ⟨rfl, rfl, rfl, rfl, rfl⟩

@[simp] theorem adjDone_clocks (k : Bool) (s : State) :
    (adjDone k s).elapsed = s.elapsed ∧ (adjDone k s).cycle = s.cycle := by
  cases k <;> exact ⟨rfl, rfl⟩

/-- What the Keeper has written is forgotten where the completion clears DISC (R49). -/
@[simp] theorem adjDone_marks (k : Bool) (s : State) :
    (adjDone k s).time.kAdj = (!k && s.time.kAdj) ∧ (adjDone k s).time.kStep = (!k && s.time.kStep) ∧
    (adjDone k s).time.kZero = (!k && s.time.kZero) := by
  cases k <;> exact ⟨rfl, rfl, rfl⟩

theorem getF_adjDone_disc (k : Bool) (s : State) :
    getF (adjDone k s) .time Time.STATUS_DISC = if k then 0 else getF s .time Time.STATUS_DISC := by
  cases k with
  | false => rfl
  | true => exact getF_setF_self ..

theorem getF_adjDone_other (k : Bool) {f : Fld} (hf : f.lo < 32)
    (h : f.off ≠ Time.STATUS_DISC.off ∨ f.lo ≠ Time.STATUS_DISC.lo) (s : State) :
    getF (adjDone k s) .time f = getF s .time f := by
  cases k with
  | false => rfl
  | true => exact getF_setF_other (by decide) hf h ..

theorem RegsBut.adjDone {k : Bool} {l : List (Blk × Fld)} {s t : State} (h : RegsBut l s t)
    (m : (.time, Time.STATUS_DISC) ∈ l) : RegsBut l s (adjDone k t) := by
  cases k with
  | false => exact h
  | true => exact RegsBut.setF (h.of_regs rfl) m

/-! ### The effective increment (R35, R38) -/

theorem roundEven_nonneg {a : Int} {b : Nat} (ha : 0 ≤ a) : 0 ≤ roundEven a b := by
  have hq : 0 ≤ a / (b : Int) := Int.ediv_nonneg ha (Int.natCast_nonneg b)
  unfold roundEven
  simp only
  split_ifs <;> omega

/-- A product with less than half a million, divided by a million and rounded, is no more than the other factor. -/
theorem roundEven_mul_le (n r : Nat) (hr : 2 * r < 1000000) : roundEven ((n * r : Nat) : Int) 1000000 ≤ n := by
  have h : 2 * (n * r) ≤ n * 999999 := by
    calc 2 * (n * r) = n * (2 * r) := by ring
      _ ≤ n * 999999 := Nat.mul_le_mul_left n (by omega)
  unfold roundEven
  generalize n * r = a at h
  simp only
  split_ifs <;> omega

theorem slewD_nonneg (s : State) : 0 ≤ slewD s := roundEven_nonneg (Int.natCast_nonneg _)

/-- The difference of a slew is no more than the increment: SLEW_RATE is below 2^10 ppm. -/
theorem slewD_le_incr (s : State) : slewD s ≤ incr s := by
  have hr : getF s .time Time.SLEW_RATE < 2 ^ 10 := getF_lt s .time Time.SLEW_RATE
  exact roundEven_mul_le _ _ (by omega)

theorem nextIncr_idle {s : State} (h : s.time.slewRem = 0) : nextIncr s = ((incr s : Int), 0) := if_pos h

theorem nextIncr_ends {s : State} (h0 : s.time.slewRem ≠ 0) (h : (s.time.slewRem.natAbs : Int) ≤ slewD s) :
    nextIncr s = (incr s + s.time.slewRem, 0) := by
  unfold nextIncr; simp only; rw [if_neg h0, if_pos h]

theorem nextIncr_forward {s : State} (h0 : 0 < s.time.slewRem) (h : slewD s < s.time.slewRem) :
    nextIncr s = (incr s + slewD s, s.time.slewRem - slewD s) := by
  unfold nextIncr; simp only; rw [if_neg (by omega), if_neg (by omega), if_pos h0]

theorem nextIncr_backward {s : State} (h0 : s.time.slewRem < 0) (h : slewD s < -s.time.slewRem) :
    nextIncr s = (incr s - slewD s, s.time.slewRem + slewD s) := by
  unfold nextIncr; simp only; rw [if_neg (by omega), if_neg (by omega), if_neg (by omega)]

/-! ### A tick on which no step is applied -/

/-- The time unit after a tick that stands at network time `now` and `frac`, has added `inc` and leaves `rem` of a slew. -/
def TimeSt.ticked (now frac inc : Nat) (rem : Int) (t : TimeSt) : TimeSt :=
  { t with now := now, frac := frac, inc := inc, slewRem := rem, zeroPend := false }

@[simp] theorem TimeSt.ticked_fields (now frac inc : Nat) (rem : Int) (t : TimeSt) :
    (t.ticked now frac inc rem).now = now ∧ (t.ticked now frac inc rem).frac = frac ∧
    (t.ticked now frac inc rem).slewRem = rem ∧ (t.ticked now frac inc rem).zeroPend = false ∧
    (t.ticked now frac inc rem).stepPend = t.stepPend ∧ (t.ticked now frac inc rem).kAdj = t.kAdj ∧
    (t.ticked now frac inc rem).kStep = t.kStep ∧ (t.ticked now frac inc rem).kZero = t.kZero :=
  ⟨rfl, rfl, rfl, rfl, rfl, rfl, rfl, rfl⟩

/-- A tick of `inc` that brings network time to `now` and `frac` and leaves `rem` of a slew. -/
def ticked (now frac inc : Nat) (rem : Int) (s : State) : State :=
  modTime (TimeSt.ticked now frac inc rem) { s with elapsed := s.elapsed + inc, cycle := s.cycle + 1 }

@[simp] theorem ticked_parts (now frac inc : Nat) (rem : Int) (s : State) :
    (ticked now frac inc rem s).time = s.time.ticked now frac inc rem ∧
    (ticked now frac inc rem s).elapsed = s.elapsed + inc ∧ (ticked now frac inc rem s).cycle = s.cycle + 1 ∧
    (ticked now frac inc rem s).regs = s.regs :=
  ⟨rfl, rfl, rfl, rfl⟩

/-- Network time in units of 2^-28 ns with the next increment added, before it wraps. -/
def unitsNext (s : State) : Nat := s.time.now * 2 ^ 28 + s.time.frac + (nextIncr s).1.toNat

/-- The tick before any adjustment completes: the increment is added to network time and to elapsed time, and WRAP shows a
carry. -/
def tickAdded (s : State) : State :=
  raiseIf (unitsNext s / 2 ^ 60 != timeUnits s / 2 ^ 60) .time Time.STATUS_WRAP
    (ticked (unitsNext s / 2 ^ 28 % timeMod) (unitsNext s % 2 ^ 28) (nextIncr s).1.toNat (nextIncr s).2 s)

/-- The next tick ends the slew. -/
def slewEnds (s : State) : Bool := s.time.slewRem != 0 && (nextIncr s).2 == 0

/-- The tick with the end of its slew, before an adjustment of total offset 0 completes. -/
def tickSlewed (s : State) : State :=
  if slewEnds s then adjDone (tickAdded s).time.kAdj (setF .time Time.STATUS_SLEWING 0 (tickAdded s)) else tickAdded s

/-- The tick with every adjustment that it completes. -/
def tickAdjusted (s : State) : State :=
  if s.time.zeroPend then adjDone (tickSlewed s).time.kZero (tickSlewed s) else tickSlewed s

theorem tickAdded_time (s : State) :
    (tickAdded s).time = s.time.ticked (unitsNext s / 2 ^ 28 % timeMod) (unitsNext s % 2 ^ 28) (nextIncr s).1.toNat
      (nextIncr s).2 := by
  simp only [tickAdded, raiseIf_rest, ticked_parts]

/-- Where the completion of an adjustment depends on a condition, the condition joins that of R49. -/
theorem ite_adjDone (c k : Bool) (s : State) : (if c then adjDone k s else s) = adjDone (c && k) s := by
  cases c <;> rfl

theorem ite_adjDone_setF (c k : Bool) (b : Blk) (f : Fld) (v : Nat) (s : State) :
    (if c then adjDone k (setF b f v s) else s) = adjDone (c && k) (whenOk c (setF b f v) s) := by
  cases c <;> rfl

/-- The tick clears DISC at the end of the slew (R49). -/
def slewClears (s : State) : Bool := slewEnds s && s.time.kAdj

/-- The tick clears DISC at the completion of an adjustment of total offset 0 (R49). -/
def zeroClears (s : State) : Bool := s.time.zeroPend && (!slewClears s && s.time.kZero)

/-- The end of a slew: SLEWING clears, and DISC under R49. -/
theorem tickSlewed_eq (s : State) :
    tickSlewed s = adjDone (slewClears s) (whenOk (slewEnds s) (setF .time Time.STATUS_SLEWING 0) (tickAdded s)) := by
  have hk : (tickAdded s).time.kAdj = s.time.kAdj := by simp only [tickAdded_time, TimeSt.ticked_fields]
  unfold tickSlewed slewClears
  rw [hk, ite_adjDone_setF]

theorem tickSlewed_kZero (s : State) : (tickSlewed s).time.kZero = (!slewClears s && s.time.kZero) := by
  simp only [tickSlewed_eq, adjDone_marks, whenOk_setF_rest, tickAdded_time, TimeSt.ticked_fields]

theorem tickAdjusted_eq (s : State) :
    tickAdjusted s = adjDone (zeroClears s)
      (adjDone (slewClears s) (whenOk (slewEnds s) (setF .time Time.STATUS_SLEWING 0) (tickAdded s))) := by
  unfold tickAdjusted zeroClears
  rw [ite_adjDone, tickSlewed_kZero, tickSlewed_eq]

theorem tickAdjusted_stepPend (s : State) : (tickAdjusted s).time.stepPend = s.time.stepPend := by
  simp only [tickAdjusted_eq, adjDone_time_rest, whenOk_setF_rest, tickAdded_time, TimeSt.ticked_fields]

/-- With no step to apply, a tick is the increment and the adjustments that it completes. -/
theorem timeTick_eq {s : State} (h : s.time.stepPend = none) : timeTick s = tickAdjusted s := by
  have hp := tickAdjusted_stepPend s
  rw [h] at hp
  unfold timeTick
  simp only
  split
  next d hd => exact absurd (hp.symm.trans hd) (by simp)
  next => rfl

/-! ### What a tick changes -/

/-- The parts of the state that a tick of the time unit alone may change. -/
def TickFrame (s t : State) : Prop :=
  t = { s with regs := t.regs, fresh := t.fresh, time := t.time, elapsed := t.elapsed, cycle := t.cycle }

theorem TickFrame.trans {s t u : State} (h1 : TickFrame s t) (h2 : TickFrame t u) : TickFrame s u :=
  Eq.trans h2 (congrArg
    (fun x : State => { x with regs := u.regs, fresh := u.fresh, time := u.time, elapsed := u.elapsed, cycle := u.cycle }) h1)

theorem tickFrame_ticked (now frac inc : Nat) (rem : Int) (s : State) : TickFrame s (ticked now frac inc rem s) := rfl

theorem tickFrame_raiseIf (c : Bool) (b : Blk) (f : Fld) (s : State) : TickFrame s (raiseIf c b f s) := by
  cases c with
  | false => rfl
  | true =>
    unfold TickFrame Machine.raiseIf
    simp only [if_true, raiseF_rest]
    exact raiseF_frame b f s

theorem tickFrame_whenOk_setF (c : Bool) (b : Blk) (f : Fld) (v : Nat) (s : State) :
    TickFrame s (whenOk c (setF b f v) s) := by
  cases c <;> rfl

theorem tickFrame_adjDone (k : Bool) (s : State) : TickFrame s (adjDone k s) := by
  cases k <;> rfl

theorem tickFrame_tickAdjusted (s : State) : TickFrame s (tickAdjusted s) := by
  rw [tickAdjusted_eq]
  exact (tickFrame_ticked ..).trans <| (tickFrame_raiseIf ..).trans <| (tickFrame_whenOk_setF ..).trans <|
    (tickFrame_adjDone ..).trans (tickFrame_adjDone ..)

theorem regsBut_tickAdjusted (s : State) :
    RegsBut [(.time, Time.STATUS_WRAP), (.time, Time.STATUS_SLEWING), (.time, Time.STATUS_DISC)] s (tickAdjusted s) := by
  rw [tickAdjusted_eq]
  have h : RegsBut [(.time, Time.STATUS_WRAP), (.time, Time.STATUS_SLEWING), (.time, Time.STATUS_DISC)] s (tickAdded s) :=
    ((RegsBut.refl _ s).of_regs (ticked_parts ..).2.2.2).raiseIf (by simp)
  exact ((h.whenOk_setF (by simp)).adjDone (by simp)).adjDone (by simp)

/-- The clocks, network time and the slew after a tick. -/
theorem tickAdjusted_clocks (s : State) :
    (tickAdjusted s).elapsed = s.elapsed + (nextIncr s).1.toNat ∧ (tickAdjusted s).cycle = s.cycle + 1 ∧
    (tickAdjusted s).time.now = unitsNext s / 2 ^ 28 % timeMod ∧ (tickAdjusted s).time.frac = unitsNext s % 2 ^ 28 ∧
    (tickAdjusted s).time.slewRem = (nextIncr s).2 ∧ (tickAdjusted s).time.zeroPend = false := by
  simp only [tickAdjusted_eq, adjDone_time_rest, adjDone_clocks, whenOk_setF_rest, tickAdded_time, TimeSt.ticked_fields]
  simp only [tickAdded, raiseIf_rest, ticked_parts, and_self]

theorem getF_wrap_tickAdjusted (s : State) :
    getF (tickAdjusted s) .time Time.STATUS_WRAP =
      if unitsNext s / 2 ^ 60 != timeUnits s / 2 ^ 60 then 1 else getF s .time Time.STATUS_WRAP := by
  have hw : 1 % 2 ^ (Time.STATUS_WRAP).width = 1 := rfl
  rw [tickAdjusted_eq]
  simp (disch := decide) only [getF_adjDone_other, getF_whenOk_setF_other, tickAdded, getF_raiseIf_self, hw]
  rw [getF_congr (ticked_parts ..).2.2.2]

theorem getF_slewing_tickAdjusted {s : State} (h : slewEnds s = true) :
    getF (tickAdjusted s) .time Time.STATUS_SLEWING = 0 := by
  rw [tickAdjusted_eq, h]
  simp (disch := decide) only [getF_adjDone_other, getF_whenOk_setF_self, if_true, Nat.zero_mod]

theorem getF_disc_tickAdjusted (s : State) :
    getF (tickAdjusted s) .time Time.STATUS_DISC =
      if zeroClears s then 0 else if slewClears s then 0 else getF s .time Time.STATUS_DISC := by
  rw [tickAdjusted_eq]
  simp (disch := decide) only [getF_adjDone_disc, getF_whenOk_setF_other, tickAdded, getF_raiseIf_other]
  rw [getF_congr (ticked_parts ..).2.2.2]

/-- The marks of R49 after a tick. -/
theorem tickAdjusted_marks (s : State) :
    (tickAdjusted s).time.kAdj = (!zeroClears s && (!slewClears s && s.time.kAdj)) ∧
    (tickAdjusted s).time.kStep = (!zeroClears s && (!slewClears s && s.time.kStep)) ∧
    (tickAdjusted s).time.kZero = (!zeroClears s && (!slewClears s && s.time.kZero)) := by
  simp only [tickAdjusted_eq, adjDone_marks, whenOk_setF_rest, tickAdded_time, TimeSt.ticked_fields, and_self]

/-- A number cut at `a` and wrapped at `b` above it is the number modulo `b * a`. -/
theorem div_mod_mul_add_mod (n a b : Nat) : n / a % b * a + n % a = n % (b * a) := by
  rw [Nat.mul_comm b a, Nat.mod_mul]; ring

theorem timeUnits_tickAdjusted (s : State) : timeUnits (tickAdjusted s) = unitsNext s % (timeMod * 2 ^ 28) := by
  obtain ⟨-, -, hnow, hfrac, -, -⟩ := tickAdjusted_clocks s
  unfold timeUnits
  rw [hnow, hfrac, div_mod_mul_add_mod]

theorem slewEnds_iff (s : State) : slewEnds s = true ↔ s.time.slewRem ≠ 0 ∧ (nextIncr s).2 = 0 := by
  unfold slewEnds; rw [Bool.and_eq_true, bne_iff_ne, beq_iff_eq]

/-- A tick clears DISC where it completes an adjustment that the Keeper has written since DISC was set (R49). -/
theorem clears_iff (s : State) : (slewClears s || zeroClears s) = true ↔
    (s.time.slewRem ≠ 0 ∧ (nextIncr s).2 = 0 ∧ s.time.kAdj = true) ∨ (s.time.zeroPend = true ∧ s.time.kZero = true) := by
  have h : slewClears s = true ↔ s.time.slewRem ≠ 0 ∧ (nextIncr s).2 = 0 ∧ s.time.kAdj = true := by
    rw [slewClears, Bool.and_eq_true, slewEnds_iff, and_assoc]
  rw [← h, zeroClears]
  cases slewClears s <;> simp

/-- The increment and the remainder of a slew in each case of R38. -/
theorem nextIncr_cases (s : State) :
    (s.time.slewRem = 0 → ((nextIncr s).1.toNat = incr s ∧ (nextIncr s).2 = 0)) ∧
    (0 < s.time.slewRem → slewD s < s.time.slewRem →
      ((nextIncr s).1.toNat : Int) = incr s + slewD s ∧ (nextIncr s).2 = s.time.slewRem - slewD s) ∧
    (s.time.slewRem < 0 → slewD s < -s.time.slewRem →
      ((nextIncr s).1.toNat : Int) = incr s - slewD s ∧ (nextIncr s).2 = s.time.slewRem + slewD s) ∧
    (s.time.slewRem ≠ 0 → (s.time.slewRem.natAbs : Int) ≤ slewD s →
      ((nextIncr s).1.toNat : Int) = incr s + s.time.slewRem ∧ (nextIncr s).2 = 0) := by
  have h0 := slewD_nonneg s
  have h1 := slewD_le_incr s
  refine ⟨fun h => ?_, fun hp h => ?_, fun hn h => ?_, fun hz h => ?_⟩
  · rw [nextIncr_idle h]; exact ⟨Int.toNat_natCast _, rfl⟩
  · rw [nextIncr_forward hp h]; exact ⟨Int.toNat_of_nonneg (by omega), rfl⟩
  · rw [nextIncr_backward hn h]; exact ⟨Int.toNat_of_nonneg (by omega), rfl⟩
  · rw [nextIncr_ends hz h]; exact ⟨Int.toNat_of_nonneg (by omega), rfl⟩

/-- Settles O8: with no step pending a tick is `tickAdjusted`, whose increment is that of R38 and whose flags follow R42
and R49. -/
theorem tickAddsTheEffectiveIncrement : Obligations.TickAddsTheEffectiveIncrement := by
  unfold Obligations.TickAddsTheEffectiveIncrement
  intro s hpend
  obtain ⟨hel, hcyc, -, hfrac, hrem, hzero⟩ := tickAdjusted_clocks s
  obtain ⟨hidle, hfwd, hback, hend⟩ := nextIncr_cases s
  obtain ⟨hkAdj, hkStep, hkZero⟩ := tickAdjusted_marks s
  have hwrap := getF_wrap_tickAdjusted s
  have hdisc := getF_disc_tickAdjusted s
  have hclears := clears_iff s
  simp only [timeTick_eq hpend, hrem, ← hclears]
  refine ⟨tickFrame_tickAdjusted s, timeUnits_tickAdjusted s, ?_, hel, hcyc, trivial, hzero, hidle, ⟨hfwd, hback, hend⟩,
    regsBut_tickAdjusted s, fun h => ?_, fun h => ?_, fun h0 hr => ?_, fun h => ?_, fun h => ?_⟩
  · rw [hfrac]; exact Nat.mod_lt _ (Nat.two_pow_pos _)
  · exact hwrap.trans (if_pos (bne_iff_ne.2 h))
  · exact hwrap.trans (if_neg (fun hb => bne_iff_ne.1 hb h))
  · exact getF_slewing_tickAdjusted ((slewEnds_iff s).2 ⟨h0, hr⟩)
  · rw [hdisc, hkAdj, hkStep, hkZero]
    revert h
    cases slewClears s <;> cases zeroClears s <;> simp
  · rw [hdisc]
    revert h
    cases slewClears s <;> cases zeroClears s <;> simp

end Sys2Proof.Machine
end

section
/-!
SUPPORT. The time unit under an alarm: whatever a raise does to the table, the queues and the incidents, network time stands.
-/

namespace Sys2Proof.Machine

/-! ### An alarm leaves the time unit alone (R341–R349) -/

@[simp] theorem setFlashBytes_time (a : Nat) (l : List Byte) (s : State) : (setFlashBytes a l s).time = s.time := by
  induction l generalizing a s with
  | nil => rfl
  | cons v t ih => exact (ih (a + 1) (setFlash a v s)).trans rfl

@[simp] theorem pathTake_time (kind : Nat) (e : QEntry) (s : State) : (pathTake kind e s).time = s.time := rfl

@[simp] theorem incident_time (kind : Nat) (e : QEntry) (s : State) : (incident kind e s).time = s.time := by
  unfold incident
  simp only
  split
  · split
    · rfl
    · split <;> rfl
  · by_cases ho : (pathTake kind e s).incident.opened = true
    · simp only [ho, if_true]
      split <;> simp
    · simp only [ho, Bool.false_eq_true, if_false]
      split <;> simp

@[simp] theorem countF_time (b : Blk) (f : Fld) (k : Nat) (s : State) : (countF b f k s).time = s.time := by
  unfold countF
  split
  · rfl
  · simp only
    generalize (if s.fresh.contains (clearKey b) = true then 1 else satU f.width (getF s b f + k)) = v
    split <;> rfl

@[simp] theorem dropRec_time (q : Fin 16) (k : Nat) (s : State) : (dropRec q k s).time = s.time := by
  unfold dropRec
  split
  · rfl
  · simp only; split <;> simp

@[simp] theorem recDropped_time (src : Nat) (es : List QEntry) (s : State) : (recDropped src es s).time = s.time := by
  unfold recDropped
  split
  · split <;> simp
  · rfl

@[simp] theorem postRecord_time (q : Fin 16) (src : Nat) (es : List QEntry) (s : State) :
    (postRecord q src es s).time = s.time := by
  unfold postRecord
  simp only
  split <;> simp

@[simp] theorem alarmRecord_time (kind : Nat) (i : Fin 132) (e : AlarmEntry) (s : State) :
    (alarmRecord kind i e s).time = s.time := by
  simp [alarmRecord]

@[simp] theorem endKeep_time (p : Nat × AlarmEntry → Bool) (s : State) : (endKeep p s).time = s.time := by
  unfold endKeep
  split <;> rfl

@[simp] theorem tableEnter_time (code src grade : Nat) (keep : Bool) (s : State) :
    (tableEnter code src grade keep s).time = s.time := by
  unfold tableEnter
  simp only
  split
  · split <;> simp
  · split
    · simp
    · split <;> simp

@[simp] theorem tableRaise_time (code src grade : Nat) (keep : Bool) (s : State) :
    (tableRaise code src grade keep s).time = s.time := by
  unfold tableRaise
  simp only
  split
  · rfl
  · simp [raiseNow]

/-- An alarm below FATAL leaves network time alone. -/
theorem raiseAlarm_time {code src grade : Nat} {keep : Bool} (h : grade ≠ 3) (s : State) :
    (raiseAlarm code src grade keep s).time = s.time := by
  unfold raiseAlarm
  split
  · rfl
  · simp only [tableRaise_time]

end Sys2Proof.Machine
end

section
/-!
SUPPORT. The arming and the disarming of a timed-action slot (R62, R64, R66), with the theorem that settles O14.
-/

namespace Sys2Proof.Machine

/-! ### What the commands of SLOT_CMD do (R62, R64, R66) -/

/-- A write of SLOT_CMD by the slot's owner reaches the slot. -/
theorem slotWrite_cmd {ag : Agent} {n : Fin 64} {w : Word} {s : State} (h : Accepts ag (.slot n) 8 w s) :
    slotWrite ag n 8 w s = slotStore n 8 w s :=
  judgedWrite_accepts h (by decide)

theorem slotStore_disarm {w : Word} (h : fieldOf w Slot.CMD_DISARM = 1) (n : Fin 64) (s : State) :
    slotStore n 8 w s = slotDisarmCmd n s := by
  unfold slotStore
  rw [if_pos rfl, if_pos h]

/-- A slot armed anew, before its target is checked: SLOT_SKIP is cleared, and the slot fires at the next tick at the earliest. -/
def slotArmed (n : Fin 64) (s : State) : State :=
  { setF (.slot n) Slot.SKIP 0 (setF (.slot n) Slot.STATUS_STATE 1 s) with
    slotLate := s.slotLate.set n false, fresh := slotKey n :: s.fresh }

section
variable {w : Word} {n : Fin 64} {s : State} (hd : fieldOf w Slot.CMD_DISARM = 0)
include hd

theorem slotStore_arm_again (h : getF s (.slot n) Slot.STATUS_STATE = 1) : slotStore n 8 w s = s := by
  unfold slotStore
  rw [if_pos rfl, if_neg (by omega), if_neg (fun hc => hc.2 h)]

variable (ha : fieldOf w Slot.CMD_ARM = 1)
include ha

theorem slotStore_arm_refused (h : getF s (.slot n) Slot.STATUS_STATE ≠ 1) (hr : armRefused s n = true) :
    slotStore n 8 w s = slotSignal n (setF (.slot n) Slot.STATUS_STATE 4 s) := by
  unfold slotStore
  rw [if_pos rfl, if_neg (by omega), if_pos ⟨ha, h⟩, if_pos hr]

theorem slotStore_arm_taken (h : getF s (.slot n) Slot.STATUS_STATE ≠ 1) (hr : ¬ armRefused s n = true) :
    slotStore n 8 w s = slotCheck n (slotArmed n s) := by
  unfold slotStore
  rw [if_pos rfl, if_neg (by omega), if_pos ⟨ha, h⟩, if_neg hr]
  rfl

end

/-- The refusals of R62. -/
theorem armRefused_iff (s : State) (n : Fin 64) :
    armRefused s n = true ↔
      6 ≤ getF s (.slot n) Slot.CFG_ACTION ∨
      (1 ≤ getF s (.slot n) Slot.PERIOD ∧ getF s (.slot n) Slot.PERIOD ≤ 319) ∨ 2 ^ 31 ≤ getF s (.slot n) Slot.PERIOD ∨
      (getF s (.slot n) Slot.CFG_ACTION = 2 ∧ ¬ (1 ≤ owner s (.slot n) ∧ owner s (.slot n) ≤ 8)) ∨
      (getF s (.slot n) Slot.CFG_ACTION = 4 ∧ owner s (.slot n) ≠ 0 ∧ owner s (.slot n) ≠ 9) ∨
      (getF s (.slot n) Slot.CFG_ACTION = 5 ∧ owner s (.slot n) ≠ 9) ∨
      (getF s (.slot n) Slot.CFG_ACTION = 1 ∧ target (getF s (.slot n) Slot.ADDR) = .unmapped) := by
  unfold armRefused
  simp only [Bool.or_eq_true, Bool.and_eq_true, Bool.not_eq_true', decide_eq_true_eq, beq_iff_eq, bne_iff_ne,
    Bool.and_eq_false_iff, Bool.or_eq_false_iff, decide_eq_false_iff_not, beq_eq_false_iff_ne, not_and_or, or_assoc]
  cases target (getF s (.slot n) Slot.ADDR) <;> simp

/-! ### A slot armed anew -/

theorem slotArmed_regs (n : Fin 64) (s : State) :
    (slotArmed n s).regs = (setF (.slot n) Slot.SKIP 0 (setF (.slot n) Slot.STATUS_STATE 1 s)).regs := rfl

theorem getF_slotArmed_state (n : Fin 64) (s : State) : getF (slotArmed n s) (.slot n) Slot.STATUS_STATE = 1 := by
  rw [getF_congr (slotArmed_regs n s), getF_setF_other (by decide) (by decide) (by decide), getF_setF_self]
  rfl

theorem getF_slotArmed_skip (n : Fin 64) (s : State) : getF (slotArmed n s) (.slot n) Slot.SKIP = 0 := by
  rw [getF_congr (slotArmed_regs n s), getF_setF_self, Nat.zero_mod]

theorem getF_slotArmed_other {f : Fld} (hf : f.lo < 32) (h1 : f.off ≠ Slot.STATUS_STATE.off ∨ f.lo ≠ Slot.STATUS_STATE.lo)
    (h2 : f.off ≠ Slot.SKIP.off ∨ f.lo ≠ Slot.SKIP.lo) (n : Fin 64) (s : State) :
    getF (slotArmed n s) (.slot n) f = getF s (.slot n) f := by
  rw [getF_congr (slotArmed_regs n s), getF_setF_other (by decide) hf h2, getF_setF_other (by decide) hf h1]

theorem isolated_slotArmed (n : Fin 64) (s : State) : isolated (slotArmed n s) (.slot n) = isolated s (.slot n) := by
  unfold isolated flag
  rw [getF_slotArmed_other (by decide) (by decide) (by decide)]

theorem timeNs_slotArmed (n : Fin 64) (s : State) : timeNs (slotArmed n s) = timeNs s := rfl

theorem passed_slotArmed (n : Fin 64) (s : State) (t : Nat) : passed (slotArmed n s) t = passed s t := rfl

theorem regsBut_slotArmed (n : Fin 64) (s : State) :
    RegsBut [(.slot n, Slot.STATUS_STATE), (.slot n, Slot.SKIP)] s (slotArmed n s) := by
  have h : RegsBut [(.slot n, Slot.STATUS_STATE), (.slot n, Slot.SKIP)] s
      (setF (.slot n) Slot.SKIP 0 (setF (.slot n) Slot.STATUS_STATE 1 s)) :=
    ((RegsBut.refl _ s).setF (by simp)).setF (by simp)
  exact h.of_regs (slotArmed_regs n s)

/-! ### The check of R64 -/

/-- A STRICT one-shot slot that has missed its instant, before the notice. -/
def slotMissed (n : Fin 64) (s : State) : State := raiseF (.slot n) Slot.STATUS_MISS (setF (.slot n) Slot.STATUS_STATE 3 s)

/-- A repeating slot moved `k` periods on, before any notice: a STRICT one has missed the instants between. -/
def slotSkipped (n : Fin 64) (k : Nat) (s : State) : State :=
  let u := setF (.slot n) Slot.TARGET (getF s (.slot n) Slot.TARGET + k * getF s (.slot n) Slot.PERIOD) s
  raiseIf (flag s (.slot n) Slot.CFG_STRICT) (.slot n) Slot.STATUS_MISS
    (raiseF (.slot n) Slot.STATUS_SKIP (setF (.slot n) Slot.SKIP (satU 32 (getF u (.slot n) Slot.SKIP + k)) u))

/-- The notice 0x0204 of a missed instant (R57, R64). -/
def slotNotice (n : Fin 64) (s : State) : State := raiseAlarm 0x0204 (blkBase (.slot n)) 0 false s

theorem whenOk_slotNotice (c : Bool) (n : Fin 64) (s : State) :
    whenOk c (slotNotice n) (raiseIf c (.slot n) Slot.STATUS_MISS s) = if c then slotMiss n s else s := by
  cases c with
  | false => simp only [whenOk, raiseIf, Bool.false_eq_true, if_false]
  | true => simp only [whenOk, raiseIf, slotNotice, slotMiss, if_true]

theorem timeNs_slotNotice (n : Fin 64) (s : State) : timeNs (slotNotice n s) = timeNs s := by
  unfold timeNs slotNotice
  rw [raiseAlarm_time (by decide)]

theorem timeNs_slotMissed (n : Fin 64) (s : State) : timeNs (slotMissed n s) = timeNs s := by
  unfold timeNs slotMissed
  rw [raiseF_frame]
  rfl

theorem timeNs_slotSkipped (n : Fin 64) (k : Nat) (s : State) : timeNs (slotSkipped n k s) = timeNs s := by
  unfold timeNs slotSkipped
  rw [raiseIf_frame, raiseF_frame]
  rfl

section
variable {n : Fin 64} {s : State}

theorem slotCheck_future (h : passed s (getF s (.slot n) Slot.TARGET) = false) : slotCheck n s = s := by
  unfold slotCheck
  exact if_pos (.inr (.inl (by simp [h])))

variable (ha : getF s (.slot n) Slot.STATUS_STATE = 1) (hi : isolated s (.slot n) = false)
  (hp : passed s (getF s (.slot n) Slot.TARGET) = true)
include ha hi hp

theorem slotCheck_late (h0 : getF s (.slot n) Slot.PERIOD = 0) (hs : flag s (.slot n) Slot.CFG_STRICT = false) :
    slotCheck n s = { s with slotLate := s.slotLate.set n true, fresh := slotKey n :: s.fresh } := by
  unfold slotCheck
  simp only
  rw [if_neg (by simp [ha, hi, hp]), if_pos h0, hs]
  rfl

theorem slotCheck_missed (h0 : getF s (.slot n) Slot.PERIOD = 0) (hs : flag s (.slot n) Slot.CFG_STRICT = true) :
    slotCheck n s = slotSignal n
      (slotEvent n 2 (getF s (.slot n) Slot.TARGET) (timeNs s) 0 (slotNotice n (slotMissed n s))) := by
  rw [← timeNs_slotMissed n s, ← timeNs_slotNotice n (slotMissed n s)]
  unfold slotCheck
  simp only
  rw [if_neg (by simp [ha, hi, hp]), if_pos h0, if_pos hs]
  rfl

theorem slotCheck_skip {k : Nat} (h0 : getF s (.slot n) Slot.PERIOD ≠ 0)
    (hk : k = (timeNs s + 2 ^ 32 - getF s (.slot n) Slot.TARGET) % 2 ^ 32 / getF s (.slot n) Slot.PERIOD + 1) :
    slotCheck n s = slotEvent n 3 (getF s (.slot n) Slot.TARGET) (timeNs s) k
      (whenOk (flag s (.slot n) Slot.CFG_STRICT) (slotNotice n) (slotSkipped n k s)) := by
  have htime : timeNs (whenOk (flag s (.slot n) Slot.CFG_STRICT) (slotNotice n) (slotSkipped n k s)) = timeNs s := by
    cases flag s (.slot n) Slot.CFG_STRICT with
    | false => exact timeNs_slotSkipped n k s
    | true => exact (timeNs_slotNotice ..).trans (timeNs_slotSkipped n k s)
  rw [← htime]
  unfold slotCheck
  simp only
  rw [if_neg (by simp [ha, hi, hp]), if_neg h0, ← hk]
  simp only [slotSkipped, whenOk_slotNotice]

end

/-! ### What the check leaves and what it changes -/

/-- The parts of the state that arming a slot may change, beside its event, its notice and its engine. -/
def SlotFrame (s t : State) : Prop := t = { s with regs := t.regs, fresh := t.fresh, slotLate := t.slotLate }

theorem SlotFrame.trans {s t u : State} (h1 : SlotFrame s t) (h2 : SlotFrame t u) : SlotFrame s u :=
  Eq.trans h2 (congrArg (fun x : State => { x with regs := u.regs, fresh := u.fresh, slotLate := u.slotLate }) h1)

theorem slotFrame_slotArmed (n : Fin 64) (s : State) : SlotFrame s (slotArmed n s) := rfl

theorem slotFrame_setF (b : Blk) (f : Fld) (v : Nat) (s : State) : SlotFrame s (setF b f v s) := rfl

theorem slotFrame_raiseF (b : Blk) (f : Fld) (s : State) : SlotFrame s (raiseF b f s) := by
  unfold SlotFrame
  simp only [raiseF_rest]
  exact raiseF_frame b f s

theorem slotFrame_raiseIf (c : Bool) (b : Blk) (f : Fld) (s : State) : SlotFrame s (raiseIf c b f s) := by
  cases c with
  | false => rfl
  | true => exact slotFrame_raiseF b f s

theorem slotFrame_slotMissed (n : Fin 64) (s : State) : SlotFrame s (slotMissed n s) :=
  (slotFrame_setF ..).trans (slotFrame_raiseF ..)

theorem slotFrame_slotSkipped (n : Fin 64) (k : Nat) (s : State) : SlotFrame s (slotSkipped n k s) :=
  (slotFrame_setF ..).trans <| (slotFrame_setF ..).trans <| (slotFrame_raiseF ..).trans (slotFrame_raiseIf ..)

theorem getF_slotMissed (n : Fin 64) (s : State) :
    getF (slotMissed n s) (.slot n) Slot.STATUS_STATE = 3 ∧ getF (slotMissed n s) (.slot n) Slot.STATUS_MISS = 1 ∧
    getF (slotMissed n s) (.slot n) Slot.SKIP = getF s (.slot n) Slot.SKIP ∧
    getF (slotMissed n s) (.slot n) Slot.TARGET = getF s (.slot n) Slot.TARGET := by
  have hstate : 3 % 2 ^ (Slot.STATUS_STATE).width = 3 := rfl
  have hmiss : 1 % 2 ^ (Slot.STATUS_MISS).width = 1 := rfl
  simp (disch := decide) only [slotMissed, getF_raiseF_other, getF_raiseF_self, getF_setF_other, getF_setF_self, hstate,
    hmiss, and_self]

theorem getF_slotSkipped (n : Fin 64) (k : Nat) (s : State) :
    getF (slotSkipped n k s) (.slot n) Slot.STATUS_STATE = getF s (.slot n) Slot.STATUS_STATE ∧
    getF (slotSkipped n k s) (.slot n) Slot.STATUS_SKIP = 1 ∧
    getF (slotSkipped n k s) (.slot n) Slot.SKIP = satU 32 (getF s (.slot n) Slot.SKIP + k) % 2 ^ 32 ∧
    getF (slotSkipped n k s) (.slot n) Slot.TARGET =
      (getF s (.slot n) Slot.TARGET + k * getF s (.slot n) Slot.PERIOD) % 2 ^ 32 ∧
    getF (slotSkipped n k s) (.slot n) Slot.STATUS_MISS =
      if flag s (.slot n) Slot.CFG_STRICT then 1 else getF s (.slot n) Slot.STATUS_MISS := by
  have hbit : 1 % 2 ^ (Slot.STATUS_SKIP).width = 1 ∧ 1 % 2 ^ (Slot.STATUS_MISS).width = 1 := ⟨rfl, rfl⟩
  have hword : (Slot.SKIP).width = 32 ∧ (Slot.TARGET).width = 32 := ⟨rfl, rfl⟩
  simp (disch := decide) only [slotSkipped, getF_raiseIf_other, getF_raiseIf_self, getF_raiseF_other, getF_raiseF_self,
    getF_setF_other, getF_setF_self, hbit, hword, and_self]

/-- A count saturated at 32 bits is stored whole. -/
theorem satU_mod (k : Nat) : satU 32 k % 2 ^ 32 = min (2 ^ 32 - 1) k := by
  unfold satU; split <;> omega

/-! ### An arming that R62 does not refuse -/

theorem getF_slotArmed_target (n : Fin 64) (s : State) :
    getF (slotArmed n s) (.slot n) Slot.TARGET = getF s (.slot n) Slot.TARGET :=
  getF_slotArmed_other (by decide) (by decide) (by decide) n s

theorem getF_slotArmed_period (n : Fin 64) (s : State) :
    getF (slotArmed n s) (.slot n) Slot.PERIOD = getF s (.slot n) Slot.PERIOD :=
  getF_slotArmed_other (by decide) (by decide) (by decide) n s

theorem getF_slotArmed_miss (n : Fin 64) (s : State) :
    getF (slotArmed n s) (.slot n) Slot.STATUS_MISS = getF s (.slot n) Slot.STATUS_MISS :=
  getF_slotArmed_other (by decide) (by decide) (by decide) n s

theorem strict_slotArmed (n : Fin 64) (s : State) :
    flag (slotArmed n s) (.slot n) Slot.CFG_STRICT = (getF s (.slot n) Slot.CFG_STRICT == 1) := by
  unfold flag
  rw [getF_slotArmed_other (by decide) (by decide) (by decide)]

theorem slotLate_slotArmed (n : Fin 64) (s : State) : (slotArmed n s).slotLate[n] = false :=
  Vector.getElem_set_self n.isLt

theorem slotCheck_slotArmed_future {n : Fin 64} {s : State} (h : passed s (getF s (.slot n) Slot.TARGET) = false) :
    slotCheck n (slotArmed n s) = slotArmed n s := by
  refine slotCheck_future ?_
  rw [getF_slotArmed_target, passed_slotArmed, h]

section
variable {n : Fin 64} {s : State} (hi : isolated s (.slot n) = false)
  (hp : passed s (getF s (.slot n) Slot.TARGET) = true)
include hi hp

/-- A one-shot target already passed fires late at the next tick. -/
theorem slotCheck_slotArmed_late (h0 : getF s (.slot n) Slot.PERIOD = 0) (hs : getF s (.slot n) Slot.CFG_STRICT = 0) :
    getF (slotCheck n (slotArmed n s)) (.slot n) Slot.STATUS_STATE = 1 ∧
    getF (slotCheck n (slotArmed n s)) (.slot n) Slot.SKIP = 0 ∧ (slotCheck n (slotArmed n s)).slotLate[n] = true := by
  rw [slotCheck_late (getF_slotArmed_state n s) (by rw [isolated_slotArmed, hi])
    (by rw [getF_slotArmed_target, passed_slotArmed, hp]) (by rw [getF_slotArmed_period, h0])
    (by rw [strict_slotArmed, hs]; rfl)]
  exact ⟨getF_slotArmed_state n s, getF_slotArmed_skip n s, Vector.getElem_set_self n.isLt⟩

/-- A STRICT one-shot slot whose target has passed misses its instant. -/
theorem slotCheck_slotArmed_missed (h0 : getF s (.slot n) Slot.PERIOD = 0) (hs : getF s (.slot n) Slot.CFG_STRICT = 1) :
    slotCheck n (slotArmed n s) = slotSignal n (slotEvent n 2 (getF s (.slot n) Slot.TARGET) (timeNs s) 0
      (slotNotice n (slotMissed n (slotArmed n s)))) := by
  rw [slotCheck_missed (getF_slotArmed_state n s) (by rw [isolated_slotArmed, hi])
    (by rw [getF_slotArmed_target, passed_slotArmed, hp]) (by rw [getF_slotArmed_period, h0])
    (by rw [strict_slotArmed, hs]; rfl), getF_slotArmed_target, timeNs_slotArmed]

/-- A repeating slot whose target has passed moves on by the periods that lie behind, and one more. -/
theorem slotCheck_slotArmed_skip {k : Nat} (h0 : getF s (.slot n) Slot.PERIOD ≠ 0)
    (hk : k = (timeNs s + 2 ^ 32 - getF s (.slot n) Slot.TARGET) % 2 ^ 32 / getF s (.slot n) Slot.PERIOD + 1) :
    slotCheck n (slotArmed n s) = slotEvent n 3 (getF s (.slot n) Slot.TARGET) (timeNs s) k
      (whenOk (getF s (.slot n) Slot.CFG_STRICT == 1) (slotNotice n) (slotSkipped n k (slotArmed n s))) := by
  rw [slotCheck_skip (k := k) (getF_slotArmed_state n s) (by rw [isolated_slotArmed, hi])
    (by rw [getF_slotArmed_target, passed_slotArmed, hp]) (by rwa [getF_slotArmed_period])
    (by rw [getF_slotArmed_period, getF_slotArmed_target, timeNs_slotArmed, hk]), getF_slotArmed_target,
    timeNs_slotArmed, strict_slotArmed]

end

/-- What a repeating slot shows once it has moved `k` periods on. -/
theorem getF_slotSkipped_slotArmed (n : Fin 64) (k : Nat) (s : State) :
    let m := slotSkipped n k (slotArmed n s)
    getF m (.slot n) Slot.STATUS_STATE = 1 ∧ getF m (.slot n) Slot.STATUS_SKIP = 1 ∧
    getF m (.slot n) Slot.SKIP = min (2 ^ 32 - 1) k ∧
    getF m (.slot n) Slot.TARGET =
      (getF s (.slot n) Slot.TARGET + k * getF s (.slot n) Slot.PERIOD) % 2 ^ 32 ∧
    (getF s (.slot n) Slot.CFG_STRICT = 1 → getF m (.slot n) Slot.STATUS_MISS = 1) ∧
    (getF s (.slot n) Slot.CFG_STRICT = 0 → getF m (.slot n) Slot.STATUS_MISS = getF s (.slot n) Slot.STATUS_MISS) := by
  obtain ⟨hstate, hskipped, hskip, htarget, hmiss⟩ := getF_slotSkipped n k (slotArmed n s)
  rw [getF_slotArmed_state] at hstate
  rw [getF_slotArmed_skip, Nat.zero_add, satU_mod] at hskip
  rw [getF_slotArmed_target, getF_slotArmed_period] at htarget
  rw [strict_slotArmed, getF_slotArmed_miss] at hmiss
  refine ⟨hstate, hskipped, hskip, htarget, fun h => ?_, fun h => ?_⟩
  · rw [hmiss, h]; rfl
  · rw [hmiss, h]; rfl

theorem whenOk_beq (a b : Nat) (f : State → State) (s : State) : whenOk (a == b) f s = if a = b then f s else s := by
  unfold whenOk
  simp only [beq_iff_eq]

/-! ### DISARM -/

theorem getF_slotDisarm_state (n : Fin 64) (s : State) : getF (slotDisarm n s) (.slot n) Slot.STATUS_STATE = 0 :=
  getF_setF_self (.slot n) Slot.STATUS_STATE 0 s

theorem regsBut_slotDisarm (n : Fin 64) (s : State) : RegsBut [(.slot n, Slot.STATUS_STATE)] s (slotDisarm n s) := by
  have h : RegsBut [(.slot n, Slot.STATUS_STATE)] s (setF (.slot n) Slot.STATUS_STATE 0 s) :=
    (RegsBut.refl _ s).setF (by simp)
  exact h.of_regs rfl

/-- The state of a slot is no part of its owner. -/
theorem owner_setF_state (n : Fin 64) (v : Nat) (s : State) :
    owner (setF (.slot n) Slot.STATUS_STATE v s) (.slot n) = owner s (.slot n) :=
  getF_setF_other (by decide) (Nat.succ_pos 31) (.inl (Nat.succ_ne_zero 31).symm) v s

/-- Settles O14: each command of SLOT_CMD is the store of its case, and an arming that R62 does not refuse is the check of R64 on
the slot armed anew. -/
theorem slotArmAndDisarm : Obligations.SlotArmAndDisarm := by
  unfold Obligations.SlotArmAndDisarm
  intro ag n w s hacc
  have hdis : exec (.slotDisarm ag n w) s = .next (slotStore n 8 w s) := congrArg Host.Outcome.next (slotWrite_cmd hacc)
  have harm : exec (.slotArm ag n w) s = .next (slotStore n 8 w s) := congrArg Host.Outcome.next (slotWrite_cmd hacc)
  obtain ⟨-, -, hi, -, -⟩ := hacc
  refine ⟨fun hd hdue => ?_, fun hd hdue => ?_, fun hd ha h1 => ?_, fun hd ha h1 => ?_⟩
  · rw [hdis, slotStore_disarm hd, slotDisarmCmd, hdue]
    exact ⟨_, rfl, rfl, getF_slotDisarm_state n s, Vector.getElem_set_self n.isLt, Vector.getElem_set_self n.isLt,
      regsBut_slotDisarm n s⟩
  · rw [hdis, slotStore_disarm hd, slotDisarmCmd, hdue]; rfl
  · rw [harm, slotStore_arm_again hd h1]
  intro action period o refused
  have href : armRefused s n = true ↔ refused := armRefused_iff s n
  by_cases hr : refused
  · rw [harm, slotStore_arm_refused hd ha h1 (href.2 hr), slotSignal, owner_setF_state]
    exact ⟨_, rfl, fun _ => rfl, fun h => absurd hr h, fun h => absurd hr h, fun h => absurd hr h, fun h => absurd hr h⟩
  rw [harm, slotStore_arm_taken hd ha h1 (fun h => hr (href.1 h))]
  refine ⟨_, rfl, fun h => absurd h hr, fun _ hp => ?_, fun _ hp => slotCheck_slotArmed_late hi hp,
    fun _ hp h0 hs => ⟨slotMissed n (slotArmed n s), ?_⟩, fun _ hp h0 => ?_⟩
  · rw [slotCheck_slotArmed_future hp]
    exact ⟨rfl, getF_slotArmed_state n s, getF_slotArmed_skip n s, slotLate_slotArmed n s, regsBut_slotArmed n s⟩
  · obtain ⟨hstate, hmiss, hskip, htarget⟩ := getF_slotMissed n (slotArmed n s)
    exact ⟨(slotFrame_slotArmed n s).trans (slotFrame_slotMissed n _), hstate, hmiss,
      hskip.trans (getF_slotArmed_skip n s), htarget.trans (getF_slotArmed_target n s),
      slotCheck_slotArmed_missed hi hp h0 hs⟩
  · intro k
    obtain ⟨hstate, hskipped, hskip, htarget, hmiss, hkept⟩ := getF_slotSkipped_slotArmed n k s
    exact ⟨slotSkipped n k (slotArmed n s), (slotFrame_slotArmed n s).trans (slotFrame_slotSkipped n k _), hstate, hskipped,
      hskip, htarget, hmiss, hkept, by rw [slotCheck_slotArmed_skip hi hp h0 rfl, whenOk_beq]; rfl⟩

end Sys2Proof.Machine
end
